-- ==== Sys2Proof/Word.lean ====
section
/-! DEFINITION. The one word type of the part: the byte of the control link and of the overlay lines. -/

namespace Sys2Proof

/-- A byte as the link and the overlay lines carry it (R194, R170). -/
abbrev Byte := BitVec 8

end Sys2Proof
end

