-- ==== Sys2Proof/Syntax.lean ====
section
/-! DEFINITION. The commands of the part: one constructor of `Instr` for each row of spec/opcode_table.json, with the
row's operands. Numbers are carried as they are sent, in range or not: the block that owns the request checks them. -/

namespace Sys2Proof

/-- The direction of a timecode word and of a lock (R76, R81). -/
inductive Direction where
  | forward
  | reverse
  deriving DecidableEq, Repr

/-- The first byte of a window: a request code, or 0x00 for a fetch window (R194), and whether RESET_N was low since CS_N
fell (R194, R200; log 18). -/
structure FirstByte where
  code : Byte
  acrossReset : Bool
  deriving DecidableEq, Repr

/-- A fetch window: the number of bytes clocked after its 0x00 byte (R198), and whether RESET_N was low since CS_N fell
(R194; log 18). -/
structure FetchWindow where
  clocked : Nat
  acrossReset : Bool
  deriving DecidableEq, Repr

/-- What a word arrival carries (R76): the digits, the drop flag, the direction and the arrival count. -/
structure TimecodeWord where
  hours : Nat
  minutes : Nat
  seconds : Nat
  frames : Nat
  drop : Bool
  direction : Direction
  arrival : Nat
  deriving DecidableEq, Repr

/-- A position field of a request, as carried: a label and a subframe (R9, R201). -/
structure PositionField where
  hours : Nat
  minutes : Nat
  seconds : Nat
  frames : Nat
  subframe : Nat
  deriving DecidableEq, Repr

/-- The seven timing fields of a request, each given or not given (R22, R26, R201). -/
structure TimingFields where
  lead : Option Nat
  beepCount : Option Nat
  beepSpacing : Option Nat
  beepLength : Option Nat
  preRoll : Option Nat
  punchIn : Option Nat
  punchOut : Option Nat
  deriving DecidableEq, Repr

/-- CUE_CREATE (section 2.4). The suffix is 0 for none, else the letter's code (R201). -/
structure CueCreateFields where
  reel : Nat
  number : Nat
  suffix : Nat
  characters : List Nat
  inPos : PositionField
  outPos : PositionField
  timing : TimingFields
  deriving DecidableEq, Repr

/-- CUE_EDIT (R34): each field given or not given. -/
structure CueEditFields where
  handle : Nat
  number : Option Nat
  suffix : Option Nat
  characters : Option (List Nat)
  inPos : Option PositionField
  outPos : Option PositionField
  timing : TimingFields
  deriving DecidableEq, Repr

/-- CUE_RETIRE (section 2.6): the handle and the force flag, 0 clear and 1 set. -/
structure RetireFields where
  handle : Nat
  force : Nat
  deriving DecidableEq, Repr

/-- CUE_MARK (R44). -/
structure CueMarkFields where
  handle : Nat
  enable : Option Nat
  approval : Option Nat
  deriving DecidableEq, Repr

/-- REEL_OPEN and REEL_SET_RATE: a reel number and a rate code (R48, R50). -/
structure ReelRateFields where
  reel : Nat
  rate : Nat
  deriving DecidableEq, Repr

/-- REEL_SET_DEFAULTS (R49). -/
structure ReelDefaultsFields where
  reel : Nat
  timing : TimingFields
  deriving DecidableEq, Repr

/-- CUE_FIND (R55). -/
structure CueFindFields where
  reel : Nat
  number : Nat
  suffix : Nat
  deriving DecidableEq, Repr

/-- CUE_NEXT (R56). -/
structure CueNextFields where
  reel : Nat
  position : PositionField
  deriving DecidableEq, Repr

/-- CUE_LIST (R57). -/
structure CueListFields where
  reel : Nat
  start : Nat
  count : Nat
  deriving DecidableEq, Repr

/-- CHAR_DEFINE (R65): a character id and a name. -/
structure CharDefineFields where
  character : Nat
  name : List Byte
  deriving DecidableEq, Repr

/-- CAST_ASSIGN (R70). -/
structure CastAssignFields where
  character : Nat
  stage : Nat
  podium : Nat
  move : Nat
  deriving DecidableEq, Repr

/-- TRACKER_SET (R100). -/
structure TrackerSetFields where
  stage : Nat
  source : Option Nat
  rate : Option Nat
  lockCount : Option Nat
  jumpConfirm : Option Nat
  freewheelLimit : Option Nat
  deriving DecidableEq, Repr

/-- STAGE_SELECT_REEL (R109, R201): choice 0 a reel number, 1 "none", 2 "auto". -/
structure SelectReelFields where
  stage : Nat
  choice : Nat
  reel : Nat
  deriving DecidableEq, Repr

/-- STAGE_SET (R112). -/
structure StageSetFields where
  stage : Nat
  recordMode : Option Nat
  skipPrinted : Option Nat
  blankingLength : Option Nat
  deriving DecidableEq, Repr

/-- A stage and one value: TALKBACK (R139), PATH_SET (R141), OVERLAY_SET (R178). -/
structure StageValueFields where
  stage : Nat
  value : Nat
  deriving DecidableEq, Repr

/-- FAULT_SET (R152). -/
structure FaultSetFields where
  stage : Nat
  dropout : Option Nat
  offSpeed : Option Nat
  rateMismatch : Option Nat
  jumpInCue : Option Nat
  deriving DecidableEq, Repr

/-- A notice as the link names it (R201): a scope, 0..3 or 0x0F, and the place in the table of R153. -/
structure NoticeName where
  scope : Nat
  place : Nat
  deriving DecidableEq, Repr

/-- NOTICE_MASK (R154): the notices named and the value, 0 clear and 1 set. -/
structure NoticeMaskFields where
  notices : List NoticeName
  value : Nat
  deriving DecidableEq, Repr

/-- LINE_BANK_SET (R162). -/
structure BankSetFields where
  bank : Nat
  mode : Nat
  stage : Nat
  deriving DecidableEq, Repr

/-- A line source with its parameters (R163, R164); a parameter the source does not carry is 0. -/
structure LineSourceField where
  source : Nat
  stage : Nat
  podium : Nat
  deriving DecidableEq, Repr

/-- LINE_SET (R164). -/
structure LineSetFields where
  line : Nat
  source : Option LineSourceField
  drive : Option Nat
  polarity : Option Nat
  deriving DecidableEq, Repr

/-- MON_CONFIG (R188). -/
structure MonConfigFields where
  counter : Nat
  enable : Nat
  stage : Nat
  source : Nat
  band : Nat
  filter : Nat
  threshold : Nat
  invert : Nat
  edge : Nat
  deriving DecidableEq, Repr

/-- The operand of a request row, in one of its two forms: the named fields of the request (00_scope 4.6), or the
bytes of its window after the code byte, as clocked (R194, R201, R202). See log 16. -/
inductive Request (α : Type) where
  /-- The fields, taken as a window that carries them in a correct frame. -/
  | fields (x : α)
  /-- The whole bytes of the window after its first byte: the declared length, then the payload. -/
  | window (bytes : List Byte)
  deriving DecidableEq, Repr

/-- The commands: the rows of spec/opcode_table.json in the table's order. A request row is the END of its window (and,
where no first byte of it was taken before, the whole window, log 16). -/
inductive Instr where
  /-- CUE_CREATE (R31). -/
  | cueCreate (q : Request CueCreateFields)
  /-- CUE_EDIT (R35). -/
  | cueEdit (q : Request CueEditFields)
  /-- CUE_RETIRE (R37): the force flag clear. -/
  | cueRetire (q : Request RetireFields)
  /-- FORCED_RETIRE (R38): CUE_RETIRE with the force flag set. -/
  | forcedRetire (q : Request RetireFields)
  /-- CUE_CREATE_COMPLETION (R33). -/
  | cueCreateCompletion
  /-- CUE_EDIT_COMPLETION (R36). -/
  | cueEditCompletion
  /-- CUE_RETIRE_COMPLETION (R39). -/
  | cueRetireCompletion
  /-- CUE_READ (R43): a handle. -/
  | cueRead (q : Request Nat)
  /-- CUE_MARK (R44). -/
  | cueMark (q : Request CueMarkFields)
  /-- REEL_OPEN (R48). -/
  | reelOpen (q : Request ReelRateFields)
  /-- REEL_SET_DEFAULTS (R49). -/
  | reelSetDefaults (q : Request ReelDefaultsFields)
  /-- REEL_SET_RATE (R50). -/
  | reelSetRate (q : Request ReelRateFields)
  /-- REEL_READ (R51): a reel number. -/
  | reelRead (q : Request Nat)
  /-- REEL_CLOSE (R58): a reel number. -/
  | reelClose (q : Request Nat)
  /-- CUE_FIND (R55). -/
  | cueFind (q : Request CueFindFields)
  /-- CUE_NEXT (R56). -/
  | cueNext (q : Request CueNextFields)
  /-- CUE_LIST (R57). -/
  | cueList (q : Request CueListFields)
  /-- CHAR_DEFINE (R65). -/
  | charDefine (q : Request CharDefineFields)
  /-- CHAR_RETIRE (R67): a character id. -/
  | charRetire (q : Request Nat)
  /-- CHAR_READ (R68): a character id. -/
  | charRead (q : Request Nat)
  /-- CAST_ASSIGN (R70). -/
  | castAssign (q : Request CastAssignFields)
  /-- CAST_RELEASE (R72): a character id. -/
  | castRelease (q : Request Nat)
  /-- CAST_READ (R73): a stage. -/
  | castRead (q : Request Nat)
  /-- TRACKER_SET (R100). -/
  | trackerSet (q : Request TrackerSetFields)
  /-- TRACKER_READ (R101): a stage. -/
  | trackerRead (q : Request Nat)
  /-- STAGE_ENABLE (R104): a stage. -/
  | stageEnable (q : Request Nat)
  /-- STAGE_DISABLE (R105): a stage. -/
  | stageDisable (q : Request Nat)
  /-- STAGE_RESET (R106): a stage. -/
  | stageReset (q : Request Nat)
  /-- STAGE_SELECT_REEL (R109). -/
  | stageSelectReel (q : Request SelectReelFields)
  /-- STAGE_SET (R112). -/
  | stageSet (q : Request StageSetFields)
  /-- STAGE_READ (R130): a stage. -/
  | stageRead (q : Request Nat)
  /-- TALKBACK (R139): a stage and 1 "on", 0 "off". -/
  | talkback (q : Request StageValueFields)
  /-- PATH_SET (R141): a stage and a guard gap. -/
  | pathSet (q : Request StageValueFields)
  /-- PATH_READ (R142): a stage. -/
  | pathRead (q : Request Nat)
  /-- FAULT_CLEAR (R151): a stage. -/
  | faultClear (q : Request Nat)
  /-- FAULT_SET (R152). -/
  | faultSet (q : Request FaultSetFields)
  /-- FAULT_READ (R152): a stage. -/
  | faultRead (q : Request Nat)
  /-- NOTICE_READ (R156). -/
  | noticeRead (q : Request Unit)
  /-- NOTICE_MASK (R154). -/
  | noticeMask (q : Request NoticeMaskFields)
  /-- NOTICE_CLEAR (R157): the notices named. -/
  | noticeClear (q : Request (List NoticeName))
  /-- LINE_BANK_SET (R162). -/
  | lineBankSet (q : Request BankSetFields)
  /-- LINE_SET (R164). -/
  | lineSet (q : Request LineSetFields)
  /-- LINE_READ (R169). -/
  | lineRead (q : Request Unit)
  /-- OVERLAY_SET (R178): a stage and an overlay phase. -/
  | overlaySet (q : Request StageValueFields)
  /-- OVERLAY_READ (R179): a stage. -/
  | overlayRead (q : Request Nat)
  /-- MON_CONFIG (R188). -/
  | monConfig (q : Request MonConfigFields)
  /-- MON_CLEAR (R189): the counters named. -/
  | monClear (q : Request (List Nat))
  /-- MON_FREEZE (R190): 0 FROZEN, 1 RUNNING. -/
  | monFreeze (q : Request Nat)
  /-- MON_SET_BANDS (R191): pairs of a band and its bound. -/
  | monSetBands (q : Request (List (Nat × Nat)))
  /-- MON_READ (R192). -/
  | monRead (q : Request Unit)
  /-- DEVICE_RESET (R199). -/
  | deviceReset (q : Request Unit)
  /-- UNKNOWN_REQUEST (R196): a window with a code outside the request index, and its bytes after the code. -/
  | unknownRequest (code : Byte) (bytes : List Byte)
  /-- DROPPED_REQUEST (R195): the end of a request window that began while the link was BUSY. -/
  | droppedRequest
  /-- FETCH (R198): the end of a fetch window (and, where no first byte of it was taken before, the whole window). -/
  | fetch (clocked : FetchWindow)
  /-- PIN_RESET (R200): RESET_N falls. -/
  | pinReset
  /-- RESET_RELEASE (R200, R161): RESET_N rises, with the level at the STRAP pin. -/
  | resetRelease (level : Fin 4)
  /-- WORD_ARRIVAL (R76, R79): a word ends on a timecode input pin. -/
  | wordArrival (pin : Fin 6) (word : TimecodeWord)
  /-- SUBFRAME_ADVANCE (R97) at the tracker of a stage. -/
  | subframeAdvance (stage : Fin 4)
  /-- ACQUISITION_DEADLINE_EXPIRY (R86) at the tracker of a stage. -/
  | acquisitionDeadlineExpiry (stage : Fin 4)
  /-- LOCKED_DEADLINE_EXPIRY (R91) at the tracker of a stage. -/
  | lockedDeadlineExpiry (stage : Fin 4)
  /-- SYNTHETIC_BOUNDARY_DUE (R92) at the tracker of a stage. -/
  | syntheticBoundaryDue (stage : Fin 4)
  /-- GAP_EXPIRY (R138) at the interlock of a stage. -/
  | gapExpiry (stage : Fin 4)
  /-- CLOSURE_STEP (R60). -/
  | closureStep
  /-- PACKET_END (R177) at the overlay transmitter of a stage. -/
  | packetEnd (stage : Fin 4)
  /-- WINDOW_FIRST_BYTE (R195): the first byte of a window has been clocked. -/
  | windowFirstByte (code : FirstByte)
  deriving DecidableEq, Repr

end Sys2Proof
end

