-- ==== Sys2Proof/Config.lean ====
section
/-! DEFINITION. The sizes the manual fixes, and the free values: what the manual leaves open, as constants without a body. -/

namespace Sys2Proof.Config

/-- Cue record slots (R21). -/
def handleCount : Nat := 1024
/-- Reel slots (R46). -/
def reelSlotCount : Nat := 32
/-- Character slots (R63). -/
def characterCount : Nat := 64
/-- Run contexts of a stage (R102, R116). -/
def runContextCount : Nat := 8
/-- The highest take count (R41). -/
def takeCountMax : Nat := 999
/-- The highest counter value (R187). -/
def counterMax : Nat := 4294967295
/-- The bytes the request slot holds: a code, a length and 250 payload bytes (R193). -/
def requestSlotSize : Nat := 252
/-- The longest cue span, 7,200 frames, in position values (R12). -/
def spanMax : Nat := 460800

/-- FREE VALUE (log 5, log 6). The manual says of two events "either may be taken first" (R42, R176): the number that
chooses one of the possible orders, for the n-th use of such a choice. -/
opaque freeOrder : Nat → Nat

/-- FREE VALUE (log 10, log 14). R201 gives a cue count, a use count and the gap length of a PATH_SET response one byte;
for a number above 255 it states no byte. -/
opaque wideCountByte : Nat → Byte

/-- FREE VALUE (log 40). R194 says what MISO carries in a request window and in a fetch window, and not what it carries in a
window that is ignored, once RESET_N has risen: the byte at a reference count, under a byte of the window. -/
opaque ignoredMisoByte : Nat → Nat → Byte

end Sys2Proof.Config
end

