-- ==== Sys2Proof/Machine/State.lean ====
section
/-! DEFINITION. The state of the part: every register, table, queue and flag the manual names, as plain data, with
`State.reset`. The part of it that the events of a stage reach is `Floor`; `State` adds the link port, the maintenance
unit, the line matrix and the pins. -/

namespace Sys2Proof.Machine

/-! ## Rates, labels, positions -/

/-- The six rate codes (00_scope 4.3, R2), in the order of their codes. -/
inductive Rate where
  | fps23976
  | fps24
  | fps25
  | fps2997drop
  | fps2997
  | fps30
  deriving DecidableEq, Repr

/-- A label: hours, minutes, seconds, frames (00_scope 4.4). -/
structure Label where
  hours : Nat
  minutes : Nat
  seconds : Nat
  frames : Nat
  deriving DecidableEq, Repr

/-! ## Statuses -/

/-- The status codes of a response (R202). NONE is read by a fetch only and is no status of a response. -/
inductive Status where
  | ok
  | clamped
  | accepted
  | badRequest
  | badLength
  | unknownHandle
  | unknownReel
  | unknownCharacter
  | badCharacters
  | invalidPosition
  | badSpan
  | duplicateLabel
  | storeFull
  | reelTableFull
  | reelClosing
  | reelNotEmpty
  | cueInFlight
  | cueBusy
  | characterInUse
  | castConflict
  | podiumTaken
  | stageState
  | maintBusy
  deriving DecidableEq, Repr

/-! ## The cue store and the maintenance unit -/

/-- The seven timing values of a cue or of a reel's defaults, in frames (R22, R46). -/
structure Timing where
  lead : Nat
  beepCount : Nat
  beepSpacing : Nat
  beepLength : Nat
  preRoll : Nat
  punchIn : Nat
  punchOut : Nat
  deriving DecidableEq, Repr

/-- The fields of a cue that a store operation writes (R22, R34). A suffix is held by its letter's code (R201). -/
structure CueFields where
  number : Nat
  suffix : Option Nat
  characters : List Nat
  inPoint : Nat
  outPoint : Nat
  timing : Timing
  deriving DecidableEq, Repr

/-- The enable value of a cue (R22, R23). -/
inductive Enable where
  | enabled
  | muted
  deriving DecidableEq, Repr

/-- The approval value of a cue (R22, R23): OPEN, HOLD, PRINTED. -/
inductive Approval where
  | approvalOpen
  | approvalHold
  | printed
  deriving DecidableEq, Repr

/-- The store lock of a cue (R29): NONE, EDITING, RETIRING. -/
inductive Lock where
  | unlocked
  | editing
  | retiring
  deriving DecidableEq, Repr

/-- The outcome of a take (R22, R41). -/
inductive TakeOutcome where
  | complete
  | aborted
  deriving DecidableEq, Repr

/-- A take report as the record keeps it (R22, R41). -/
structure Take where
  stage : Fin 4
  punchedAt : Nat
  endedAt : Nat
  outcome : TakeOutcome
  deriving DecidableEq, Repr

/-- A live cue record (R22). The handle is its key in the store; `reel` is the slot of its reel. -/
structure Cue where
  reel : Nat
  fields : CueFields
  enable : Enable
  approval : Approval
  takeCount : Nat
  lastTake : Option Take
  inFlight : Nat
  lock : Lock
  deriving DecidableEq, Repr

/-- The operation record of the maintenance unit's foreground side while OPERATING (R28). An edit holds every value
the record will hold after it (log 20). -/
inductive StoreOp where
  | create (reel : Nat) (fields : CueFields) (status : Status)
  | edit (handle : Nat) (fields : CueFields) (status : Status)
  | retire (handle : Nat) (status : Status)
  deriving DecidableEq, Repr

/-! ## The reel table, the character table, the cast map -/

/-- The state of a reel slot that is not FREE (R46). -/
inductive ReelState where
  | reelOpened
  | reelClosing
  deriving DecidableEq, Repr

/-- A reel record (R46). The cue count is the length of the order list (R46, R52; log 24). -/
structure Reel where
  state : ReelState
  number : Nat
  rate : Rate
  defaults : Timing
  order : List Nat
  deriving DecidableEq, Repr

/-- A DEFINED character slot (R63). The cast place is read from the cast map (R69; log 24). -/
structure Character where
  name : List Byte
  useCount : Nat
  deriving DecidableEq, Repr

/-- Six podium entries, each empty or a character id (R69, R74). -/
abbrev Podiums := Vector (Option Nat) 6

/-! ## Position trackers -/

/-- The source choice of a tracker (R77). -/
inductive SourceChoice where
  | choiceA
  | choiceB
  | choiceC
  deriving DecidableEq, Repr

/-- The five tracker states (R81). -/
inductive TrackerState where
  | idle
  | searching
  | acquiring
  | locked
  | freewheel
  deriving DecidableEq, Repr

/-- The acquisition of a tracker (R81, R83): the count and the last counted word. -/
structure Acquisition where
  count : Nat
  label : Label
  direction : Direction
  arrival : Nat
  deriving DecidableEq, Repr

/-- A jump candidate (R81, R89). -/
structure Candidate where
  label : Label
  confirm : Nat
  deriving DecidableEq, Repr

/-- The tracker record (R81). The position is held as its position value (R1). -/
structure Tracker where
  source : SourceChoice
  rate : Rate
  lockCount : Nat
  jumpConfirm : Nat
  freewheelLimit : Nat
  state : TrackerState
  direction : Direction
  position : Nat
  lastBoundary : Option Nat
  timingRef : Option Nat
  acquisition : Option Acquisition
  candidate : Option Candidate
  synthetic : Nat
  e8 : Nat
  speed : Nat
  inSpeed : Bool
  deriving DecidableEq, Repr

/-! ## Stage runners and their fault logic -/

/-- The six runner states (R102). -/
inductive RunnerState where
  | offline
  | standby
  | chasing
  | blanked
  | hold
  | halted
  deriving DecidableEq, Repr

/-- The selection mode of a runner (R102). -/
inductive SelectionMode where
  | manual
  | auto
  deriving DecidableEq, Repr

/-- The record mode of a stage (R102, R112). -/
inductive RecordMode where
  | rehearse
  | record
  deriving DecidableEq, Repr

/-- The phase of a run (R118). -/
inductive Phase where
  | armed
  | sweep
  | speaking
  | tail
  deriving DecidableEq, Repr

/-- The punch state of a run (R118): NONE, WAITING, PUNCHED. -/
inductive Punch where
  | unpunched
  | waiting
  | punched
  deriving DecidableEq, Repr

/-- Where a claim that waits was made: its reference count and the position value of the run's P_in (R120, R136). -/
structure Claim where
  count : Nat
  position : Nat
  deriving DecidableEq, Repr

/-- A run context (R118). Two fields are the model's own, for the events that R136 lets fall on one count (log 36): `claim`,
held while the run is WAITING, and `lateGrant`, the count of the late grant that punched a PUNCHED run. -/
structure Run where
  handle : Nat
  phase : Phase
  punch : Punch
  punchedAt : Option Nat
  claim : Option Claim
  lateGrant : Option Nat
  deriving DecidableEq, Repr

/-- The runner record (R102). The selected reel is held by its slot. -/
structure Runner where
  state : RunnerState
  mode : SelectionMode
  manualReel : Option Nat
  selected : Option Nat
  recordMode : RecordMode
  skipPrinted : Bool
  blankingLength : Nat
  blankingCount : Nat
  holdOff : Nat
  runs : List Run
  workingCast : Podiums
  lastPosition : Nat
  deriving DecidableEq, Repr

/-- The four governed conditions (R144). -/
inductive Condition where
  | dropout
  | offSpeed
  | rateMismatch
  | jumpInCue
  deriving DecidableEq, Repr

/-- The five response modes (R145). -/
inductive ResponseMode where
  | halt
  | resumeSlow
  | resumeFast
  | report
  | ignore
  deriving DecidableEq, Repr

/-- The response modes of a stage (R145). -/
structure FaultModes where
  dropout : ResponseMode
  offSpeed : ResponseMode
  rateMismatch : ResponseMode
  jumpInCue : ResponseMode
  deriving DecidableEq, Repr

/-! ## The audio path interlock -/

/-- The five path states (R131). -/
inductive PathState where
  | free
  | talk
  | protected_
  | record
  | gap
  deriving DecidableEq, Repr

/-- The path record (R131). -/
structure Path where
  state : PathState
  talkWanted : Bool
  gapExpiry : Option Nat
  guardGap : Nat
  demand : Bool
  deriving DecidableEq, Repr

/-! ## Overlay transmitters -/

/-- A composed packet: its bytes (R202) and the handles of its entries whose flash flag is set (R175). -/
structure Packet where
  bytes : List Byte
  flash : List Nat
  deriving DecidableEq, Repr

/-- A packet being sent: its bytes and the count at which its first start bit began (R177; log 22). -/
structure Sending where
  bytes : List Byte
  start : Nat
  deriving DecidableEq, Repr

/-- The transmitter record (R171). The transmitter is SENDING while a packet is in progress, else IDLE. -/
structure Overlay where
  phase : Nat
  inProgress : Option Sending
  waiting : Option Packet
  lastFrame : Option Nat
  flashMarks : List Nat
  deriving DecidableEq, Repr

/-- The four blocks of one stage (00_scope 2.3). -/
structure Stage where
  tracker : Tracker
  runner : Runner
  faults : FaultModes
  path : Path
  overlay : Overlay
  deriving DecidableEq, Repr

/-! ## The notice unit -/

/-- The six notices of a stage, in the order of the table of R153. -/
inductive StageNotice where
  | dropout
  | offSpeed
  | rateMismatch
  | jumpInCue
  | cueStarved
  | latePunch
  deriving DecidableEq, Repr

/-- The 26 notices (R153). -/
inductive Notice where
  | ofStage (stage : Fin 4) (name : StageNotice)
  | linkDropped
  | reelClosed
  deriving DecidableEq, Repr

/-- One bit for each notice: the six of stage 0, of stage 1, 2, 3, then LINK_DROPPED and REEL_CLOSED (R153; log 23). -/
abbrev NoticeBits := Vector Bool 26

/-! ## The monitor unit -/

/-- The sources of a counter (R183, R186), in the order of R201. -/
inductive CounterSource where
  | frames
  | lockedFrames
  | speedBand
  | recordFrames
  | starvedFrames
  | runOccupancy
  | takesComplete
  | takesAborted
  | jumps
  | glitches
  | rateMismatches
  deriving DecidableEq, Repr

/-- The phase filter of a counter (R181): a phase, or none for ANY. -/
abbrev PhaseFilter := Option Phase

/-- The edge memory of a counter (R181, R185). -/
inductive EdgeMemory where
  | unknown
  | wasTrue
  | wasFalse
  deriving DecidableEq, Repr

/-- A counter record (R181). -/
structure Counter where
  value : Nat
  enabled : Bool
  stage : Fin 4
  source : CounterSource
  band : Fin 4
  filter : PhaseFilter
  threshold : Nat
  invert : Bool
  edge : Bool
  memory : EdgeMemory
  deriving DecidableEq, Repr

/-- The monitor unit (R181): eight counters, four band bounds, the freeze state. -/
structure Monitor where
  counters : Vector Counter 8
  bounds : Vector Nat 4
  frozen : Bool
  deriving DecidableEq, Repr

/-! ## The part that stage events reach -/

/-- The stages and the shared blocks that an event of a stage reaches: the reference counter, the cue store, the reel
table, the character table, the cast map, the notice unit and the monitor unit. Stores are tables sorted by slot. -/
structure Floor where
  now : Nat
  draws : Nat
  cues : List (Nat × Cue)
  reels : List (Nat × Reel)
  chars : List (Nat × Character)
  casts : Vector Podiums 4
  stages : Vector Stage 4
  notices : NoticeBits
  mask : NoticeBits
  monitor : Monitor
  deriving DecidableEq, Repr

/-! ## The control link port -/

/-- The link state (R193). -/
inductive LinkState where
  | empty
  | busy
  | ready
  deriving DecidableEq, Repr

/-- The window in progress (R194, R195, R198), once its first byte has been clocked: none; a request window assembling
into the request slot, or marked dropped; a fetch window, with whether it found a response waiting at its first byte; or a
window that began before or during a pin reset, and so is ignored to its end. -/
inductive WindowState where
  | noWindow
  | assembling
  | dropped
  | fetching (answers : Bool)
  | ignored
  deriving DecidableEq, Repr

/-- A response (R193): its length is that of its payload. -/
structure Response where
  status : Status
  code : Byte
  payload : List Byte
  deriving DecidableEq, Repr

/-- The link port (R193). The request slot holds the code, length and payload bytes of the request window in progress, at
most 252 of them. `fetched` is what MISO carried in the last fetch window (R198; log 27). -/
structure Link where
  state : LinkState
  window : WindowState
  requestSlot : List Byte
  response : Option Response
  fetched : List Byte
  deriving DecidableEq, Repr

/-! ## The line matrix -/

/-- The mode of a bank (R160). -/
inductive BankMode where
  | dedicated
  | routed
  deriving DecidableEq, Repr

/-- A bank record (R160). -/
structure Bank where
  mode : BankMode
  stage : Fin 4
  deriving DecidableEq, Repr

/-- The sources of a line (R163), in the order of the table. -/
inductive LineSource where
  | constantInactive
  | constantActive
  | record (stage : Fin 4)
  | talkback (stage : Fin 4)
  | beep (stage : Fin 4)
  | streamerActive (stage : Fin 4)
  | armed (stage : Fin 4)
  | anySpeak (stage : Fin 4)
  | stageFault (stage : Fin 4)
  | podiumSpeak (stage : Fin 4) (podium : Fin 6)
  | podiumStandby (stage : Fin 4) (podium : Fin 6)
  | podiumBicolour (stage : Fin 4) (podium : Fin 6)
  | attention
  deriving DecidableEq, Repr

/-- The drive of a line (R159). -/
inductive Drive where
  | pushPull
  | openDrain
  deriving DecidableEq, Repr

/-- The polarity of a line (R159). -/
inductive Polarity where
  | normal
  | inverted
  deriving DecidableEq, Repr

/-- The setting of a cue line (R159, R163). -/
structure Line where
  source : LineSource
  drive : Drive
  polarity : Polarity
  deriving DecidableEq, Repr

/-! ## The whole state -/

/-- The state of the part. `operation` is the foreground side of the maintenance unit (absent: IDLE), `closure` the
slot of the reel its closure side is closing (absent: IDLE), `resetHeld` that RESET_N is low, `pending` the model's own
queue of commands that wait, first in first out. -/
structure State where
  floor : Floor
  link : Link
  operation : Option StoreOp
  closure : Option Nat
  banks : Vector Bank 4
  lines : Vector Line 24
  strap : Fin 4
  resetHeld : Bool
  pending : List Instr
  deriving DecidableEq, Repr

/-- Why a step stops with a fault. No rule of the manual stops the part: it answers every request by a status and every
condition by a notice. So there is no reason, and no constructor. -/
inductive Fault where
  deriving DecidableEq, Repr

/-- Why a step is refused. -/
inductive Refusal where
  /-- Raised by `exec` alone, for a command whose meaning is not written; safe. No arm of `exec` raises it now. -/
  | notModelled (mnemonic : String)
  deriving DecidableEq, Repr

/-! ## Reset values -/

/-- A tracker after reset (R81). -/
def Tracker.reset : Tracker where
  source := .choiceA
  rate := .fps24
  lockCount := 4
  jumpConfirm := 2
  freewheelLimit := 8
  state := .idle
  direction := .forward
  position := 0
  lastBoundary := none
  timingRef := none
  acquisition := none
  candidate := none
  synthetic := 0
  e8 := 8000000
  speed := 10000
  inSpeed := true

/-- Six empty podiums (R69, R102). -/
def Podiums.none : Podiums := Vector.replicate 6 Option.none

/-- A runner after reset (R102). -/
def Runner.reset : Runner where
  state := .offline
  mode := .manual
  manualReel := none
  selected := none
  recordMode := .rehearse
  skipPrinted := false
  blankingLength := 6
  blankingCount := 0
  holdOff := 0
  runs := []
  workingCast := Podiums.none
  lastPosition := 0

/-- The default modes (R144, R145). -/
def FaultModes.reset : FaultModes where
  dropout := .report
  offSpeed := .resumeFast
  rateMismatch := .halt
  jumpInCue := .report

/-- A path after reset (R131). -/
def Path.reset : Path where
  state := .free
  talkWanted := false
  gapExpiry := none
  guardGap := 32
  demand := false

/-- A transmitter after reset (R171). -/
def Overlay.reset : Overlay where
  phase := 32
  inProgress := none
  waiting := none
  lastFrame := none
  flashMarks := []

/-- A stage after reset. -/
def Stage.reset : Stage where
  tracker := Tracker.reset
  runner := Runner.reset
  faults := FaultModes.reset
  path := Path.reset
  overlay := Overlay.reset

/-- A counter after reset (R181). -/
def Counter.reset : Counter where
  value := 0
  enabled := false
  stage := 0
  source := .frames
  band := 0
  filter := none
  threshold := 0
  invert := false
  edge := false
  memory := .unknown

/-- The monitor unit after reset (R181). -/
def Monitor.reset : Monitor where
  counters := Vector.replicate 8 Counter.reset
  bounds := #v[9500, 9990, 10010, 10500]
  frozen := false

/-- The floor after reset (R45, R46, R63, R69, R153, R154, R181). DESIGN CHOICE (log 1): the reference counter
starts at 0; unsafe. -/
def Floor.reset : Floor where
  now := 0
  draws := 0
  cues := []
  reels := []
  chars := []
  casts := Vector.replicate 4 Podiums.none
  stages := Vector.replicate 4 Stage.reset
  notices := Vector.replicate 26 false
  mask := Vector.replicate 26 true
  monitor := Monitor.reset

/-- The link port after reset (R193). -/
def Link.reset : Link where
  state := .empty
  window := .noWindow
  requestSlot := []
  response := none
  fetched := []

/-- A line after reset (R161). -/
def Line.reset : Line where
  source := .constantInactive
  drive := .openDrain
  polarity := .normal

/-- The part right after a pin reset has ended (R200). DESIGN CHOICE (log 7): the strap level just latched is 0, so
every bank is DEDICATED to the stage of its number (R161); unsafe. -/
def State.reset : State where
  floor := Floor.reset
  link := Link.reset
  operation := none
  closure := none
  banks := #v[⟨.dedicated, 0⟩, ⟨.dedicated, 1⟩, ⟨.dedicated, 2⟩, ⟨.dedicated, 3⟩]
  lines := Vector.replicate 24 Line.reset
  strap := 0
  resetHeld := false
  pending := []

end Sys2Proof.Machine
end

