-- ==== Sys2Proof/Machine/Positions.lean ====
section
/-! DEFINITION. Rates, labels, positions, the day and its wrap, and the points of a cue's timeline (spec file 01). -/

namespace Sys2Proof.Machine

/-! ## Rates (00_scope 4.3, R1, R2) -/

/-- The rate code (R2). -/
def Rate.code : Rate → Nat
  | .fps23976 => 0
  | .fps24 => 1
  | .fps25 => 2
  | .fps2997drop => 3
  | .fps2997 => 4
  | .fps30 => 5

/-- The rate of a rate code; a code above 5 is no rate (R2). -/
def Rate.ofCode : Nat → Option Rate
  | 0 => some .fps23976
  | 1 => some .fps24
  | 2 => some .fps25
  | 3 => some .fps2997drop
  | 4 => some .fps2997
  | 5 => some .fps30
  | _ => none

/-- The base: frames in a label second (R3). -/
def Rate.base : Rate → Nat
  | .fps23976 => 24
  | .fps24 => 24
  | .fps25 => 25
  | .fps2997drop => 30
  | .fps2997 => 30
  | .fps30 => 30

/-- The nominal period in reference counts (00_scope 4.3). -/
def Rate.nominal : Rate → Nat
  | .fps23976 => 1001000
  | .fps24 => 1000000
  | .fps25 => 960000
  | .fps2997drop => 800800
  | .fps2997 => 800800
  | .fps30 => 800000

/-- The frames of a timecode day (R1). -/
def Rate.framesPerDay : Rate → Nat
  | .fps23976 => 2073600
  | .fps24 => 2073600
  | .fps25 => 2160000
  | .fps2997drop => 2589408
  | .fps2997 => 2592000
  | .fps30 => 2592000

/-- The day end DE, the highest position value (R1). -/
def Rate.dayEnd (r : Rate) : Nat := 64 * r.framesPerDay - 1

/-! ## Labels (R3 to R8) -/

/-- The dropped labels of rate code 3 (R3): seconds 0, frames 0 or 1, minutes not a multiple of 10. -/
def Label.isDropped (l : Label) : Bool :=
  l.seconds == 0 && decide (l.frames ≤ 1) && l.minutes % 10 != 0

/-- A label valid at a rate (R3). -/
def Label.isValid (r : Rate) (l : Label) : Bool :=
  decide (l.hours ≤ 23) && decide (l.minutes ≤ 59) && decide (l.seconds ≤ 59) && decide (l.frames < r.base) &&
    !(r == .fps2997drop && l.isDropped)

/-- The frame index of a label (R4; R5 at rate code 3). -/
def Label.frameIndex (r : Rate) (l : Label) : Nat :=
  match r with
  | .fps2997drop =>
    let tm := 60 * l.hours + l.minutes
    108000 * l.hours + 1800 * l.minutes + 30 * l.seconds + l.frames - 2 * (tm - tm / 10)
  | _ => ((l.hours * 60 + l.minutes) * 60 + l.seconds) * r.base + l.frames

/-- The label of a frame index (R6; R7 at rate code 3). -/
def Label.ofFrame (r : Rate) (i : Nat) : Label :=
  match r with
  | .fps2997drop =>
    let d := i / 17982
    let m := i % 17982
    let adj := if m < 2 then 18 * d else 18 * d + 2 * ((m - 2) / 1798)
    let c := i + adj
    { hours := c / 108000, minutes := c / 1800 % 60, seconds := c / 30 % 60, frames := c % 30 }
  | _ =>
    { hours := i / (3600 * r.base), minutes := i / (60 * r.base) % 60, seconds := i / r.base % 60,
      frames := i % r.base }

/-- The frame index one frame on in a direction, round the day (R8). -/
def Rate.stepFrame (r : Rate) (d : Direction) (i : Nat) : Nat :=
  match d with
  | .forward => (i + 1) % r.framesPerDay
  | .reverse => (i + r.framesPerDay - 1) % r.framesPerDay

/-- The label that follows a valid label in a direction (R8). -/
def Label.step (r : Rate) (d : Direction) (l : Label) : Label :=
  Label.ofFrame r (r.stepFrame d (l.frameIndex r))

/-- The label of a position value (R9). -/
def labelOf (r : Rate) (p : Nat) : Label := Label.ofFrame r (p / 64)

/-- The label of a position field. -/
def fieldLabel (f : PositionField) : Label := ⟨f.hours, f.minutes, f.seconds, f.frames⟩

/-- A position field taken at a rate: its position value, or none where it is invalid (R9). -/
def positionValue (r : Rate) (f : PositionField) : Option Nat :=
  if (fieldLabel f).isValid r && decide (f.subframe ≤ 63) then some ((fieldLabel f).frameIndex r * 64 + f.subframe) else none

/-! ## The cue timeline (R11 to R20) -/

/-- The streamer start S (R13). -/
def CueFields.streamerStart (f : CueFields) : Nat := f.inPoint - 64 * f.timing.lead

/-- The start of beep k, absent where the beep is omitted (R14). -/
def CueFields.beepStart (f : CueFields) (k : Nat) : Option Nat :=
  if 64 * k * f.timing.beepSpacing ≤ f.inPoint then some (f.inPoint - 64 * k * f.timing.beepSpacing) else none

/-- Whether a position value lies in the gate interval of a kept beep, k = 1..n (R14, R124). -/
def CueFields.beepGate (f : CueFields) (p : Nat) : Bool :=
  (List.range f.timing.beepCount).any fun k =>
    match f.beepStart (k + 1) with
    | some b => decide (b ≤ p) && decide (p < b + 64 * f.timing.beepLength)
    | none => false

/-- The first sound F (R15): the least of S and the starts of the kept beeps. -/
def CueFields.firstSound (f : CueFields) : Nat :=
  (List.range f.timing.beepCount).foldl
    (fun least k => match f.beepStart (k + 1) with
      | some b => min least b
      | none => least)
    f.streamerStart

/-- The arm point A (R16). -/
def CueFields.armPoint (f : CueFields) : Nat := 64 * ((f.firstSound - 64 * f.timing.preRoll) / 64)

/-- The punch-in point P_in (R17). -/
def CueFields.punchInPoint (f : CueFields) : Nat := f.inPoint - 64 * f.timing.punchIn

/-- The punch-out point P_out, at the reel rate (R17). -/
def CueFields.punchOutPoint (r : Rate) (f : CueFields) : Nat := min (f.outPoint + 64 * f.timing.punchOut) r.dayEnd

/-- The pre-emption point at a guard gap G (R18). -/
def CueFields.preemptionPoint (f : CueFields) (g : Nat) : Nat := f.punchInPoint - (g + (g + 7) / 8)

/-- The phase of a position value below P_out (R19, R118). -/
def CueFields.phaseAt (f : CueFields) (p : Nat) : Phase :=
  if p < f.streamerStart then .armed
  else if p < f.inPoint then .sweep
  else if p < f.outPoint then .speaking
  else .tail

/-- The streamer position x at a position value of the streamer interval (R20). -/
def CueFields.streamerPosition (f : CueFields) (t : Nat) : Nat :=
  min 1023 ((t - f.streamerStart) * 1024 / (f.inPoint - f.streamerStart))

end Sys2Proof.Machine
end

