-- ==== Sys2Proof/Machine/Wire.lean ====
section
/-! DEFINITION. The wire forms of R201 and R202: numbers, absent values, enumerations, statuses, request codes. -/

namespace Sys2Proof.Machine

/-! ## Numbers and lists (R201) -/

/-- A number as one byte. -/
def byte (n : Nat) : Byte := BitVec.ofNat 8 n

/-- A number as two bytes, the most significant first. -/
def bytes2 (n : Nat) : List Byte := [byte (n / 256), byte n]

/-- A number as four bytes, the most significant first. -/
def bytes4 (n : Nat) : List Byte := [byte (n / 16777216), byte (n / 65536), byte (n / 256), byte n]

/-- An absent value of n bytes: every byte 0xFF. -/
def absent (n : Nat) : List Byte := List.replicate n 0xFF

/-- A value of n bytes, or its absence. -/
def orAbsent {α : Type} (n : Nat) (f : α → List Byte) : Option α → List Byte
  | some x => f x
  | none => absent n

/-- A flag: 0 or 1. -/
def flagByte (b : Bool) : Byte := if b then 1 else 0

/-- A list: its count byte, then its items. -/
def listBytes {α : Type} (f : α → List Byte) (l : List α) : List Byte := byte l.length :: l.flatMap f

/-- A cue count, a use count or a gap length in its one byte; the byte for a number above 255 is a FREE VALUE (log 10,
log 14). -/
def countByte (n : Nat) : Byte := if n ≤ 255 then byte n else Config.wideCountByte n

/-- A label without a subframe: hours, minutes, seconds, frames (log 13). -/
def labelBytes (l : Label) : List Byte := [byte l.hours, byte l.minutes, byte l.seconds, byte l.frames]

/-- A position value as a label and a subframe at a rate (R9, R201). -/
def positionBytes (r : Rate) (p : Nat) : List Byte := labelBytes (labelOf r p) ++ [byte (p % 64)]

/-- A suffix: 0x00 when absent, else its letter's code. -/
def suffixByte : Option Nat → Byte
  | some c => byte c
  | none => 0

/-- The number two bytes carry. -/
def number2 (a b : Byte) : Nat := a.toNat * 256 + b.toNat

/-! ## Enumerations (R201: numbered from 0 in the order in which the owning rule first lists the values; log 12) -/

/-- The value of a status (R202). -/
def Status.byte : Status → Byte
  | .ok => 0x00
  | .clamped => 0x01
  | .accepted => 0x02
  | .badRequest => 0x10
  | .badLength => 0x11
  | .unknownHandle => 0x12
  | .unknownReel => 0x13
  | .unknownCharacter => 0x14
  | .badCharacters => 0x15
  | .invalidPosition => 0x16
  | .badSpan => 0x17
  | .duplicateLabel => 0x18
  | .storeFull => 0x19
  | .reelTableFull => 0x1A
  | .reelClosing => 0x1B
  | .reelNotEmpty => 0x1C
  | .cueInFlight => 0x1D
  | .cueBusy => 0x1E
  | .characterInUse => 0x1F
  | .castConflict => 0x20
  | .podiumTaken => 0x21
  | .stageState => 0x22
  | .maintBusy => 0x23

def Enable.code : Enable → Nat
  | .enabled => 0
  | .muted => 1

def Enable.ofCode : Nat → Option Enable
  | 0 => some .enabled
  | 1 => some .muted
  | _ => none

def Approval.code : Approval → Nat
  | .approvalOpen => 0
  | .approvalHold => 1
  | .printed => 2

def Approval.ofCode : Nat → Option Approval
  | 0 => some .approvalOpen
  | 1 => some .approvalHold
  | 2 => some .printed
  | _ => none

def Lock.code : Lock → Nat
  | .unlocked => 0
  | .editing => 1
  | .retiring => 2

def TakeOutcome.code : TakeOutcome → Nat
  | .complete => 0
  | .aborted => 1

def SourceChoice.code : SourceChoice → Nat
  | .choiceA => 0
  | .choiceB => 1
  | .choiceC => 2

def SourceChoice.ofCode : Nat → Option SourceChoice
  | 0 => some .choiceA
  | 1 => some .choiceB
  | 2 => some .choiceC
  | _ => none

def TrackerState.code : TrackerState → Nat
  | .idle => 0
  | .searching => 1
  | .acquiring => 2
  | .locked => 3
  | .freewheel => 4

def directionCode : Direction → Nat
  | .forward => 0
  | .reverse => 1

/-- A runner state (R102); the overlay packet carries the same numbers for 1..5 (R202). -/
def RunnerState.code : RunnerState → Nat
  | .offline => 0
  | .standby => 1
  | .chasing => 2
  | .blanked => 3
  | .hold => 4
  | .halted => 5

def SelectionMode.code : SelectionMode → Nat
  | .manual => 0
  | .auto => 1

def RecordMode.code : RecordMode → Nat
  | .rehearse => 0
  | .record => 1

def RecordMode.ofCode : Nat → Option RecordMode
  | 0 => some .rehearse
  | 1 => some .record
  | _ => none

def Phase.code : Phase → Nat
  | .armed => 0
  | .sweep => 1
  | .speaking => 2
  | .tail => 3

def Punch.code : Punch → Nat
  | .unpunched => 0
  | .waiting => 1
  | .punched => 2

def ResponseMode.code : ResponseMode → Nat
  | .halt => 0
  | .resumeSlow => 1
  | .resumeFast => 2
  | .report => 3
  | .ignore => 4

def ResponseMode.ofCode : Nat → Option ResponseMode
  | 0 => some .halt
  | 1 => some .resumeSlow
  | 2 => some .resumeFast
  | 3 => some .report
  | 4 => some .ignore
  | _ => none

def PathState.code : PathState → Nat
  | .free => 0
  | .talk => 1
  | .protected_ => 2
  | .record => 3
  | .gap => 4

def BankMode.code : BankMode → Nat
  | .dedicated => 0
  | .routed => 1

def BankMode.ofCode : Nat → Option BankMode
  | 0 => some .dedicated
  | 1 => some .routed
  | _ => none

def Drive.code : Drive → Nat
  | .pushPull => 0
  | .openDrain => 1

def Drive.ofCode : Nat → Option Drive
  | 0 => some .pushPull
  | 1 => some .openDrain
  | _ => none

def Polarity.code : Polarity → Nat
  | .normal => 0
  | .inverted => 1

def Polarity.ofCode : Nat → Option Polarity
  | 0 => some .normal
  | 1 => some .inverted
  | _ => none

/-- A counter source (R201). -/
def CounterSource.code : CounterSource → Nat
  | .frames => 0
  | .lockedFrames => 1
  | .speedBand => 2
  | .recordFrames => 3
  | .starvedFrames => 4
  | .runOccupancy => 5
  | .takesComplete => 6
  | .takesAborted => 7
  | .jumps => 8
  | .glitches => 9
  | .rateMismatches => 10

def CounterSource.ofCode : Nat → Option CounterSource
  | 0 => some .frames
  | 1 => some .lockedFrames
  | 2 => some .speedBand
  | 3 => some .recordFrames
  | 4 => some .starvedFrames
  | 5 => some .runOccupancy
  | 6 => some .takesComplete
  | 7 => some .takesAborted
  | 8 => some .jumps
  | 9 => some .glitches
  | 10 => some .rateMismatches
  | _ => none

/-- A phase filter (R181): the four phases, then ANY. -/
def filterCode : PhaseFilter → Nat
  | some p => p.code
  | none => 4

def filterOfCode : Nat → Option PhaseFilter
  | 0 => some (some .armed)
  | 1 => some (some .sweep)
  | 2 => some (some .speaking)
  | 3 => some (some .tail)
  | 4 => some none
  | _ => none

/-- A flag of a request: 0 clear, 1 set, no other value. -/
def flagOfCode : Nat → Option Bool
  | 0 => some false
  | 1 => some true
  | _ => none

/-- A stage number of a request: 0..3. -/
def stageOfNat (n : Nat) : Option (Fin 4) := if h : n < 4 then some ⟨n, h⟩ else none

/-- A podium number of a request: 0..5. -/
def podiumOfNat (n : Nat) : Option (Fin 6) := if h : n < 6 then some ⟨n, h⟩ else none

/-- A line source with its parameters (R163, R164, R169; log 15). -/
def LineSource.bytes : LineSource → List Byte
  | .constantInactive => [0]
  | .constantActive => [1]
  | .record s => [2, Machine.byte s.val]
  | .talkback s => [3, Machine.byte s.val]
  | .beep s => [4, Machine.byte s.val]
  | .streamerActive s => [5, Machine.byte s.val]
  | .armed s => [6, Machine.byte s.val]
  | .anySpeak s => [7, Machine.byte s.val]
  | .stageFault s => [8, Machine.byte s.val]
  | .podiumSpeak s p => [9, Machine.byte s.val, Machine.byte p.val]
  | .podiumStandby s p => [10, Machine.byte s.val, Machine.byte p.val]
  | .podiumBicolour s p => [11, Machine.byte s.val, Machine.byte p.val]
  | .attention => [12]

/-- How many parameter bytes follow a source byte in a LINE_SET; absent for a source outside the table of R163 (R164;
log 15). -/
def sourceParameters (code : Nat) : Option Nat :=
  if 12 < code then none
  else some (if 2 ≤ code && decide (code ≤ 8) then 1 else if 9 ≤ code && decide (code ≤ 11) then 2 else 0)

/-- The line source a LINE_SET names; none for a source outside the table, a stage above 3 or a podium above 5 (R164). -/
def lineSourceOf (f : LineSourceField) : Option LineSource :=
  match f.source with
  | 0 => some .constantInactive
  | 1 => some .constantActive
  | 2 => (stageOfNat f.stage).map .record
  | 3 => (stageOfNat f.stage).map .talkback
  | 4 => (stageOfNat f.stage).map .beep
  | 5 => (stageOfNat f.stage).map .streamerActive
  | 6 => (stageOfNat f.stage).map .armed
  | 7 => (stageOfNat f.stage).map .anySpeak
  | 8 => (stageOfNat f.stage).map .stageFault
  | 9 => (stageOfNat f.stage).bind fun s => (podiumOfNat f.podium).map (.podiumSpeak s)
  | 10 => (stageOfNat f.stage).bind fun s => (podiumOfNat f.podium).map (.podiumStandby s)
  | 11 => (stageOfNat f.stage).bind fun s => (podiumOfNat f.podium).map (.podiumBicolour s)
  | 12 => some .attention
  | _ => none

/-! ## Notices (R153, R201) -/

/-- The place of a stage notice in the table of R153. -/
def StageNotice.place : StageNotice → Nat
  | .dropout => 0
  | .offSpeed => 1
  | .rateMismatch => 2
  | .jumpInCue => 3
  | .cueStarved => 4
  | .latePunch => 5

/-- The stage notice at a place of the table. -/
def StageNotice.ofPlace : Nat → Option StageNotice
  | 0 => some .dropout
  | 1 => some .offSpeed
  | 2 => some .rateMismatch
  | 3 => some .jumpInCue
  | 4 => some .cueStarved
  | 5 => some .latePunch
  | _ => none

/-- The bit of a notice among the 26. -/
def Notice.index : Notice → Fin 26
  | .ofStage s n => ⟨6 * s.val + n.place, by
      have h1 := s.isLt
      have h2 : n.place < 6 := by cases n <;> decide
      omega⟩
  | .linkDropped => 24
  | .reelClosed => 25

/-- The notice a name of the link stands for; none where the scope and the name do not agree (R154, R157). -/
def noticeOfName (n : NoticeName) : Option Notice :=
  if n.scope = 15 then
    match n.place with
    | 6 => some .linkDropped
    | 7 => some .reelClosed
    | _ => none
  else
    (stageOfNat n.scope).bind fun s => (StageNotice.ofPlace n.place).map (.ofStage s)

/-! ## Request codes (section 11.4) -/

namespace Code
def cueCreate : Byte := 0x10
def cueEdit : Byte := 0x11
def cueRetire : Byte := 0x12
def cueRead : Byte := 0x13
def cueMark : Byte := 0x14
def reelOpen : Byte := 0x20
def reelSetDefaults : Byte := 0x21
def reelSetRate : Byte := 0x22
def reelRead : Byte := 0x23
def reelClose : Byte := 0x24
def cueFind : Byte := 0x25
def cueNext : Byte := 0x26
def cueList : Byte := 0x27
def charDefine : Byte := 0x30
def charRetire : Byte := 0x31
def charRead : Byte := 0x32
def castAssign : Byte := 0x33
def castRelease : Byte := 0x34
def castRead : Byte := 0x35
def trackerSet : Byte := 0x40
def trackerRead : Byte := 0x41
def stageEnable : Byte := 0x50
def stageDisable : Byte := 0x51
def stageReset : Byte := 0x52
def stageSelectReel : Byte := 0x53
def stageSet : Byte := 0x54
def stageRead : Byte := 0x55
def talkback : Byte := 0x58
def pathSet : Byte := 0x59
def pathRead : Byte := 0x5A
def faultClear : Byte := 0x60
def faultSet : Byte := 0x61
def faultRead : Byte := 0x62
def noticeRead : Byte := 0x63
def noticeMask : Byte := 0x64
def noticeClear : Byte := 0x65
def lineBankSet : Byte := 0x70
def lineSet : Byte := 0x71
def lineRead : Byte := 0x72
def overlaySet : Byte := 0x73
def overlayRead : Byte := 0x74
def monConfig : Byte := 0x78
def monClear : Byte := 0x79
def monFreeze : Byte := 0x7A
def monSetBands : Byte := 0x7B
def monRead : Byte := 0x7C
def deviceReset : Byte := 0x7F
end Code

/-- The request index (section 11.4). -/
def requestIndex : List Byte :=
  [0x10, 0x11, 0x12, 0x13, 0x14, 0x20, 0x21, 0x22, 0x23, 0x24, 0x25, 0x26, 0x27, 0x30, 0x31, 0x32, 0x33, 0x34, 0x35,
   0x40, 0x41, 0x50, 0x51, 0x52, 0x53, 0x54, 0x55, 0x58, 0x59, 0x5A, 0x60, 0x61, 0x62, 0x63, 0x64, 0x65,
   0x70, 0x71, 0x72, 0x73, 0x74, 0x78, 0x79, 0x7A, 0x7B, 0x7C, 0x7F]

end Sys2Proof.Machine
end

