-- ==== Sys2Proof/Machine/Operands.lean ====
section
/-! DEFINITION. The operand forms: how the payload of each request is read into its named fields (R196, R201). A reader
takes the bytes of one field from the front of the payload; a payload that is too short for its layout, or longer than it,
reads as none and is a BAD_LENGTH. -/

namespace Sys2Proof.Machine

/-! ## Readers of one field (R201) -/

/-- A one-byte number. -/
def read1 : List Byte → Option (Nat × List Byte)
  | a :: rest => some (a.toNat, rest)
  | [] => none

/-- A two-byte number. -/
def read2 : List Byte → Option (Nat × List Byte)
  | a :: b :: rest => some (number2 a b, rest)
  | _ => none

/-- A position field of five bytes. -/
def readPosition : List Byte → Option (PositionField × List Byte)
  | h :: m :: s :: f :: u :: rest => some (⟨h.toNat, m.toNat, s.toNat, f.toNat, u.toNat⟩, rest)
  | _ => none

/-- n items, one after another. -/
def readMany {α : Type} (item : List Byte → Option (α × List Byte)) : Nat → List Byte → Option (List α × List Byte)
  | 0, p => some ([], p)
  | n + 1, p => do
    let (x, p) ← item p
    let (xs, p) ← readMany item n p
    pure (x :: xs, p)

/-- A list: a count byte, then that many items. -/
def readList {α : Type} (item : List Byte → Option (α × List Byte)) (p : List Byte) : Option (List α × List Byte) := do
  let (n, p) ← read1 p
  readMany item n p

/-- One byte as it is. -/
def readByte : List Byte → Option (Byte × List Byte)
  | a :: rest => some (a, rest)
  | [] => none

/-- A notice name of two bytes. -/
def readNotice : List Byte → Option (NoticeName × List Byte)
  | a :: b :: rest => some (⟨a.toNat, b.toNat⟩, rest)
  | _ => none

/-- A line source and the parameters it carries, with so many bytes of the payload after them. A source outside the table
of R163 takes the parameter bytes that the length leaves it, none to two, and so reaches its block (R164, R201; log 15). -/
def readSource (after : Nat) (p : List Byte) : Option (LineSourceField × List Byte) := do
  let (code, p) ← read1 p
  match (sourceParameters code).getD (p.length - after) with
  | 0 => pure (⟨code, 0, 0⟩, p)
  | 1 =>
    let (stage, p) ← read1 p
    pure (⟨code, stage, 0⟩, p)
  | 2 =>
    let (stage, p) ← read1 p
    let (podium, p) ← read1 p
    pure (⟨code, stage, podium⟩, p)
  | _ => none

/-- The k-th field of a selection: read where the presence field marks it as given. -/
def readGiven {α : Type} (mask k : Nat) (item : List Byte → Option (α × List Byte)) (p : List Byte) :
    Option (Option α × List Byte) :=
  if mask.testBit k then (item p).map fun (x, rest) => (some x, rest) else some (none, p)

/-- The seven timing fields of a selection, marked from bit k on. -/
def readTiming (mask k : Nat) (p : List Byte) : Option (TimingFields × List Byte) := do
  let (lead, p) ← readGiven mask k read1 p
  let (beepCount, p) ← readGiven mask (k + 1) read1 p
  let (beepSpacing, p) ← readGiven mask (k + 2) read1 p
  let (beepLength, p) ← readGiven mask (k + 3) read1 p
  let (preRoll, p) ← readGiven mask (k + 4) read1 p
  let (punchIn, p) ← readGiven mask (k + 5) read1 p
  let (punchOut, p) ← readGiven mask (k + 6) read1 p
  pure (⟨lead, beepCount, beepSpacing, beepLength, preRoll, punchIn, punchOut⟩, p)

/-- The end of a payload: nothing may be left of it. -/
def readEnd {α : Type} (x : α) : List Byte → Option α
  | [] => some x
  | _ :: _ => none

/-! ## The layouts of the requests -/

/-- A request of one byte: a stage, a reel number, a character id, a freeze state. -/
def parse1 (p : List Byte) : Option Nat := do
  let (a, p) ← read1 p
  readEnd a p

/-- A request of one handle. -/
def parseHandle (p : List Byte) : Option Nat := do
  let (a, p) ← read2 p
  readEnd a p

/-- A request without fields. -/
def parseNone (p : List Byte) : Option Unit := readEnd () p

/-- CUE_CREATE (R201): presence field, reel, number, suffix, characters, in, out, the given timing fields. -/
def parseCueCreate (p : List Byte) : Option CueCreateFields := do
  let (mask, p) ← read2 p
  let (reel, p) ← read1 p
  let (number, p) ← read2 p
  let (suffix, p) ← read1 p
  let (characters, p) ← readList read1 p
  let (inPos, p) ← readPosition p
  let (outPos, p) ← readPosition p
  let (timing, p) ← readTiming mask 0 p
  readEnd ⟨reel, number, suffix, characters, inPos, outPos, timing⟩ p

/-- CUE_EDIT (R34, R201): presence field, handle, the given fields (log 11). -/
def parseCueEdit (p : List Byte) : Option CueEditFields := do
  let (mask, p) ← read2 p
  let (handle, p) ← read2 p
  let (number, p) ← readGiven mask 0 read2 p
  let (suffix, p) ← readGiven mask 1 read1 p
  let (characters, p) ← readGiven mask 2 (readList read1) p
  let (inPos, p) ← readGiven mask 3 readPosition p
  let (outPos, p) ← readGiven mask 4 readPosition p
  let (timing, p) ← readTiming mask 5 p
  readEnd ⟨handle, number, suffix, characters, inPos, outPos, timing⟩ p

/-- CUE_RETIRE: handle, force flag. -/
def parseRetire (p : List Byte) : Option RetireFields := do
  let (handle, p) ← read2 p
  let (force, p) ← read1 p
  readEnd ⟨handle, force⟩ p

/-- CUE_MARK (R201): presence field, handle, the given values. -/
def parseCueMark (p : List Byte) : Option CueMarkFields := do
  let (mask, p) ← read2 p
  let (handle, p) ← read2 p
  let (enable, p) ← readGiven mask 0 read1 p
  let (approval, p) ← readGiven mask 1 read1 p
  readEnd ⟨handle, enable, approval⟩ p

/-- REEL_OPEN and REEL_SET_RATE: reel number, rate code. -/
def parseReelRate (p : List Byte) : Option ReelRateFields := do
  let (reel, p) ← read1 p
  let (rate, p) ← read1 p
  readEnd ⟨reel, rate⟩ p

/-- REEL_SET_DEFAULTS: presence field, reel number, the given defaults (log 11). -/
def parseReelDefaults (p : List Byte) : Option ReelDefaultsFields := do
  let (mask, p) ← read2 p
  let (reel, p) ← read1 p
  let (timing, p) ← readTiming mask 0 p
  readEnd ⟨reel, timing⟩ p

/-- CUE_FIND: reel number, cue number, suffix. -/
def parseCueFind (p : List Byte) : Option CueFindFields := do
  let (reel, p) ← read1 p
  let (number, p) ← read2 p
  let (suffix, p) ← read1 p
  readEnd ⟨reel, number, suffix⟩ p

/-- CUE_NEXT: reel number, position. -/
def parseCueNext (p : List Byte) : Option CueNextFields := do
  let (reel, p) ← read1 p
  let (position, p) ← readPosition p
  readEnd ⟨reel, position⟩ p

/-- CUE_LIST: reel number, start index, count. -/
def parseCueList (p : List Byte) : Option CueListFields := do
  let (reel, p) ← read1 p
  let (start, p) ← read2 p
  let (count, p) ← read1 p
  readEnd ⟨reel, start, count⟩ p

/-- CHAR_DEFINE: character id, name. -/
def parseCharDefine (p : List Byte) : Option CharDefineFields := do
  let (character, p) ← read1 p
  let (name, p) ← readList readByte p
  readEnd ⟨character, name⟩ p

/-- CAST_ASSIGN: character id, stage, podium, move flag. -/
def parseCastAssign (p : List Byte) : Option CastAssignFields := do
  let (character, p) ← read1 p
  let (stage, p) ← read1 p
  let (podium, p) ← read1 p
  let (move, p) ← read1 p
  readEnd ⟨character, stage, podium, move⟩ p

/-- TRACKER_SET: presence field, stage, the given settings (log 11). -/
def parseTrackerSet (p : List Byte) : Option TrackerSetFields := do
  let (mask, p) ← read2 p
  let (stage, p) ← read1 p
  let (source, p) ← readGiven mask 0 read1 p
  let (rate, p) ← readGiven mask 1 read1 p
  let (lockCount, p) ← readGiven mask 2 read1 p
  let (jumpConfirm, p) ← readGiven mask 3 read1 p
  let (freewheelLimit, p) ← readGiven mask 4 read1 p
  readEnd ⟨stage, source, rate, lockCount, jumpConfirm, freewheelLimit⟩ p

/-- STAGE_SELECT_REEL (R201): stage, choice byte, reel number byte. -/
def parseSelectReel (p : List Byte) : Option SelectReelFields := do
  let (stage, p) ← read1 p
  let (choice, p) ← read1 p
  let (reel, p) ← read1 p
  readEnd ⟨stage, choice, reel⟩ p

/-- STAGE_SET: presence field, stage, the given settings (log 11). -/
def parseStageSet (p : List Byte) : Option StageSetFields := do
  let (mask, p) ← read2 p
  let (stage, p) ← read1 p
  let (recordMode, p) ← readGiven mask 0 read1 p
  let (skipPrinted, p) ← readGiven mask 1 read1 p
  let (blankingLength, p) ← readGiven mask 2 read1 p
  readEnd ⟨stage, recordMode, skipPrinted, blankingLength⟩ p

/-- TALKBACK, PATH_SET, OVERLAY_SET: stage, value. -/
def parseStageValue (p : List Byte) : Option StageValueFields := do
  let (stage, p) ← read1 p
  let (value, p) ← read1 p
  readEnd ⟨stage, value⟩ p

/-- FAULT_SET: presence field, stage, the given modes (log 11). -/
def parseFaultSet (p : List Byte) : Option FaultSetFields := do
  let (mask, p) ← read2 p
  let (stage, p) ← read1 p
  let (dropout, p) ← readGiven mask 0 read1 p
  let (offSpeed, p) ← readGiven mask 1 read1 p
  let (rateMismatch, p) ← readGiven mask 2 read1 p
  let (jumpInCue, p) ← readGiven mask 3 read1 p
  readEnd ⟨stage, dropout, offSpeed, rateMismatch, jumpInCue⟩ p

/-- NOTICE_MASK: the list of notices, with a count byte (log 38), then the value. -/
def parseNoticeMask (p : List Byte) : Option NoticeMaskFields := do
  let (notices, p) ← readList readNotice p
  let (value, p) ← read1 p
  readEnd ⟨notices, value⟩ p

/-- NOTICE_CLEAR: the list of notices, with a count byte (log 38). -/
def parseNotices (p : List Byte) : Option (List NoticeName) := do
  let (notices, p) ← readList readNotice p
  readEnd notices p

/-- LINE_BANK_SET: bank, mode, stage. -/
def parseBankSet (p : List Byte) : Option BankSetFields := do
  let (bank, p) ← read1 p
  let (mode, p) ← read1 p
  let (stage, p) ← read1 p
  readEnd ⟨bank, mode, stage⟩ p

/-- LINE_SET: presence field, line, the given settings (log 11, log 15). -/
def parseLineSet (p : List Byte) : Option LineSetFields := do
  let (mask, p) ← read2 p
  let (line, p) ← read1 p
  let (source, p) ← readGiven mask 0 (readSource ((mask.testBit 1).toNat + (mask.testBit 2).toNat)) p
  let (drive, p) ← readGiven mask 1 read1 p
  let (polarity, p) ← readGiven mask 2 read1 p
  readEnd ⟨line, source, drive, polarity⟩ p

/-- MON_CONFIG: the counter and its whole configuration. -/
def parseMonConfig (p : List Byte) : Option MonConfigFields := do
  let (counter, p) ← read1 p
  let (enable, p) ← read1 p
  let (stage, p) ← read1 p
  let (source, p) ← read1 p
  let (band, p) ← read1 p
  let (filter, p) ← read1 p
  let (threshold, p) ← read1 p
  let (invert, p) ← read1 p
  let (edge, p) ← read1 p
  readEnd ⟨counter, enable, stage, source, band, filter, threshold, invert, edge⟩ p

/-- MON_CLEAR: the list of counters, with a count byte (log 38). -/
def parseCounters (p : List Byte) : Option (List Nat) := do
  let (counters, p) ← readList read1 p
  readEnd counters p

/-- MON_SET_BANDS: presence field, the given bounds, as pairs of a band and its bound. -/
def parseBands (p : List Byte) : Option (List (Nat × Nat)) := do
  let (mask, p) ← read2 p
  let (b0, p) ← readGiven mask 0 read2 p
  let (b1, p) ← readGiven mask 1 read2 p
  let (b2, p) ← readGiven mask 2 read2 p
  let (b3, p) ← readGiven mask 3 read2 p
  readEnd ((b0.map fun b => (0, b)).toList ++ (b1.map fun b => (1, b)).toList ++ (b2.map fun b => (2, b)).toList ++
    (b3.map fun b => (3, b)).toList) p

/-! ## The checks of a window at its handover (R196) -/

/-- Whether the presence field of a payload marks a field the request does not have (R196, step 2). `fieldCount` is the
number of fields the presence field of the request may mark, absent where the request has no presence field. -/
def presenceBad (fieldCount : Option Nat) (payload : List Byte) : Bool :=
  match fieldCount, read2 payload with
  | some n, some (mask, _) => decide (2 ^ n ≤ mask)
  | _, _ => false

/-- The checks of a window of a known code (R196, steps 2 and 3): how many bytes were received, and those of them that
stand after the code. A window of one byte has no declared length and is a BAD_LENGTH. The presence field is looked for in
the bytes received, whatever length is declared (log 37). -/
def checkWindow {α : Type} (fieldCount : Option Nat) (parse : List Byte → Option α) (received : Nat) :
    List Byte → Except Status α
  | [] => .error .badLength
  | declared :: payload =>
    if presenceBad fieldCount payload then .error .badRequest
    else if 250 < declared.toNat || received != 2 + declared.toNat then .error .badLength
    else match parse payload with
      | some x => .ok x
      | none => .error .badLength

/-- The fields of a request at handover, or the status that refuses it (R196). -/
def readRequest {α : Type} (fieldCount : Option Nat) (parse : List Byte → Option α) : Request α → Except Status α
  | .fields x => .ok x
  | .window bytes => checkWindow fieldCount parse (1 + bytes.length) bytes

end Sys2Proof.Machine
end

