-- ==== Sys2Proof/Machine/Ops.lean ====
section
/-! DEFINITION. The named operations over the stores and the stages: tables sorted by slot, cue records, notices,
counters, take reports, and the choice of an order the manual leaves open. -/

namespace Sys2Proof.Machine

/-! ## Tables: slots by number, an absent number being a free slot -/

/-- The entry of a slot. -/
def Table.find {α : Type} (k : Nat) : List (Nat × α) → Option α
  | [] => none
  | (j, v) :: t => if j = k then some v else Table.find k t

/-- Puts an entry into its slot, in place of the one it held. -/
def Table.put {α : Type} (k : Nat) (v : α) : List (Nat × α) → List (Nat × α)
  | [] => [(k, v)]
  | (j, w) :: t => if k < j then (k, v) :: (j, w) :: t else if j = k then (k, v) :: t else (j, w) :: Table.put k v t

/-- Frees a slot. -/
def Table.erase {α : Type} (k : Nat) (t : List (Nat × α)) : List (Nat × α) := t.filter fun e => e.1 != k

/-- Changes the entry of a slot that holds one; a free slot stays free. -/
def Table.modify {α : Type} (k : Nat) (g : α → α) (t : List (Nat × α)) : List (Nat × α) :=
  t.map fun e => if e.1 = k then (e.1, g e.2) else e

/-- The canonical form: slot numbers strictly rising, and below the number of slots. -/
abbrev Table.WF {α : Type} (size : Nat) (t : List (Nat × α)) : Prop :=
  t.Pairwise (fun a b => a.1 < b.1) ∧ ∀ e ∈ t, e.1 < size

/-- The lowest free slot at or above n. -/
def Table.lowestFreeFrom {α : Type} (n : Nat) : List (Nat × α) → Nat
  | [] => n
  | (j, _) :: t => if j = n then Table.lowestFreeFrom (n + 1) t else n

/-- The lowest free slot (R32). -/
def Table.lowestFree {α : Type} (t : List (Nat × α)) : Nat := Table.lowestFreeFrom 0 t

/-! ## Stages -/

/-- The blocks of a stage. -/
def Floor.stage (f : Floor) (i : Fin 4) : Stage := f.stages[i]

/-- Changes one stage. -/
def Floor.modStage (f : Floor) (i : Fin 4) (g : Stage → Stage) : Floor :=
  { f with stages := f.stages.set i (g f.stages[i]) }

def Floor.modTracker (f : Floor) (i : Fin 4) (g : Tracker → Tracker) : Floor :=
  f.modStage i fun s => { s with tracker := g s.tracker }

def Floor.modRunner (f : Floor) (i : Fin 4) (g : Runner → Runner) : Floor :=
  f.modStage i fun s => { s with runner := g s.runner }

def Floor.modPath (f : Floor) (i : Fin 4) (g : Path → Path) : Floor :=
  f.modStage i fun s => { s with path := g s.path }

def Floor.modOverlay (f : Floor) (i : Fin 4) (g : Overlay → Overlay) : Floor :=
  f.modStage i fun s => { s with overlay := g s.overlay }

def Floor.modFaults (f : Floor) (i : Fin 4) (g : FaultModes → FaultModes) : Floor :=
  f.modStage i fun s => { s with faults := g s.faults }

/-- The tracker, the runner, the path and the transmitter of a stage. -/
def Floor.tracker (f : Floor) (i : Fin 4) : Tracker := (f.stage i).tracker
def Floor.runner (f : Floor) (i : Fin 4) : Runner := (f.stage i).runner
def Floor.path (f : Floor) (i : Fin 4) : Path := (f.stage i).path
def Floor.overlay (f : Floor) (i : Fin 4) : Overlay := (f.stage i).overlay
def Floor.faults (f : Floor) (i : Fin 4) : FaultModes := (f.stage i).faults

/-! ## The reference counter (R78) -/

/-- Carries the reference counter to the count of an event; the counter never goes back (log 3). -/
def Floor.atCount (f : Floor) (count : Nat) : Floor := { f with now := max f.now count }

/-! ## The stores -/

/-- A live cue (R21). -/
def Floor.cue (f : Floor) (handle : Nat) : Option Cue := Table.find handle f.cues

/-- Changes a live cue; a free handle stays free. -/
def Floor.modCue (f : Floor) (handle : Nat) (g : Cue → Cue) : Floor :=
  { f with cues := Table.modify handle g f.cues }

/-- The reel in a slot (R46). -/
def Floor.reel (f : Floor) (slot : Nat) : Option Reel := Table.find slot f.reels

/-- Changes the reel in a slot that holds one. -/
def Floor.modReel (f : Floor) (slot : Nat) (g : Reel → Reel) : Floor :=
  { f with reels := Table.modify slot g f.reels }

/-- The rate of the reel in a slot; for a slot that holds none, which no live cue names, rate code 1 (log 25). -/
def Floor.reelRate (f : Floor) (slot : Nat) : Rate :=
  match f.reel slot with
  | some r => r.rate
  | none => .fps24

/-- The punch-out point of a cue, at the rate of its reel (R11, R17). -/
def Floor.punchOut (f : Floor) (c : Cue) : Nat := c.fields.punchOutPoint (f.reelRate c.reel)

/-- The slot that holds a reel number (R46). -/
def Floor.reelSlot (f : Floor) (number : Nat) : Option Nat :=
  (f.reels.find? fun e => e.2.number == number).map (·.1)

/-- The resolution of a reel number in a request (R47): the slot and the record. -/
def Floor.resolveReel (f : Floor) (number : Nat) : Except Status (Nat × Reel) :=
  match f.reels.find? fun e => e.2.number == number with
  | none => .error .unknownReel
  | some (slot, r) => if r.state = .reelClosing then .error .reelClosing else .ok (slot, r)

/-- The resolution of a handle in a request (R21, R47): a free handle is unknown, a cue of a CLOSING reel refused. -/
def Floor.resolveCue (f : Floor) (handle : Nat) : Except Status Cue :=
  match f.cue handle with
  | none => .error .unknownHandle
  | some c =>
    match f.reel c.reel with
    | some r => if r.state = .reelClosing then .error .reelClosing else .ok c
    | none => .ok c

/-- A DEFINED character (R63). -/
def Floor.character (f : Floor) (id : Nat) : Option Character := Table.find id f.chars

/-- The podium of a stage that holds a character. -/
def Podiums.place (p : Podiums) (id : Nat) : Option (Fin 6) :=
  (List.finRange 6).find? fun k => p[k] == some id

/-- The cast place of a character: the one podium of the cast map that names it (R63, R69). -/
def Floor.castPlace (f : Floor) (id : Nat) : Option (Fin 4 × Fin 6) :=
  (List.finRange 4).findSome? fun i => (f.casts[i].place id).map fun k => (i, k)

/-- Sets one podium of the cast map (R69). -/
def Floor.setPodium (f : Floor) (i : Fin 4) (k : Fin 6) (x : Option Nat) : Floor :=
  { f with casts := f.casts.set i (f.casts[i].set k x) }

/-- Adds to the use count of each character of a list (R66). -/
def Floor.raiseUse (f : Floor) (ids : List Nat) : Floor :=
  { f with chars := ids.foldl (fun t id => Table.modify id (fun c => { c with useCount := c.useCount + 1 }) t) f.chars }

/-- Takes from the use count of each character of a list (R66). -/
def Floor.lowerUse (f : Floor) (ids : List Nat) : Floor :=
  { f with chars := ids.foldl (fun t id => Table.modify id (fun c => { c with useCount := c.useCount - 1 }) t) f.chars }

/-! ## Cue order (R52) -/

/-- The suffix as it orders: absent before A (R52). -/
def suffixOrder : Option Nat → Nat
  | none => 0
  | some c => c

/-- Whether a cue comes before another one in the order of R52: in-point, then number, then suffix. -/
def CueFields.before (a b : CueFields) : Bool :=
  decide (a.inPoint < b.inPoint) ||
    (a.inPoint == b.inPoint && (decide (a.number < b.number) ||
      (a.number == b.number && decide (suffixOrder a.suffix < suffixOrder b.suffix))))

/-- Inserts a handle into an order list, at the index equal to the number of cues that come before it (R53). -/
def Floor.insertInOrder (f : Floor) (handle : Nat) (fields : CueFields) (order : List Nat) : List Nat :=
  let k := (order.filter fun h => match f.cue h with
    | some c => c.fields.before fields
    | none => false).length
  order.take k ++ handle :: order.drop k

/-! ## Notices (R153) -/

/-- Sets a notice; a notice set already stays set (R153). -/
def Floor.setNotice (f : Floor) (n : Notice) : Floor := { f with notices := f.notices.set n.index true }

/-- Clears a notice (R157). -/
def Floor.clearNotice (f : Floor) (n : Notice) : Floor := { f with notices := f.notices.set n.index false }

/-! ## Counters (R186, R187) -/

/-- Adds to a counter value, saturating (R187). -/
def Counter.add (n : Nat) (c : Counter) : Counter := { c with value := min (c.value + n) Config.counterMax }

/-- Changes every counter. -/
def Floor.modCounters (f : Floor) (g : Counter → Counter) : Floor :=
  { f with monitor := { f.monitor with counters := f.monitor.counters.map g } }

/-- An occurrence of a source on a stage reaches the monitor unit (R186). -/
def Floor.countOccurrence (f : Floor) (i : Fin 4) (source : CounterSource) : Floor :=
  f.modCounters fun c =>
    if c.stage = i && c.source = source && c.enabled && !f.monitor.frozen then c.add 1 else c

/-! ## Takes (R41) -/

/-- A take report reaches the cue store, and the monitor unit counts it (R41, R126, R186). -/
def Floor.takeReport (f : Floor) (handle : Nat) (take : Take) : Floor :=
  let f := f.modCue handle fun c =>
    { c with takeCount := min (c.takeCount + 1) Config.takeCountMax, lastTake := some take }
  f.countOccurrence take.stage (match take.outcome with
    | .complete => .takesComplete
    | .aborted => .takesAborted)

/-! ## Orders the manual leaves open (R42; log 5) -/

/-- Puts an item at a place of a list. -/
def insertAt {α : Type} (x : α) : Nat → List α → List α
  | _, [] => [x]
  | 0, y :: l => x :: y :: l
  | k + 1, y :: l => y :: insertAt x k l

/-- The order of a list that a number stands for; every order has a number. -/
def orderOf {α : Type} : Nat → List α → List α
  | _, [] => []
  | n, x :: l => insertAt x (n % (l.length + 1)) (orderOf (n / (l.length + 1)) l)

/-- A list in an order the manual leaves open: a FREE VALUE decides among the orders of two or more items. -/
def Floor.openOrder {α : Type} (f : Floor) (l : List α) : List α :=
  match l with
  | [] => []
  | [x] => [x]
  | l => orderOf (Config.freeOrder f.draws) l

/-- Moves on to the next free order once one was used for a list. -/
def Floor.drawn {α : Type} (f : Floor) (l : List α) : Floor :=
  match l with
  | [] => f
  | [_] => f
  | _ => { f with draws := f.draws + 1 }

/-- Applies a change for each item of a list, in an order the manual leaves open. -/
def Floor.forEachOpen {α : Type} (f : Floor) (l : List α) (g : α → Floor → Floor) : Floor :=
  (f.openOrder l).foldl (fun f x => g x f) (f.drawn l)

end Sys2Proof.Machine
end

