-- ==== Sys2Proof/Machine/Flags.lean ====
section
/-! DEFINITION. Everything the part works out from its registers as they stand: run demands, gates, lamps, the blink, the
attention state, RDY. None of these has a register of its own (R124, R125, R134, R155, R166, R167; log 24). -/

namespace Sys2Proof.Machine

/-! ## Gates and runner outputs (R124, R125, R132) -/

/-- The record gate (R132). -/
def Floor.recordGate (f : Floor) (i : Fin 4) : Bool := (f.path i).state == .record

/-- The talkback gate (R132). -/
def Floor.talkbackGate (f : Floor) (i : Fin 4) : Bool := (f.path i).state == .talk

/-- Talkback pending (R131). -/
def Floor.talkbackPending (f : Floor) (i : Fin 4) : Bool := (f.path i).talkWanted && !f.talkbackGate i

/-- The beep gate (R124). -/
def Floor.beepGate (f : Floor) (i : Fin 4) : Bool :=
  (f.runner i).runs.any fun r => match f.cue r.handle with
    | some c => c.fields.beepGate (f.tracker i).position
    | none => false

/-- Streamer-active (R124). -/
def Floor.streamerActive (f : Floor) (i : Fin 4) : Bool := (f.runner i).runs.any fun r => r.phase == .sweep

/-- Armed (R124). -/
def Floor.armedOutput (f : Floor) (i : Fin 4) : Bool := (f.runner i).runs.any fun r => r.phase == .armed

/-- The record request (R124). -/
def Floor.recordRequest (f : Floor) (i : Fin 4) : Bool := (f.runner i).runs.any fun r => r.punch != .unpunched

/-- A lamp state (R125). -/
inductive Lamp where
  | speak
  | standby
  | off
  deriving DecidableEq, Repr

/-- Whether a run's cue lists a character. -/
def Floor.runLists (f : Floor) (r : Run) (id : Nat) : Bool :=
  match f.cue r.handle with
  | some c => c.fields.characters.contains id
  | none => false

/-- The lamp state of a podium (R125): SPEAK over STANDBY over OFF, from the character the working cast holds there. -/
def Floor.lamp (f : Floor) (i : Fin 4) (k : Fin 6) : Lamp :=
  match (f.runner i).workingCast[k] with
  | none => .off
  | some id =>
    if (f.runner i).runs.any fun r => f.runLists r id && r.phase == .speaking then .speak
    else if (f.runner i).runs.any fun r => f.runLists r id && r.phase == .sweep then .standby
    else .off

/-- Any-speak (R125). -/
def Floor.anySpeak (f : Floor) (i : Fin 4) : Bool := (List.finRange 6).any fun k => f.lamp i k == .speak

/-- Stage fault (R125). -/
def Floor.stageFault (f : Floor) (i : Fin 4) : Bool :=
  (f.runner i).state == .hold || (f.runner i).state == .halted

/-- The lamp state as a response carries it (R125, R130). -/
def Lamp.code : Lamp → Nat
  | .speak => 0
  | .standby => 1
  | .off => 2

/-! ## Protection demand (R134) -/

/-- Whether a run demands protection on a stage in RECORD mode (R134). DESIGN CHOICE (log 41): a run that a jump keeps
before its P_in goes by its position, also where its P_in was reached before the jump, in REHEARSE, or in RECORD as a claim
that the jump or a change of mode withdrew. -/
def Floor.runDemands (f : Floor) (i : Fin 4) (r : Run) : Bool :=
  match r.punch with
  | .waiting => true
  | .punched => true
  | .unpunched =>
    match f.cue r.handle with
    | some c =>
      decide (c.fields.preemptionPoint (f.path i).guardGap ≤ (f.tracker i).position) &&
        decide ((f.tracker i).position < c.fields.punchInPoint)
    | none => false

/-- Protection demand, worked out from the runs as they stand (R134). -/
def Floor.demandNow (f : Floor) (i : Fin 4) : Bool :=
  (f.runner i).recordMode == .record && (f.runner i).runs.any (f.runDemands i)

/-! ## Chasing (R103, R111) -/

/-- The selected reel of a stage, where its slot is OPEN. -/
def Floor.selectedOpenReel (f : Floor) (i : Fin 4) : Option Reel :=
  match (f.runner i).selected with
  | none => none
  | some slot =>
    match f.reel slot with
    | some r => if r.state = .reelOpened then some r else none
    | none => none

/-- The selected OPEN reel and the tracker disagree in rate (R111). -/
def Floor.ratesDisagree (f : Floor) (i : Fin 4) : Bool :=
  match f.selectedOpenReel i with
  | some r => r.rate != (f.tracker i).rate
  | none => false

/-- The chase conditions (R103). -/
def Floor.chaseConditions (f : Floor) (i : Fin 4) : Bool :=
  (f.tracker i).state == .locked && (f.tracker i).direction == .forward &&
    (f.selectedOpenReel i).isSome && !f.ratesDisagree i

/-- Whether a runner holds runs in its state: CHASING or BLANKED (R103). -/
def RunnerState.working : RunnerState → Bool
  | .chasing => true
  | .blanked => true
  | _ => false

/-- A healthy boundary (R149). -/
def Floor.healthy (f : Floor) (i : Fin 4) : Bool :=
  (f.tracker i).state == .locked && (f.tracker i).direction == .forward && (f.tracker i).inSpeed &&
    !f.ratesDisagree i

/-! ## Tracker values -/

/-- The period estimate E (R81). -/
def Tracker.estimate (t : Tracker) : Nat := t.e8 / 8

/-- The blink of a stage (R166): on while the frames digit of the position's label is below half the base. -/
def Floor.blink (f : Floor) (i : Fin 4) : Bool :=
  let t := f.tracker i
  decide (2 * (labelOf t.rate t.position).frames < t.rate.base)

/-- The pending indication of a stage's cast (R73). -/
def Floor.castPending (f : Floor) (i : Fin 4) : Bool := (f.runner i).workingCast != f.casts[i]

/-! ## Attention and RDY (R155, R193) -/

/-- Whether ATTN is pulled low: a notice set with its mask bit set (R155). -/
def Floor.attention (f : Floor) : Bool := (List.finRange 26).any fun k => f.notices[k] && f.mask[k]

/-- RDY, high while a response waits (R193). -/
def State.rdy (s : State) : Bool := s.link.state == .ready

/-- Whether a stage's notice is set. -/
def Floor.noticeSet (f : Floor) (n : Notice) : Bool := f.notices[n.index]

end Sys2Proof.Machine
end

