-- ==== Sys2Proof/Machine/PathOps.lean ====
section
/-! DEFINITION. What the interlock of a stage does when its runs, its gap or the host's talkback change (R133 to R140). -/

namespace Sys2Proof.Machine

/-- The length of a guard gap in reference counts, from the stage's guard gap and tracker rate as they stand (R133). -/
def Floor.gapLength (f : Floor) (i : Fin 4) : Nat := (f.path i).guardGap * (f.tracker i).rate.nominal / 64

/-- A gate is released: its guard gap starts; a gap of length 0 is none (R133). -/
def Floor.startGap (f : Floor) (i : Fin 4) : Floor :=
  if f.gapLength i = 0 then f else f.modPath i fun p => { p with gapExpiry := some (f.now + f.gapLength i) }

/-- The punched-at of a WAITING run at a grant with the stage at a position: that position, or the position of its claim
where the claim was made on the very count of a late grant (R136). -/
def Run.punchPosition (late : Option Nat) (at_ : Nat) (x : Run) : Nat :=
  match x.claim with
  | some c => if late = some c.count then c.position else at_
  | none => at_

/-- A run at a grant: one that is WAITING becomes PUNCHED (R120, R136). A late grant notes its count (log 36). -/
def Run.granted (late : Option Nat) (at_ : Nat) (x : Run) : Run :=
  if x.punch = .waiting then
    { x with punch := .punched, punchedAt := some (x.punchPosition late at_), claim := none, lateGrant := late }
  else x

/-- The record gate is asserted, and every WAITING run is PUNCHED (R120, R136). A late grant carries its count. -/
def Floor.grant (f : Floor) (i : Fin 4) (late : Option Nat) : Floor :=
  let f := f.modPath i fun p => { p with state := .record }
  let at_ := (f.tracker i).position
  f.modRunner i fun r => { r with runs := r.runs.map (Run.granted late at_) }

/-- Where a path goes when neither gate is asserted and no run demands protection: GAP while a gap runs, else TALK
with the talkback gate asserted where talkback is wanted, else FREE (R137). -/
def Path.rest (p : Path) : PathState :=
  if p.gapExpiry.isSome then .gap else if p.talkWanted then .talk else .free

/-- Protection demand arises in a state that does not hold it (R135). -/
def Floor.raiseDemand (f : Floor) (i : Fin 4) : Floor :=
  let f := if (f.path i).state = .talk then f.startGap i else f
  f.modPath i fun p => { p with state := .protected_, demand := true }

/-- The record request is released in RECORD: the record gate is released and a gap starts (R137). -/
def Floor.releaseRecord (f : Floor) (i : Fin 4) (demand : Bool) : Floor :=
  let f := f.startGap i
  f.modPath i fun p => { p with state := if demand then .protected_ else p.rest, demand := demand }

/-- The path takes the runs, the record mode, the position and the guard gap of its stage as they stand after an event
(R134): protection demand arises (R135) or ends (R137), a release of the record request is taken (R137), and a claim that
finds no gap running is granted at once (R136). -/
def Floor.settlePath (f : Floor) (i : Fin 4) : Floor :=
  let demand := f.demandNow i
  let request := f.recordRequest i
  match (f.path i).state with
  | .record => if request then f.modPath i fun p => { p with demand := demand } else f.releaseRecord i demand
  | .protected_ =>
    if demand then
      if request && (f.path i).gapExpiry.isNone then f.grant i none else f
    else f.modPath i fun p => { p with state := p.rest, demand := false }
  | _ =>
    if demand then
      let f := f.raiseDemand i
      if request && (f.path i).gapExpiry.isNone then f.grant i none else f
    else f

/-- A gap ends (R138): pending talkback is asserted from GAP, a waiting record request is granted late with LATE_PUNCH
set from PROTECTED (R136). -/
def Floor.endGap (f : Floor) (i : Fin 4) : Floor :=
  let f := f.modPath i fun p => { p with gapExpiry := none }
  match (f.path i).state with
  | .gap => f.modPath i fun p => { p with state := p.rest }
  | .protected_ => if f.recordRequest i then (f.grant i (some f.now)).setNotice (.ofStage i .latePunch) else f
  | _ => f

/-- TALKBACK "on" (R139). -/
def Floor.talkbackOn (f : Floor) (i : Fin 4) : Floor :=
  f.modPath i fun p => { p with talkWanted := true, state := if p.state = .free then .talk else p.state }

/-- TALKBACK "off" (R139): from TALK the gate is released and a gap starts. -/
def Floor.talkbackOff (f : Floor) (i : Fin 4) : Floor :=
  let f := f.modPath i fun p => { p with talkWanted := false }
  if (f.path i).state = .talk then
    let f := f.startGap i
    f.modPath i fun p => { p with state := p.rest }
  else f

/-- The path becomes FREE at once, with no guard gap (R143). -/
def Floor.freePath (f : Floor) (i : Fin 4) : Floor :=
  f.modPath i fun p => { p with state := .free, talkWanted := false, gapExpiry := none, demand := false }

end Sys2Proof.Machine
end

