-- ==== Sys2Proof/Machine/OverlayOps.lean ====
section
/-! DEFINITION. The overlay transmitters: composing a packet (R172 to R176, R202), sending it (R177), and the level of
the overlay line (R170). -/

namespace Sys2Proof.Machine

/-- A character of an entry (R202): bits 0..5 the id, bit 7 set when the working cast holds it (R176). -/
def characterByte (cast : Podiums) (id : Nat) : Byte :=
  byte (id % 64 + if (cast.place id).isSome then 128 else 0)

/-- A run is in a packet of position value v when A ≤ v < P_out (R174). -/
def Floor.runInPacket (f : Floor) (v : Nat) (r : Run) : Option (Run × Cue) :=
  match f.cue r.handle with
  | some c => if c.fields.armPoint ≤ v && decide (v < f.punchOut c) then some (r, c) else none
  | none => none

/-- The flash flag of a run's entry (R175). -/
def flashFlag (marks : List Nat) (v : Nat) (r : Run) (c : Cue) : Bool :=
  decide (c.fields.inPoint ≤ v) && !marks.contains r.handle

/-- The bytes of an entry (R174, R202). -/
def entryBytes (cast : Podiums) (marks : List Nat) (v : Nat) (r : Run) (c : Cue) : List Byte :=
  let phase := c.fields.phaseAt v
  let flags := (if r.punch = .punched then 1 else 0) + (if flashFlag marks v r c then 2 else 0)
  bytes2 c.fields.number ++ [suffixByte c.fields.suffix, byte phase.code, byte flags] ++
    (if phase = .sweep then bytes2 (c.fields.streamerPosition v) else []) ++
    listBytes (fun id => [characterByte cast id]) c.fields.characters

/-- The check byte (R202): with it, the bytes from offset 1 on sum to 0 modulo 256. -/
def checkByte (bytes : List Byte) : Byte := 0 - bytes.sum

/-- The packet of frame n of a stage as it stands (R173, R174, R202). -/
def Floor.composePacket (f : Floor) (i : Fin 4) (n : Nat) : Packet :=
  let t := f.tracker i
  let r := f.runner i
  let marks := (f.overlay i).flashMarks
  let v := 64 * n + (f.overlay i).phase
  let entries := r.runs.filterMap (f.runInPacket v)
  let body := [byte i.val, byte t.rate.code] ++ labelBytes (Label.ofFrame t.rate n) ++ bytes2 t.speed ++
    [byte r.state.code, byte entries.length] ++
    entries.flatMap fun e => entryBytes r.workingCast marks v e.1 e.2
  let counted := byte (body.length + 1) :: body
  { bytes := 0xC7 :: counted ++ [checkByte counted]
    flash := (entries.filter fun e => flashFlag marks v e.1 e.2).map fun e => e.1.handle }

/-- A packet begins to be sent (R177); the handles of its flash flags are added to the flash marks (R175). DESIGN CHOICE
(log 19): they are added whatever became of their runs while the packet was pending, also where a jump kept the run or its
cue was armed again since. -/
def Overlay.start (now : Nat) (p : Packet) (o : Overlay) : Overlay :=
  { o with
    inProgress := some { bytes := p.bytes, start := now }
    flashMarks := o.flashMarks ++ (p.flash.filter fun h => !o.flashMarks.contains h) }

/-- A composed packet starts at once when the transmitter is IDLE, else it becomes the pending packet (R177). -/
def Overlay.take (now : Nat) (p : Packet) (o : Overlay) : Overlay :=
  if o.inProgress.isNone then o.start now p else { o with waiting := some p }

/-- The packet point of a frame is reached (R172): a packet is composed unless the last frame sent holds the frame. -/
def Floor.packetPoint (f : Floor) (i : Fin 4) (t : Nat) : Floor :=
  let o := f.overlay i
  if t % 64 = o.phase && o.lastFrame != some (t / 64) then
    let p := f.composePacket i (t / 64)
    f.modOverlay i fun o => { o with lastFrame := some (t / 64) }.take f.now p
  else f

/-- The count at which the last stop bit of a packet ends: 120 counts a byte (R170). -/
def Sending.endCount (s : Sending) : Nat := s.start + 120 * s.bytes.length

/-- The packet in progress ends (R177): the pending packet follows at once, or the transmitter goes IDLE. -/
def Overlay.finish (now : Nat) (o : Overlay) : Overlay :=
  match o.waiting with
  | some p => { o with waiting := none }.start now p
  | none => { o with inProgress := none }

/-- The last frame sent becomes absent (R172). -/
def Floor.forgetFrame (f : Floor) (i : Fin 4) : Floor := f.modOverlay i fun o => { o with lastFrame := none }

/-- A handle leaves the run list, and so the flash marks (R175). -/
def Floor.dropMark (f : Floor) (i : Fin 4) (handle : Nat) : Floor :=
  f.modOverlay i fun o => { o with flashMarks := o.flashMarks.filter fun h => h != handle }

/-- A STAGE_DISABLE or STAGE_RESET at the transmitter (R180): a packet in progress is sent to its end. -/
def Floor.quietOverlay (f : Floor) (i : Fin 4) : Floor :=
  f.modOverlay i fun o => { o with waiting := none, lastFrame := none, flashMarks := [] }

/-- The level of an overlay line at a count (R170): idle high; each byte a low start bit, eight data bits with the
least significant first, and a high stop bit, 12 counts a bit. -/
def Overlay.lineLevel (o : Overlay) (now : Nat) : Bool :=
  match o.inProgress with
  | none => true
  | some s =>
    if now < s.start then true
    else
      match s.bytes[(now - s.start) / 120]? with
      | none => true
      | some b =>
        match (now - s.start) % 120 / 12 with
        | 0 => false
        | 9 => true
        | k => b.getLsbD (k - 1)

/-- The level of a stage's overlay line; at idle while RESET_N is low, when no packet is in progress (R170). -/
def State.overlayLine (s : State) (i : Fin 4) : Bool := (s.floor.overlay i).lineLevel s.floor.now

end Sys2Proof.Machine
end

