-- ==== Sys2Proof/Machine/RunnerOps.lean ====
section
/-! DEFINITION. What a stage runner and its fault logic do with what their tracker hands on: aborts and completions,
points reached, boundaries, changes of tracker state, jumps, occurrences (spec files 06 and 08). -/

namespace Sys2Proof.Machine

/-! ## The end of a run -/

/-- A run's context leaves the run list, its cue's in-flight count decreases by one (R40), its flash mark goes (R175). -/
def Floor.dropRun (f : Floor) (i : Fin 4) (handle : Nat) : Floor :=
  let f := f.modRunner i fun r => { r with runs := r.runs.filter fun x => x.handle != handle }
  let f := f.modCue handle fun c => { c with inFlight := c.inFlight - 1 }
  f.dropMark i handle

/-- The take report of a run that is PUNCHED; a run that is not makes none (R41). -/
def Floor.reportRun (f : Floor) (i : Fin 4) (r : Run) (endedAt : Nat) (outcome : TakeOutcome) : Floor :=
  if r.punch = .punched then
    f.takeReport r.handle { stage := i, punchedAt := r.punchedAt.getD endedAt, endedAt := endedAt, outcome := outcome }
  else f

/-- Where the take of a run that completes at P_out was punched: as held, but at P_out itself where a late grant of the
present count punched the run, so that the grant and P_out fall together (R136; log 36). -/
def Floor.punchedBy (f : Floor) (r : Run) (punchOut : Nat) : Option Nat :=
  if r.lateGrant = some f.now then some punchOut else r.punchedAt

/-- A run completes at P_out (R121). -/
def Floor.completeRun (f : Floor) (i : Fin 4) (r : Run) (punchOut : Nat) : Floor :=
  (f.reportRun i { r with punchedAt := f.punchedBy r punchOut } punchOut .complete).dropRun i r.handle

/-- A run is aborted (R122). -/
def Floor.abortRun (f : Floor) (i : Fin 4) (r : Run) (endedAt : Nat) : Floor :=
  (f.reportRun i r endedAt .aborted).dropRun i r.handle

/-- One event aborts runs of a stage, in run-list order; the path is settled after the last (R122, R137). -/
def Floor.abortRuns (f : Floor) (i : Fin 4) (which : Run → Bool) (endedAt : Nat) : Floor :=
  (((f.runner i).runs.filter which).foldl (fun f r => f.abortRun i r endedAt) f).settlePath i

/-- Every run of a stage is aborted (R122). -/
def Floor.abortAll (f : Floor) (i : Fin 4) (endedAt : Nat) : Floor := f.abortRuns i (fun _ => true) endedAt

/-- A runner leaves CHASING or BLANKED for a state that holds no runs (R122, R128). -/
def Floor.leaveWork (f : Floor) (i : Fin 4) (next : RunnerState) (endedAt : Nat) : Floor :=
  (f.abortAll i endedAt).modRunner i fun r => { r with state := next, blankingCount := 0 }

/-- A runner in CHASING or BLANKED aborts its runs and goes to STANDBY; in another state nothing changes. -/
def Floor.stopChase (f : Floor) (i : Fin 4) : Floor :=
  if (f.runner i).state.working then f.leaveWork i .standby (f.tracker i).position else f

/-! ## Occurrences (R144 to R148) -/

/-- The notice of a condition (R146). -/
def Condition.notice : Condition → StageNotice
  | .dropout => .dropout
  | .offSpeed => .offSpeed
  | .rateMismatch => .rateMismatch
  | .jumpInCue => .jumpInCue

/-- The mode a stage holds for a condition (R145). -/
def FaultModes.mode (m : FaultModes) : Condition → ResponseMode
  | .dropout => m.dropout
  | .offSpeed => m.offSpeed
  | .rateMismatch => m.rateMismatch
  | .jumpInCue => m.jumpInCue

/-- Where the takes of an occurrence end (R147): the tracker position, or for a DROPOUT the runner's last position. -/
def Floor.occurrenceEnd (f : Floor) (i : Fin 4) : Condition → Nat
  | .dropout => (f.runner i).lastPosition
  | _ => (f.tracker i).position

/-- A mode HALT acts on a runner that is not OFFLINE (R146, R147). -/
def Floor.enterHalted (f : Floor) (i : Fin 4) (endedAt : Nat) : Floor :=
  let f := if (f.runner i).state.working then f.leaveWork i .halted endedAt else f
  f.modRunner i fun r => { r with state := .halted, holdOff := 0 }

/-- A mode RESUME with hold-off h acts on a runner that is not OFFLINE (R146, R148). -/
def Floor.enterHold (f : Floor) (i : Fin 4) (h endedAt : Nat) : Floor :=
  match (f.runner i).state with
  | .halted => f
  | .hold => f.modRunner i fun r => { r with holdOff := max r.holdOff h }
  | .offline => f
  | .standby => f.modRunner i fun r => { r with state := .hold, holdOff := h }
  | _ => (f.leaveWork i .hold endedAt).modRunner i fun r => { r with holdOff := h }

/-- The fault logic takes an occurrence under its mode (R146); a RATE_MISMATCH reaches the monitor unit whatever the
mode (R186). An OFFLINE runner takes none (R144). -/
def Floor.occurrence (f : Floor) (i : Fin 4) (c : Condition) : Floor :=
  if (f.runner i).state = .offline then f
  else
    let f := if c = .rateMismatch then f.countOccurrence i .rateMismatches else f
    let endedAt := f.occurrenceEnd i c
    let noticed := f.setNotice (.ofStage i c.notice)
    match (f.faults i).mode c with
    | .halt => noticed.enterHalted i endedAt
    | .resumeSlow => noticed.enterHold i 120 endedAt
    | .resumeFast => noticed.enterHold i 12 endedAt
    | .report => noticed
    | .ignore => f

/-! ## Points reached (R119, R120, R121) -/

/-- Whether a run claims the record path as the position reaches t (R120). A run that a jump kept before its P_in claims
there again (R127), also where its P_in was reached in REHEARSE before the jump, or in RECORD before a change to REHEARSE
and the jump (DESIGN CHOICE, log 41). -/
def Floor.claims (f : Floor) (i : Fin 4) (t : Nat) (r : Run) : Bool :=
  (f.runner i).recordMode == .record && r.punch == .unpunched &&
    (match f.cue r.handle with
     | some c => c.fields.punchInPoint == t
     | none => false)

/-- A run that claims: PUNCHED at once where the record gate is asserted, else WAITING (R120), which notes where it claimed
(R136; log 36). -/
def Floor.claimed (f : Floor) (i : Fin 4) (t : Nat) (r : Run) : Run :=
  if f.recordGate i then { r with punch := .punched, punchedAt := some t, lateGrant := none }
  else { r with punch := .waiting, claim := some { count := f.now, position := t } }

/-- What the point t gives for one run: it completes at P_out, else takes the phase of t and claims at P_in (R119). -/
def Floor.runAtPoint (f : Floor) (i : Fin 4) (t : Nat) (r : Run) : Floor :=
  match f.cue r.handle with
  | none => f
  | some c =>
    if f.punchOut c = t then f.completeRun i r t
    else
      f.modRunner i fun q => { q with runs := q.runs.map fun x =>
        if x.handle = r.handle then
          { (if f.claims i t x then f.claimed i t x else x) with phase := c.fields.phaseAt t }
        else x }

/-- The point t for every run of the list, and then the path (R119, R124). -/
def Floor.runsAtPoint (f : Floor) (i : Fin 4) (t : Nat) : Floor :=
  ((f.runner i).runs.foldl (fun f r => f.runAtPoint i t r) f).settlePath i

/-- Whether a claim and the packet point of a frame share the position value t, so that their order is open (R176). -/
def Floor.claimMeetsPacket (f : Floor) (i : Fin 4) (t : Nat) : Bool :=
  t % 64 == (f.overlay i).phase && (f.runner i).runs.any (f.claims i t)

/-- The position is set, and the runner takes it as its last position (R102). -/
def Floor.place (f : Floor) (i : Fin 4) (p : Nat) : Floor :=
  (f.modTracker i fun x => { x with position := p }).modRunner i fun r => { r with lastPosition := p }

/-- The stage position takes the value t of a forward move: the runs take the point, and so does the transmitter. The
order of a claim and a packet point at one value is a FREE VALUE (R176; log 6). -/
def Floor.reach (f : Floor) (i : Fin 4) (t : Nat) : Floor :=
  let f := f.place i t
  if f.claimMeetsPacket i t then
    let packetFirst := Config.freeOrder f.draws % 2 = 0
    let f := { f with draws := f.draws + 1 }
    if packetFirst then (f.packetPoint i t).runsAtPoint i t else (f.runsAtPoint i t).packetPoint i t
  else (f.runsAtPoint i t).packetPoint i t

/-- The values old + 1 .. old + n, in ascending order (R98, R119). -/
def Floor.reachThrough (f : Floor) (i : Fin 4) (old : Nat) : Nat → Floor
  | 0 => f
  | n + 1 => (f.reachThrough i old n).reach i (old + n + 1)

/-- A forward move to a new position value (R98): the points above the old value up to the new one are reached in
ascending order. Across the day wrap they are the points up to DE, then every run left is aborted with ended-at DE, then
the point at value 0 (R98, R123). -/
def Floor.forwardMove (f : Floor) (i : Fin 4) (new : Nat) : Floor :=
  let t := f.tracker i
  let old := t.position
  let de := t.rate.dayEnd
  if old / 64 + 1 = t.rate.framesPerDay ∧ new / 64 = 0 then
    let f := f.reachThrough i old (de - old)
    let f := f.abortAll i de
    (f.reach i 0).place i new
  else (f.reachThrough i old (new - old)).place i new

/-! ## Changes of tracker state (R102, R108, R172) -/

/-- Whether a DROPOUT occurrence arises at a change to FREEWHEEL: a PUNCHED run is in its record window (R108). -/
def Floor.punchedRun (f : Floor) (i : Fin 4) : Bool := (f.runner i).runs.any fun r => r.punch == .punched

/-- The runner, and the transmitter, take a change of their tracker's state (R99, R108, R172). -/
def Floor.trackerChanged (f : Floor) (i : Fin 4) : Floor :=
  let f := f.modRunner i fun r => { r with lastPosition := (f.tracker i).position }
  match (f.tracker i).state with
  | .locked => f
  | .freewheel => if (f.runner i).state.working && f.punchedRun i then f.occurrence i .dropout else f
  | _ => (f.forgetFrame i).stopChase i

/-! ## Arming (R115 to R117) -/

/-- Whether a cue qualifies on a stage at position value p (R115). -/
def Floor.qualifies (f : Floor) (i : Fin 4) (p handle : Nat) (c : Cue) : Bool :=
  let r := f.runner i
  c.enable == .enabled && (c.approval != .printed || !r.skipPrinted) && c.lock == .unlocked &&
    !(r.runs.any fun x => x.handle == handle) &&
    c.fields.characters.any (fun id => (r.workingCast.place id).isSome) &&
    decide (c.fields.armPoint ≤ p) && decide (p < c.fields.punchInPoint)

/-- A cue takes a run context at position value p (R116). A cue armed again starts with no flash mark (R175); a pending
packet may still mark it (log 19). -/
def Floor.armCue (f : Floor) (i : Fin 4) (p handle : Nat) (c : Cue) : Floor :=
  let run : Run :=
    { handle := handle, phase := c.fields.phaseAt p, punch := .unpunched, punchedAt := none, claim := none,
      lateGrant := none }
  let f := f.modRunner i fun r => { r with runs := r.runs ++ [run] }
  let f := f.modCue handle fun c => { c with inFlight := c.inFlight + 1 }
  f.dropMark i handle

/-- One cue of the order list at a boundary; the mark says that a qualifying cue found no free context (R116, R117). -/
def armOne (i : Fin 4) (p : Nat) (acc : Floor × Bool) (handle : Nat) : Floor × Bool :=
  match acc.1.cue handle with
  | none => acc
  | some c =>
    if acc.1.qualifies i p handle c then
      if (acc.1.runner i).runs.length < Config.runContextCount then (acc.1.armCue i p handle c, acc.2)
      else (acc.1, true)
    else acc

/-- Arming at a boundary (R115 to R117): the cues of the selected reel in order-list order, then the path takes the new
runs; a starved boundary sets CUE_STARVED. The mark of the result is the starved mark. -/
def Floor.arm (f : Floor) (i : Fin 4) : Floor × Bool :=
  match f.selectedOpenReel i with
  | none => (f, false)
  | some reel =>
    let acc := reel.order.foldl (armOne i (f.tracker i).position) (f, false)
    let g := acc.1.settlePath i
    (if acc.2 then g.setNotice (.ofStage i .cueStarved) else g, acc.2)

/-! ## The boundary at the monitor unit (R182 to R185) -/

/-- The occupancy a counter sees (R184). -/
def Floor.occupancy (f : Floor) (i : Fin 4) (filter : PhaseFilter) : Nat :=
  match filter with
  | none => (f.runner i).runs.length
  | some p => ((f.runner i).runs.filter fun r => r.phase == p).length

/-- What a per-frame source gives at a boundary (R183, R184). -/
inductive FrameResult where
  /-- A condition. -/
  | condition (b : Bool)
  /-- An amount to add: RUN_OCCUPANCY at threshold 0. -/
  | amount (n : Nat)
  /-- No per-frame source. -/
  | notPerFrame
  deriving DecidableEq, Repr

/-- The condition or the amount of a counter at a boundary of its stage, before invert (R183, R184). -/
def Floor.frameResult (f : Floor) (i : Fin 4) (starved : Bool) (c : Counter) : FrameResult :=
  match c.source with
  | .frames => .condition true
  | .lockedFrames => .condition ((f.tracker i).state == .locked)
  | .speedBand => .condition (decide (f.monitor.bounds[c.band] ≤ (f.tracker i).speed))
  | .recordFrames => .condition (f.recordGate i)
  | .starvedFrames => .condition starved
  | .runOccupancy =>
    if c.threshold = 0 then .amount (f.occupancy i c.filter)
    else .condition (decide (c.threshold ≤ f.occupancy i c.filter))
  | _ => .notPerFrame

/-- The edge memory that keeps a condition (R185). -/
def EdgeMemory.of (b : Bool) : EdgeMemory := if b then .wasTrue else .wasFalse

/-- A counter at a boundary of its stage (R182 to R185): the edge memory is kept up to date in every case; the value
rises when the counter is enabled and the unit is RUNNING. -/
def Counter.atBoundary (frozen : Bool) (result : FrameResult) (c : Counter) : Counter :=
  match result with
  | .notPerFrame => c
  | .amount n => { (if c.enabled && !frozen then c.add n else c) with memory := .wasTrue }
  | .condition b =>
    let cond := b != c.invert
    let counts := if c.edge then cond && c.memory == .wasFalse else cond
    { (if counts && c.enabled && !frozen then c.add 1 else c) with memory := EdgeMemory.of cond }

/-- The runner presents a boundary to the monitor unit (R107 step 7, R182). -/
def Floor.presentBoundary (f : Floor) (i : Fin 4) (starved : Bool) : Floor :=
  f.modCounters fun c => if c.stage = i then c.atBoundary f.monitor.frozen (f.frameResult i starved c) else c

/-! ## The boundary steps (R107) -/

/-- Step 1: the working cast is replaced from the cast map (R74). -/
def Floor.takeCast (f : Floor) (i : Fin 4) : Floor := f.modRunner i fun r => { r with workingCast := f.casts[i] }

/-- The auto reel (R110): the slot that is OPEN with the hours of the position's label as its reel number. -/
def Floor.autoReel (f : Floor) (i : Fin 4) : Option Nat :=
  let t := f.tracker i
  (f.reels.find? fun e => e.2.number == (labelOf t.rate t.position).hours && e.2.state == .reelOpened).map (·.1)

/-- Step 2: in AUTO mode the auto reel is taken; a change stops a chase (R110). -/
def Floor.selectAuto (f : Floor) (i : Fin 4) : Floor :=
  if (f.runner i).mode = .auto && (f.runner i).selected != f.autoReel i then
    (f.modRunner i fun r => { r with selected := f.autoReel i }).stopChase i
  else f

/-- Step 3: the chase conditions for a runner that took the boundary in STANDBY (R103), the rate test for a working
one (R111). -/
def Floor.chaseTest (f : Floor) (i : Fin 4) (wasStandby : Bool) : Floor :=
  if wasStandby then
    if (f.runner i).state = .standby && f.chaseConditions i then f.modRunner i fun r => { r with state := .chasing }
    else f
  else if (f.runner i).state.working && f.ratesDisagree i then f.stopChase i
  else f

/-- Step 4: the blanking count (R128). -/
def Floor.countBlanking (f : Floor) (i : Fin 4) : Floor :=
  if (f.runner i).state = .blanked then
    f.modRunner i fun r =>
      { r with blankingCount := r.blankingCount - 1, state := if r.blankingCount ≤ 1 then .chasing else .blanked }
  else f

/-- Step 6: a runner in HOLD counts a healthy boundary, and leaves for STANDBY at 0 (R149). -/
def Floor.countHold (f : Floor) (i : Fin 4) : Floor :=
  if (f.runner i).state = .hold && f.healthy i then
    f.modRunner i fun r =>
      { r with holdOff := r.holdOff - 1, state := if r.holdOff ≤ 1 then .standby else .hold }
  else f

/-- The occurrences a boundary brings, after step 7 (R111, R144, R150). -/
def Floor.boundaryOccurrences (f : Floor) (i : Fin 4) : Floor :=
  if (f.tracker i).state = .locked then
    let f := if f.ratesDisagree i then f.occurrence i .rateMismatch else f
    if (f.tracker i).inSpeed then f else f.occurrence i .offSpeed
  else f

/-- The runner takes a boundary, word or synthetic, in the seven steps of R107. -/
def Floor.boundary (f : Floor) (i : Fin 4) : Floor :=
  let wasStandby := (f.runner i).state == .standby
  let f := f.takeCast i
  let f := f.selectAuto i
  let f := f.chaseTest i wasStandby
  let arms := (f.runner i).state == .chasing
  let f := f.countBlanking i
  let armed := if arms then f.arm i else (f, false)
  let f := armed.1.countHold i
  let f := f.presentBoundary i armed.2
  f.boundaryOccurrences i

/-! ## Jumps (R127 to R129) -/

/-- A run at an accepted jump to p (R127): kept with the phase of p where it is not PUNCHED and A ≤ p < P_in, and then it
holds no flash mark (R175); a pending packet may still mark it (log 19). -/
def Floor.runAtJump (f : Floor) (i : Fin 4) (p : Nat) (r : Run) : Floor :=
  let kept : Bool := match f.cue r.handle with
    | some c => decide (c.fields.armPoint ≤ p) && decide (p < c.fields.punchInPoint) && r.punch != .punched
    | none => false
  if kept then
    (f.modRunner i fun q => { q with runs := q.runs.map fun x =>
      if x.handle = r.handle then
        { x with
          punch := .unpunched
          claim := none
          phase := match f.cue x.handle with
            | some c => c.fields.phaseAt p
            | none => x.phase }
      else x }).dropMark i r.handle
  else f.abortRun i r (f.runner i).lastPosition

/-- Whether a jump is a JUMP_IN_CUE: any run in SWEEP, SPEAKING or TAIL (R129). -/
def Floor.inCue (f : Floor) (i : Fin 4) : Bool := (f.runner i).runs.any fun r => r.phase != .armed

/-- The state after a jump (R128). -/
def Floor.blank (f : Floor) (i : Fin 4) : Floor :=
  f.modRunner i fun r =>
    { r with state := if r.blankingLength = 0 then .chasing else .blanked, blankingCount := r.blankingLength }

/-- An accepted jump to p is handed on (R90, R99): the monitor unit counts it, the transmitter forgets the last frame,
the runner treats its runs, and a JUMP_IN_CUE occurrence is handed to the fault logic. The tracker already holds p. -/
def Floor.jump (f : Floor) (i : Fin 4) (p : Nat) : Floor :=
  let f := (f.countOccurrence i .jumps).forgetFrame i
  if (f.runner i).state.working then
    let inCue := f.inCue i
    let f := (f.runner i).runs.foldl (fun f r => f.runAtJump i p r) f
    let f := f.modRunner i fun r => { r with lastPosition := p }
    let f := (f.settlePath i).blank i
    if inCue then f.occurrence i .jumpInCue else f
  else f.modRunner i fun r => { r with lastPosition := p }

end Sys2Proof.Machine
end

