-- ==== Sys2Proof/Machine/TrackerOps.lean ====
section
/-! DEFINITION. The position trackers: classifying words, the five states, period, speed and subframe, and what each
tracker event hands on (spec file 05). -/

namespace Sys2Proof.Machine

/-! ## Words (R77, R79, R80) -/

/-- The input pin a tracker selects (R77). -/
def selectedPin (i : Fin 4) : SourceChoice → Fin 6
  | .choiceA => ⟨i.val, by omega⟩
  | .choiceB => 4
  | .choiceC => 5

/-- The class of a word at a tracker (R79). -/
inductive WordClass where
  | malformed
  | rateMismatch
  | valid
  deriving DecidableEq, Repr

/-- The label of a word. -/
def wordLabel (w : TimecodeWord) : Label := ⟨w.hours, w.minutes, w.seconds, w.frames⟩

/-- The class of a word at a rate, by the first test of R79 that applies. -/
def classify (r : Rate) (w : TimecodeWord) : WordClass :=
  if 24 ≤ w.hours || 60 ≤ w.minutes || 60 ≤ w.seconds || 30 ≤ w.frames || (w.drop && (wordLabel w).isDropped) then
    .malformed
  else if w.drop != (r == .fps2997drop) || r.base ≤ w.frames then .rateMismatch
  else .valid

/-- The frame index a valid word sets (R80): the frame after its label's in its direction. -/
def wordFrame (r : Rate) (w : TimecodeWord) : Nat := r.stepFrame w.direction ((wordLabel w).frameIndex r)

/-- Whether a valid word continues an earlier one (R80). -/
def continuesWord (r : Rate) (d : Direction) (earlier : Label) (w : TimecodeWord) : Bool :=
  w.direction == d && wordLabel w == earlier.step r d

/-- The expected label (R80). -/
def Tracker.expectedLabel (t : Tracker) : Label := labelOf t.rate t.position

/-! ## Period and speed (R94 to R96) -/

/-- The measured period, clamped to half and twice the nominal period (R94). -/
def clampPeriod (r : Rate) (p : Nat) : Nat := min (max p (r.nominal / 2)) (2 * r.nominal)

/-- The estimate after a measured period (R95). -/
def updateE8 (e8 p : Nat) : Nat := e8 - e8 / 8 + p

/-- A word measures the period and sets the timing reference (R94, R95). -/
def Tracker.measure (t : Tracker) (arrival : Nat) : Tracker :=
  { t with
    e8 := match t.timingRef with
      | some ref => updateE8 t.e8 (clampPeriod t.rate (arrival - ref))
      | none => t.e8
    timingRef := some arrival }

/-- The speed in parts per 10,000 (R96). -/
def speedOf (nominal estimate : Nat) : Nat := (nominal * 10000 + estimate / 2) / estimate

/-- Speed and in-speed at a boundary taken in LOCKED (R96). -/
def Tracker.computeSpeed (t : Tracker) : Tracker :=
  let v := speedOf t.rate.nominal t.estimate
  { t with speed := v, inSpeed := decide (8750 ≤ v) && decide (v ≤ 11250) }

/-! ## Entries into states (R82, R83, R88) -/

/-- Entry to SEARCHING (R83, R94). -/
def Tracker.enterSearching (t : Tracker) : Tracker :=
  { t with state := .searching, acquisition := none, candidate := none, lastBoundary := none, timingRef := none,
           synthetic := 0 }

/-- Entry to IDLE (R82). -/
def Tracker.enterIdle (t : Tracker) : Tracker :=
  { t with state := .idle, acquisition := none, candidate := none, lastBoundary := none, timingRef := none,
           synthetic := 0, direction := .forward, e8 := 8 * t.rate.nominal, speed := 10000, inSpeed := true }

/-- A word starts an acquisition at count 1 (R83, R84, R88, R93). -/
def Tracker.startAcquisition (t : Tracker) (w : TimecodeWord) : Tracker :=
  { t with state := .acquiring, acquisition := some ⟨1, wordLabel w, w.direction, w.arrival⟩,
           timingRef := some w.arrival, candidate := none, synthetic := 0 }

/-! ## Boundaries (R87, R92, R98, R99) -/

/-- The position value one frame on in the lock direction, at a subframe. -/
def Tracker.stepped (t : Tracker) (subframe : Nat) : Nat :=
  t.rate.stepFrame t.direction (t.position / 64) * 64 + subframe

/-- The position takes a new value in the lock direction, and the boundary is handed on: in forward the move first
(R98, R99). -/
def Floor.markBoundary (f : Floor) (i : Fin 4) (new : Nat) : Floor :=
  match (f.tracker i).direction with
  | .forward => (f.forwardMove i new).boundary i
  | .reverse => (f.place i new).boundary i

/-- A word marks a boundary of the LOCKED state on the expected track (R87, R89). -/
def Floor.wordBoundary (f : Floor) (i : Fin 4) (arrival : Nat) : Floor :=
  let f := f.modTracker i fun t => ({ t.measure arrival with lastBoundary := some arrival }).computeSpeed
  f.markBoundary i ((f.tracker i).stepped 0)

/-- A jump is accepted at a word (R90): the position is set, the jump is handed on, then the boundary. -/
def Floor.acceptJump (f : Floor) (i : Fin 4) (w : TimecodeWord) : Floor :=
  let p := wordFrame (f.tracker i).rate w * 64
  let f := f.modTracker i fun t =>
    ({ t.measure w.arrival with lastBoundary := some w.arrival, candidate := none, position := p }).computeSpeed
  (f.jump i p).boundary i

/-- An unexpected word of the lock direction becomes the candidate with a confirm count, or is accepted (R89, R90). -/
def Floor.holdCandidate (f : Floor) (i : Fin 4) (w : TimecodeWord) (confirm : Nat) : Floor :=
  if (f.tracker i).jumpConfirm ≤ confirm then f.acceptJump i w
  else (f.modTracker i fun t => { t with candidate := some ⟨wordLabel w, confirm⟩ }).wordBoundary i w.arrival

/-! ## A valid word in each state (R83 to R93) -/

/-- A valid word in SEARCHING (R83). -/
def Floor.wordSearching (f : Floor) (i : Fin 4) (w : TimecodeWord) : Floor :=
  (f.modTracker i fun t => t.startAcquisition w).trackerChanged i

/-- The tracker locks at a word (R85): the change of state, then the boundary. -/
def Floor.lock (f : Floor) (i : Fin 4) (w : TimecodeWord) : Floor :=
  let p := wordFrame (f.tracker i).rate w * 64
  let f := f.modTracker i fun t =>
    ({ t with state := .locked, direction := w.direction, lastBoundary := some w.arrival, acquisition := none }).computeSpeed
  ((f.trackerChanged i).place i p).boundary i

/-- A continuing word in ACQUIRING (R84): the count rises, the second word sets E8, later ones update it. -/
def Tracker.countWord (t : Tracker) (a : Acquisition) (w : TimecodeWord) : Tracker :=
  let p := clampPeriod t.rate (w.arrival - t.timingRef.getD w.arrival)
  { t with
    acquisition := some ⟨a.count + 1, wordLabel w, w.direction, w.arrival⟩
    e8 := if t.timingRef.isNone then t.e8 else if a.count + 1 = 2 then 8 * p else updateE8 t.e8 p
    timingRef := some w.arrival }

/-- A valid word in ACQUIRING (R84, R85). -/
def Floor.wordAcquiring (f : Floor) (i : Fin 4) (w : TimecodeWord) : Floor :=
  let t := f.tracker i
  match t.acquisition with
  | none => f.modTracker i fun t => t.startAcquisition w
  | some a =>
    if continuesWord t.rate a.direction a.label w then
      let f := f.modTracker i fun t => t.countWord a w
      if t.lockCount ≤ a.count + 1 then f.lock i w else f
    else f.modTracker i fun t => t.startAcquisition w

/-- A valid word in LOCKED (R87 to R90). -/
def Floor.wordLocked (f : Floor) (i : Fin 4) (w : TimecodeWord) : Floor :=
  let t := f.tracker i
  if w.direction != t.direction then (f.modTracker i fun t => t.startAcquisition w).trackerChanged i
  else if wordLabel w = t.expectedLabel then
    let f := if t.candidate.isSome then f.countOccurrence i .glitches else f
    (f.modTracker i fun t => { t with candidate := none }).wordBoundary i w.arrival
  else
    match t.candidate with
    | some c =>
      if continuesWord t.rate t.direction c.label w then f.holdCandidate i w (c.confirm + 1)
      else f.holdCandidate i w 1
    | none => f.holdCandidate i w 1

/-- A valid word in FREEWHEEL (R93): an expected word re-anchors, any other starts an acquisition. -/
def Floor.wordFreewheel (f : Floor) (i : Fin 4) (w : TimecodeWord) : Floor :=
  let t := f.tracker i
  if w.direction == t.direction && wordLabel w == t.expectedLabel then
    let f := f.modTracker i fun t =>
      ({ t with state := .locked, lastBoundary := some w.arrival, timingRef := some w.arrival, synthetic := 0 }).computeSpeed
    let f := f.trackerChanged i
    f.markBoundary i ((f.tracker i).stepped 0)
  else (f.modTracker i fun t => t.startAcquisition w).trackerChanged i

/-- A word arrival at one tracker (R79): an IDLE tracker ignores it. -/
def Floor.trackerWord (f : Floor) (i : Fin 4) (w : TimecodeWord) : Floor :=
  let t := f.tracker i
  if t.state = .idle then f
  else
    match classify t.rate w with
    | .malformed => f.countOccurrence i .glitches
    | .rateMismatch => f.occurrence i .rateMismatch
    | .valid =>
      match t.state with
      | .idle => f
      | .searching => f.wordSearching i w
      | .acquiring => f.wordAcquiring i w
      | .locked => f.wordLocked i w
      | .freewheel => f.wordFreewheel i w

/-- The trackers that select a pin (R76, R77). -/
def Floor.listeners (f : Floor) (pin : Fin 6) : List (Fin 4) :=
  (List.finRange 4).filter fun i => selectedPin i (f.tracker i).source == pin && (f.tracker i).state != .idle

/-! ## Deadlines (R86, R91, R92) -/

/-- The acquisition deadline (R86). -/
def Tracker.acquisitionDeadline (t : Tracker) : Option Nat :=
  if t.state = .acquiring then t.acquisition.map fun a => a.arrival + 2 * t.rate.nominal else none

/-- The LOCKED deadline (R91). -/
def Tracker.lockedDeadline (t : Tracker) : Option Nat :=
  if t.state = .locked then t.lastBoundary.map fun b => b + 5 * t.estimate / 4 else none

/-- The count at which the next synthetic boundary is due (R92). -/
def Tracker.syntheticDue (t : Tracker) : Option Nat :=
  if t.state = .freewheel then t.lastBoundary.map fun b => b + t.estimate else none

/-- The subframe at an elapsed count, without the hold at 63 (R97). -/
def subframeAt (elapsed estimate : Nat) : Nat := elapsed * 64 / estimate

/-- The count at which the subframe next increases (R97); absent where it does not. -/
def Tracker.subframeDue (t : Tracker) : Option Nat :=
  if (t.state = .locked ∨ t.state = .freewheel) ∧ t.direction = .forward ∧ t.position % 64 < 63 then
    t.lastBoundary.map fun b => b + ((t.position % 64 + 1) * t.estimate + 63) / 64
  else none

/-- The acquisition deadline expires (R86). -/
def Floor.acquisitionExpires (f : Floor) (i : Fin 4) : Floor :=
  match (f.tracker i).acquisitionDeadline with
  | none => f
  | some d => ((f.atCount d).modTracker i Tracker.enterSearching).trackerChanged i

/-- A code stop (R91, R92). -/
def Floor.codeStop (f : Floor) (i : Fin 4) : Floor := (f.modTracker i Tracker.enterSearching).trackerChanged i

/-- The subframe of the first freewheel step in the forward direction (R91, R97). -/
def firstStepSubframe (estimate : Nat) : Nat := min 63 (subframeAt (5 * estimate / 4 - estimate) estimate)

/-- The LOCKED deadline expires (R91): a code stop at limit 0, else the first, back-dated synthetic boundary. -/
def Floor.lockedExpires (f : Floor) (i : Fin 4) : Floor :=
  match (f.tracker i).lockedDeadline with
  | none => f
  | some d =>
    let f := f.atCount d
    if (f.tracker i).freewheelLimit = 0 then f.codeStop i
    else
      let f := f.modTracker i fun t =>
        { t with state := .freewheel, lastBoundary := t.lastBoundary.map (· + t.estimate), synthetic := 1,
                 candidate := none, timingRef := none }
      let f := f.trackerChanged i
      let t := f.tracker i
      f.markBoundary i (t.stepped (if t.direction = .forward then firstStepSubframe t.estimate else 0))

/-- A synthetic boundary falls due (R92): it is made below the freewheel limit, else there is a code stop. -/
def Floor.syntheticFallsDue (f : Floor) (i : Fin 4) : Floor :=
  match (f.tracker i).syntheticDue with
  | none => f
  | some d =>
    let f := f.atCount d
    if (f.tracker i).synthetic < (f.tracker i).freewheelLimit then
      let f := f.modTracker i fun t => { t with lastBoundary := some d, synthetic := t.synthetic + 1 }
      f.markBoundary i ((f.tracker i).stepped 0)
    else f.codeStop i

/-- The subframe increases by one (R97): a forward move of one subframe. -/
def Floor.subframeIncreases (f : Floor) (i : Fin 4) : Floor :=
  match (f.tracker i).subframeDue with
  | none => f
  | some d => (f.atCount d).forwardMove i ((f.tracker i).position + 1)

end Sys2Proof.Machine
end

