-- ==== Sys2Proof/Machine/LinkOps.lean ====
section
/-! DEFINITION. The control link port: windows, handover, responses, fetches (R193 to R198), and what a reset does to
every block (R45, R158, R180, R199, R200). -/

namespace Sys2Proof.Machine

/-- What a command answers. -/
abbrev Result := Host.Outcome State Fault Refusal

/-- Goes on where a check holds, else refuses with its status. -/
def require (b : Bool) (st : Status) : Except Status Unit := if b then .ok () else .error st

/-- The value a check finds, else the status that refuses. -/
def orElse {α : Type} (x : Option α) (st : Status) : Except Status α :=
  match x with
  | some a => .ok a
  | none => .error st

/-- Changes the floor. -/
def State.modFloor (s : State) (g : Floor → Floor) : State := { s with floor := g s.floor }

/-! ## Responses (R197) -/

/-- A response is placed: the state becomes READY and RDY rises (R197). -/
def State.respond (s : State) (code : Byte) (status : Status) (payload : List Byte) : State :=
  { s with link := { s.link with state := .ready, response := some ⟨status, code, payload⟩ } }

/-- A request is refused: its response has length 0 (R197). -/
def State.refuse (s : State) (code : Byte) (status : Status) : State := s.respond code status []

/-- A request answered at once by its owning block: refused with the status of the first failing check, or carried out
with a status and a payload (R197). -/
def State.answer (s : State) (code : Byte) (r : Except Status (State × Status × List Byte)) : State :=
  match r with
  | .error st => s.refuse code st
  | .ok (t, st, payload) => t.respond code st payload

/-- A store operation is accepted: the unit takes it and the link becomes BUSY (R27, R28, R197). -/
def State.beginOperation (s : State) (op : StoreOp) : State :=
  { s with operation := some op, link := { s.link with state := .busy, response := none } }

/-- A store operation has completed: the unit goes IDLE and the response is placed (R27, R28, R197). -/
def State.endOperation (s : State) (code : Byte) (status : Status) (payload : List Byte) : State :=
  ({ s with operation := none }).respond code status payload

/-! ## Windows (R194, R195) -/

/-- The first byte of a request window has been clocked (R195); while RESET_N is low the window is ignored (R194). -/
def State.firstByte (s : State) (code : Byte) : State :=
  if s.resetHeld then { s with link := { s.link with window := .ignored } }
  else
    match s.link.state with
    | .busy => { s with link := { s.link with window := .dropped, requestSlot := [] } }
    | _ => { s with link := { s.link with state := .empty, response := none, window := .assembling, requestSlot := [code] } }

/-- The bytes of a window after its code; in the named form they are not written out (log 16). -/
def laterBytes {α : Type} : Request α → List Byte
  | .fields _ => []
  | .window bytes => bytes

/-- The code and the later bytes of a window stand in the request slot, as far as it has room (R193, R195). -/
def State.fillSlot (s : State) (code : Byte) (bytes : List Byte) : State :=
  { s with link := { s.link with requestSlot := (code :: bytes).take Config.requestSlotSize } }

/-- The fields of the request in the request slot, or the status of the first failing check (R196). -/
def State.readSlot {α : Type} (s : State) (fieldCount : Option Nat) (parse : List Byte → Option α) (q : Request α) :
    Except Status α :=
  match q with
  | .fields x => .ok x
  | .window bytes => checkWindow fieldCount parse (1 + bytes.length) (s.link.requestSlot.drop 1)

/-- A window ends: nothing is left of it in the port. -/
def State.closeWindow (s : State) : State :=
  { s with link := { s.link with window := .noWindow, requestSlot := [] } }

/-- The end of a dropped window sets LINK_DROPPED (R195). -/
def State.dropWindow (s : State) : State := s.closeWindow.modFloor fun f => f.setNotice .linkDropped

/-- A request: the end of its window, or the whole window where no first byte was taken before (log 16). An assembled
window fills the request slot, is checked there and handed to its owner (R193, R196); a dropped one sets LINK_DROPPED
(R195); one that began before or during a pin reset is ignored (R194); no request window ends within a fetch window. `fieldCount` is how many fields the request's presence field may mark. -/
def State.request {α : Type} (s : State) (code : Byte) (fieldCount : Option Nat) (parse : List Byte → Option α)
    (q : Request α) (owner : α → State → State) : State :=
  let s := if s.link.window = .noWindow then s.firstByte code else s
  match s.link.window with
  | .assembling =>
    let s := s.fillSlot code (laterBytes q)
    match s.readSlot fieldCount parse q with
    | .ok x => owner x s.closeWindow
    | .error st => s.closeWindow.refuse code st
  | .dropped => s.dropWindow
  | .ignored => s.closeWindow
  | .fetching _ => s
  | .noWindow => s

/-! ## Fetches (R198, R202) -/

/-- The bytes of a response: status, echoed code, length, payload (R202). -/
def Response.bytes (r : Response) : List Byte := [r.status.byte, r.code, byte r.payload.length] ++ r.payload

/-- What MISO carries for n bytes clocked after the 0x00 byte: 0xFF, then the response, then 0xFF (R198). -/
def fetchBytes (response : List Byte) (n : Nat) : List Byte :=
  0xFF :: (response.take n ++ List.replicate (n - response.length) 0xFF)

/-- The first byte of a fetch window has been clocked: the link state at it decides what the window reads (R198); while
RESET_N is low the window is ignored (R194). -/
def State.beginFetch (s : State) : State :=
  { s with link := { s.link with
      window := if s.resetHeld then .ignored else .fetching (s.link.state == .ready) } }

/-- A fetch window ends with n bytes clocked after its 0x00 byte (R198): where it found a response waiting, the response is
read, and leaves its slot when every byte of it was clocked out. -/
def State.readOut (s : State) (answers : Bool) (n : Nat) : State :=
  match answers, s.link.response with
  | true, some r =>
    let link := { s.link with fetched := fetchBytes r.bytes n }
    if r.bytes.length ≤ n then { s with link := { link with state := .empty, response := none } }
    else { s with link := link }
  | _, _ => { s with link := { s.link with fetched := fetchBytes [] n } }

/-- A fetch: the end of its window, or the whole window where no first byte was taken before. A window during which
RESET_N was low is ignored (R194, R198; log 18). -/
def State.fetchWindow (s : State) (n : Nat) (acrossReset : Bool) : State :=
  match s.link.window with
  | .ignored => s.closeWindow
  | .fetching answers => if acrossReset || s.resetHeld then s.closeWindow else (s.readOut answers n).closeWindow
  | _ => if acrossReset || s.resetHeld then s else s.readOut (s.link.state == .ready) n

/-! ## Resets (R161, R199, R200) -/

/-- How many banks, from bank 0 on, a strap level makes DEDICATED (R161). -/
def dedicatedBanks : Fin 4 → Nat
  | 0 => 4
  | 1 => 2
  | 2 => 1
  | 3 => 0

/-- The bank records a strap level gives; each bank names the stage of its number (R161). -/
def strapBanks (level : Fin 4) : Vector Bank 4 :=
  Vector.ofFn fun b => { mode := if b.val < dedicatedBanks level then .dedicated else .routed, stage := b }

/-- Every block takes its reset values, with a latched strap level; the reference counter, the model's own fields and
the level of RESET_N stand (R199, R200; log 1, log 8). -/
def State.resetBlocks (s : State) (level : Fin 4) : State :=
  { State.reset with
    floor := { Floor.reset with now := s.floor.now, draws := s.floor.draws }
    banks := strapBanks level
    strap := level
    resetHeld := s.resetHeld
    pending := s.pending }

end Sys2Proof.Machine
end

