-- ==== Sys2Proof/Machine/Store.lean ====
section
/-! DEFINITION. The cue store: creating, editing, retiring, reading and marking cues (spec file 02). -/

namespace Sys2Proof.Machine

/-! ## Field values in requests (R24 to R26, R12) -/

/-- A suffix field: none, a letter A..Z, or malformed (R24, R201). -/
def suffixOf (n : Nat) : Option (Option Nat) :=
  if n = 0 then some none else if 0x41 ≤ n ∧ n ≤ 0x5A then some (some n) else none

/-- A cue number in range (R24). -/
def numberOk (n : Nat) : Bool := decide (1 ≤ n) && decide (n ≤ 9999)

/-- A value moved to the nearer limit of a range (R26). -/
def fit (lo hi n : Nat) : Nat := max lo (min n hi)

/-- The values a request asks for: those given, and those held for the fields not given. -/
def askedTiming (g : TimingFields) (t : Timing) : Timing where
  lead := g.lead.getD t.lead
  beepCount := g.beepCount.getD t.beepCount
  beepSpacing := g.beepSpacing.getD t.beepSpacing
  beepLength := g.beepLength.getD t.beepLength
  preRoll := g.preRoll.getD t.preRoll
  punchIn := g.punchIn.getD t.punchIn
  punchOut := g.punchOut.getD t.punchOut

/-- The two passes of R26. -/
def Timing.fitted (t : Timing) : Timing :=
  let lead := fit 12 240 t.lead
  let spacing := fit 6 60 t.beepSpacing
  { lead := lead
    beepCount := fit 0 3 t.beepCount
    beepSpacing := spacing
    beepLength := fit 1 (min 6 (spacing - 1)) t.beepLength
    preRoll := fit 0 120 t.preRoll
    punchIn := fit 0 (min 48 lead) t.punchIn
    punchOut := fit 0 96 t.punchOut }

/-- Whether any timing field is given. -/
def timingGiven (g : TimingFields) : Bool :=
  g.lead.isSome || g.beepCount.isSome || g.beepSpacing.isSome || g.beepLength.isSome || g.preRoll.isSome ||
    g.punchIn.isSome || g.punchOut.isSome

/-- A character list (R25): 1 to 4 distinct ids, each of a DEFINED slot. -/
def Floor.checkCharacters (f : Floor) (ids : List Nat) : Except Status Unit := do
  require (decide (1 ≤ ids.length) && decide (ids.length ≤ 4) && decide ids.Nodup) .badCharacters
  require (ids.all fun id => decide (id < Config.characterCount) && (f.character id).isSome) .unknownCharacter

/-- A span (R12): the out-point, clamped where it lies more than 7,200 frames after the in-point. -/
def checkSpan (inPoint outPoint : Nat) : Except Status Nat :=
  if outPoint ≤ inPoint then .error .badSpan else .ok (min outPoint (inPoint + Config.spanMax))

/-- Whether a label is held by a live cue of a reel, other than one handle (R24). -/
def Floor.labelTaken (f : Floor) (slot number : Nat) (suffix : Option Nat) (besides : Option Nat) : Bool :=
  f.cues.any fun e => e.2.reel == slot && e.2.fields.number == number && e.2.fields.suffix == suffix &&
    some e.1 != besides

/-- OK, or CLAMPED where a value was moved (R26). -/
def clampStatus (moved : Bool) : Status := if moved then .clamped else .ok

/-! ## CUE_CREATE (R31 to R33) -/

/-- The checks of R31 in order, and the operation record of an accepted creation. -/
def Floor.checkCreate (f : Floor) (x : CueCreateFields) : Except Status StoreOp := do
  require (numberOk x.number) .badRequest
  let suffix ← orElse (suffixOf x.suffix) .badRequest
  let (slot, reel) ← f.resolveReel x.reel
  f.checkCharacters x.characters
  let inPoint ← orElse (positionValue reel.rate x.inPos) .invalidPosition
  let outGiven ← orElse (positionValue reel.rate x.outPos) .invalidPosition
  let outPoint ← checkSpan inPoint outGiven
  require (!f.labelTaken slot x.number suffix none) .duplicateLabel
  require (decide (f.cues.length < Config.handleCount)) .storeFull
  let asked := askedTiming x.timing reel.defaults
  let timing := asked.fitted
  pure (.create slot ⟨x.number, suffix, x.characters, inPoint, outPoint, timing⟩
    (clampStatus (timing != asked || outPoint != outGiven)))

/-- CUE_CREATE at its owner (R31). -/
def State.ownCreate (x : CueCreateFields) (s : State) : State :=
  match s.floor.checkCreate x with
  | .error st => s.refuse Code.cueCreate st
  | .ok op => s.beginOperation op

/-- CUE_CREATE (R31). -/
def execCueCreate (q : Request CueCreateFields) (s : State) : Result :=
  .next (s.request Code.cueCreate (some 7) parseCueCreate q State.ownCreate)

/-- A new cue's record (R33). -/
def newCue (slot : Nat) (fields : CueFields) : Cue :=
  { reel := slot, fields := fields, enable := .enabled, approval := .approvalOpen, takeCount := 0, lastTake := none,
    inFlight := 0, lock := .unlocked }

/-- A cue becomes live under a handle, and takes its place in its reel's order list (R33, R53, R66). -/
def Floor.makeLive (f : Floor) (handle slot : Nat) (fields : CueFields) : Floor :=
  let f := f.modReel slot fun r => { r with order := f.insertInOrder handle fields r.order }
  ({ f with cues := Table.put handle (newCue slot fields) f.cues }).raiseUse fields.characters

/-- CUE_CREATE_COMPLETION (R32, R33): the lowest free handle becomes live. -/
def execCueCreateCompletion (s : State) : Result :=
  match s.operation with
  | some (.create slot fields status) =>
    let handle := Table.lowestFree s.floor.cues
    .next ((s.modFloor fun f => f.makeLive handle slot fields).endOperation Code.cueCreate status (bytes2 handle))
  | _ => .next s

/-! ## CUE_EDIT (R34 to R36) -/

/-- Whether an edit gives a timeline field or the character list (R34, R35). -/
def editTouchesTimeline (x : CueEditFields) : Bool :=
  x.inPos.isSome || x.outPos.isSome || timingGiven x.timing || x.characters.isSome

/-- Whether an edit gives any field (R34). -/
def editGives (x : CueEditFields) : Bool :=
  editTouchesTimeline x || x.number.isSome || x.suffix.isSome

/-- A position field given or not given, over a stored value (R35 step 7). -/
def givenPosition (r : Rate) (given : Option PositionField) (stored : Nat) : Except Status Nat :=
  match given with
  | some p => orElse (positionValue r p) .invalidPosition
  | none => .ok stored

/-- A suffix given or not given, over the stored one. -/
def givenSuffix (given : Option Nat) (stored : Option Nat) : Option (Option Nat) :=
  match given with
  | some n => suffixOf n
  | none => some stored

/-- The checks of R35 in order, and the operation record of an accepted edit, with every value the record will hold
(log 20). -/
def Floor.checkEdit (f : Floor) (x : CueEditFields) : Except Status StoreOp := do
  require (editGives x && (x.number.all numberOk) && (x.suffix.all fun n => (suffixOf n).isSome)) .badRequest
  let c ← f.resolveCue x.handle
  require (c.lock == .unlocked) .cueBusy
  require (!editTouchesTimeline x || c.inFlight == 0) .cueInFlight
  match x.characters with
  | some ids => f.checkCharacters ids
  | none => pure ()
  let rate := f.reelRate c.reel
  let inPoint ← givenPosition rate x.inPos c.fields.inPoint
  let outGiven ← givenPosition rate x.outPos c.fields.outPoint
  let outPoint ← if x.inPos.isSome || x.outPos.isSome then checkSpan inPoint outGiven else pure outGiven
  let number := x.number.getD c.fields.number
  let suffix ← orElse (givenSuffix x.suffix c.fields.suffix) .badRequest
  require (!((x.number.isSome || x.suffix.isSome) && f.labelTaken c.reel number suffix (some x.handle))) .duplicateLabel
  let asked := askedTiming x.timing c.fields.timing
  let timing := asked.fitted
  pure (.edit x.handle ⟨number, suffix, x.characters.getD c.fields.characters, inPoint, outPoint, timing⟩
    (clampStatus (timing != asked || outPoint != outGiven)))

/-- CUE_EDIT at its owner (R35): the lock becomes EDITING. -/
def State.ownEdit (x : CueEditFields) (s : State) : State :=
  match s.floor.checkEdit x with
  | .error st => s.refuse Code.cueEdit st
  | .ok op => (s.modFloor fun f => f.modCue x.handle fun c => { c with lock := .editing }).beginOperation op

/-- CUE_EDIT (R35). -/
def execCueEdit (q : Request CueEditFields) (s : State) : Result :=
  .next (s.request Code.cueEdit (some 12) parseCueEdit q State.ownEdit)

/-- Whether two records take the same place in the order of R52. -/
def CueFields.samePlace (a b : CueFields) : Bool :=
  a.inPoint == b.inPoint && a.number == b.number && a.suffix == b.suffix

/-- The given fields are written, the cue moves to its place in the order list, the lock returns to NONE (R36, R53, R66). -/
def Floor.writeEdit (f : Floor) (handle : Nat) (fields : CueFields) : Floor :=
  match f.cue handle with
  | none => f
  | some c =>
    let old := c.fields.characters
    let f := f.modCue handle fun c => { c with fields := fields, lock := .unlocked }
    let f := f.lowerUse (old.filter fun id => !fields.characters.contains id)
    let f := f.raiseUse (fields.characters.filter fun id => !old.contains id)
    if c.fields.samePlace fields then f
    else f.modReel c.reel fun r =>
      { r with order := f.insertInOrder handle fields (r.order.filter fun h => h != handle) }

/-- CUE_EDIT_COMPLETION (R36). -/
def execCueEditCompletion (s : State) : Result :=
  match s.operation with
  | some (.edit handle fields status) =>
    .next ((s.modFloor fun f => f.writeEdit handle fields).endOperation Code.cueEdit status [])
  | _ => .next s

/-! ## CUE_RETIRE, plain and forced (R37 to R39) -/

/-- The checks of a retire (R37, R38); a force flag other than 0 and 1 is refused first (log 17). -/
def Floor.checkRetire (f : Floor) (x : RetireFields) : Except Status Bool := do
  let force ← orElse (flagOfCode x.force) .badRequest
  let c ← f.resolveCue x.handle
  require (c.lock == .unlocked) .cueBusy
  require (force || c.inFlight == 0) .cueInFlight
  pure force

/-- The stages with a run of a cue. -/
def Floor.stagesRunning (f : Floor) (handle : Nat) : List (Fin 4) :=
  (List.finRange 4).filter fun i => (f.runner i).runs.any fun r => r.handle == handle

/-- Every run of a cue on every stage is aborted, each stage at its tracker position; the runners keep their states
(R38). The order of the stages is open (R42; log 5). -/
def Floor.abortCue (f : Floor) (handle : Nat) : Floor :=
  f.forEachOpen (f.stagesRunning handle) fun i f =>
    f.abortRuns i (fun r => r.handle == handle) (f.tracker i).position

/-- A retire at its owner: the lock becomes RETIRING, and with the force flag set the cue's runs are aborted at once
(R37, R38). The flag the request carries decides which. -/
def State.ownRetire (x : RetireFields) (s : State) : State :=
  match s.floor.checkRetire x with
  | .error st => s.refuse Code.cueRetire st
  | .ok force =>
    (s.modFloor fun f =>
      let f := f.modCue x.handle fun c => { c with lock := .retiring }
      if force then f.abortCue x.handle else f).beginOperation (.retire x.handle .ok)

/-- CUE_RETIRE (R37). -/
def execCueRetire (q : Request RetireFields) (s : State) : Result :=
  .next (s.request Code.cueRetire none parseRetire q State.ownRetire)

/-- FORCED_RETIRE (R38). -/
def execForcedRetire (q : Request RetireFields) (s : State) : Result :=
  .next (s.request Code.cueRetire none parseRetire q State.ownRetire)

/-- A slot becomes free with all its fields discarded; its characters' use counts fall (R39, R60, R66). -/
def Floor.freeCue (f : Floor) (handle : Nat) : Floor :=
  match f.cue handle with
  | none => f
  | some c =>
    let f := f.lowerUse c.fields.characters
    { f with cues := Table.erase handle f.cues }

/-- A retired cue leaves its reel's order list, and its slot is freed (R39, R53). -/
def Floor.retireCue (f : Floor) (handle : Nat) : Floor :=
  match f.cue handle with
  | none => f
  | some c => (f.modReel c.reel fun r => { r with order := r.order.filter fun h => h != handle }).freeCue handle

/-- CUE_RETIRE_COMPLETION (R39). -/
def execCueRetireCompletion (s : State) : Result :=
  match s.operation with
  | some (.retire handle status) =>
    .next ((s.modFloor fun f => f.retireCue handle).endOperation Code.cueRetire status [])
  | _ => .next s

/-! ## CUE_READ and CUE_MARK (R43, R44) -/

/-- The seven timing values of a response. -/
def Timing.bytes (t : Timing) : List Byte :=
  [byte t.lead, byte t.beepCount, byte t.beepSpacing, byte t.beepLength, byte t.preRoll, byte t.punchIn, byte t.punchOut]

/-- A last take of a response, its positions at a rate (R43; log 13). -/
def Take.bytes (r : Rate) (t : Take) : List Byte :=
  [byte t.stage.val] ++ positionBytes r t.punchedAt ++ positionBytes r t.endedAt ++ [byte t.outcome.code]

/-- The number of the reel in a slot, or its absence. -/
def Floor.reelNumberByte (f : Floor) (slot : Option Nat) : Byte :=
  match slot.bind f.reel with
  | some r => byte r.number
  | none => 0xFF

/-- The payload of a CUE_READ response, in the order of R43. -/
def Floor.cueBytes (f : Floor) (handle : Nat) (c : Cue) : List Byte :=
  let rate := f.reelRate c.reel
  bytes2 handle ++ [f.reelNumberByte (some c.reel)] ++ bytes2 c.fields.number ++ [suffixByte c.fields.suffix] ++
    listBytes (fun id => [byte id]) c.fields.characters ++ positionBytes rate c.fields.inPoint ++
    positionBytes rate c.fields.outPoint ++ c.fields.timing.bytes ++ [byte c.enable.code, byte c.approval.code] ++
    bytes2 c.takeCount ++ orAbsent 12 (Take.bytes rate) c.lastTake ++ [byte c.inFlight, byte c.lock.code]

/-- CUE_READ at its owner (R43). -/
def State.ownCueRead (handle : Nat) (s : State) : State :=
  s.answer Code.cueRead do
    let c ← s.floor.resolveCue handle
    pure (s, .ok, s.floor.cueBytes handle c)

/-- CUE_READ (R43). -/
def execCueRead (q : Request Nat) (s : State) : Result :=
  .next (s.request Code.cueRead none parseHandle q State.ownCueRead)

/-- A value given or not given, decoded; a value outside those named is a BAD_REQUEST. -/
def givenCode {α : Type} (decode : Nat → Option α) : Option Nat → Except Status (Option α)
  | none => .ok none
  | some n => (orElse (decode n) .badRequest).map some

/-- CUE_MARK at its owner (R44). R44 does not order its refusals; values out of range come first here (log 35). -/
def State.ownCueMark (x : CueMarkFields) (s : State) : State :=
  s.answer Code.cueMark do
    require (x.enable.isSome || x.approval.isSome) .badRequest
    let enable ← givenCode Enable.ofCode x.enable
    let approval ← givenCode Approval.ofCode x.approval
    let c ← s.floor.resolveCue x.handle
    require (c.lock == .unlocked) .cueBusy
    pure (s.modFloor fun f => f.modCue x.handle fun c =>
      { c with enable := enable.getD c.enable, approval := approval.getD c.approval }, .ok, [])

/-- CUE_MARK (R44). -/
def execCueMark (q : Request CueMarkFields) (s : State) : Result :=
  .next (s.request Code.cueMark (some 2) parseCueMark q State.ownCueMark)

end Sys2Proof.Machine
end

