-- ==== Sys2Proof/Machine/Characters.lean ====
section
/-! DEFINITION. The character table and the cast map (spec file 04). -/

namespace Sys2Proof.Machine

/-- A name character (R64): A..Z, 0..9, space or hyphen. -/
def nameCharacter (b : Byte) : Bool :=
  (decide (0x41 ≤ b.toNat) && decide (b.toNat ≤ 0x5A)) || (decide (0x30 ≤ b.toNat) && decide (b.toNat ≤ 0x39)) ||
    b == 0x20 || b == 0x2D

/-- A name (R64): 1 to 8 name characters. -/
def nameOk (name : List Byte) : Bool :=
  decide (1 ≤ name.length) && decide (name.length ≤ 8) && name.all nameCharacter

/-- CHAR_DEFINE at its owner (R65): created 0, renamed 1. -/
def State.ownCharDefine (x : CharDefineFields) (s : State) : State :=
  s.answer Code.charDefine do
    require (decide (x.character < Config.characterCount) && nameOk x.name) .badRequest
    match s.floor.character x.character with
    | none =>
      pure (s.modFloor fun f => { f with chars := Table.put x.character { name := x.name, useCount := 0 } f.chars },
        .ok, [0])
    | some _ =>
      pure (s.modFloor fun f =>
        { f with chars := Table.modify x.character (fun c => { c with name := x.name }) f.chars }, .ok, [1])

/-- CHAR_DEFINE (R65). -/
def execCharDefine (q : Request CharDefineFields) (s : State) : Result :=
  .next (s.request Code.charDefine none parseCharDefine q State.ownCharDefine)

/-- A character named by a request: an id above 63 or a FREE slot is unknown (R67, R70, R72). -/
def Floor.resolveCharacter (f : Floor) (id : Nat) : Except Status Character :=
  if id < Config.characterCount then orElse (f.character id) .unknownCharacter else .error .unknownCharacter

/-- CHAR_RETIRE at its owner (R67). -/
def State.ownCharRetire (id : Nat) (s : State) : State :=
  s.answer Code.charRetire do
    let c ← s.floor.resolveCharacter id
    require (c.useCount == 0 && (s.floor.castPlace id).isNone) .characterInUse
    pure (s.modFloor fun f => { f with chars := Table.erase id f.chars }, .ok, [])

/-- CHAR_RETIRE (R67). -/
def execCharRetire (q : Request Nat) (s : State) : Result :=
  .next (s.request Code.charRetire none parse1 q State.ownCharRetire)

/-- A stage and podium, or their absence. -/
def placeBytes (p : Option (Fin 4 × Fin 6)) : List Byte :=
  orAbsent 2 (fun e : Fin 4 × Fin 6 => [byte e.1.val, byte e.2.val]) p

/-- CHAR_READ at its owner (R68): FREE 0, or DEFINED 1 with the name, the use count and the cast place. -/
def State.ownCharRead (id : Nat) (s : State) : State :=
  s.answer Code.charRead do
    require (decide (id < Config.characterCount)) .unknownCharacter
    match s.floor.character id with
    | none => pure (s, .ok, [0])
    | some c => pure (s, .ok, 1 :: listBytes (fun b => [b]) c.name ++ [countByte c.useCount] ++
        placeBytes (s.floor.castPlace id))

/-- CHAR_READ (R68). -/
def execCharRead (q : Request Nat) (s : State) : Result :=
  .next (s.request Code.charRead none parse1 q State.ownCharRead)

/-- The podium that holds a character, if any, is emptied (R70 to R72). -/
def Floor.uncast (f : Floor) (id : Nat) : Floor :=
  match f.castPlace id with
  | some (i, k) => f.setPodium i k none
  | none => f

/-- CAST_ASSIGN at its owner (R70, R71): the old podium is emptied and the new one set, as one change. A move flag other
than 0 and 1 is refused first (log 17). -/
def State.ownCastAssign (x : CastAssignFields) (s : State) : State :=
  s.answer Code.castAssign do
    let i ← orElse (stageOfNat x.stage) .badRequest
    let k ← orElse (podiumOfNat x.podium) .badRequest
    let move ← orElse (flagOfCode x.move) .badRequest
    let _ ← s.floor.resolveCharacter x.character
    let before := s.floor.castPlace x.character
    require (move || before.all fun e => e.1 == i) .castConflict
    require ((s.floor.casts[i][k]).all fun id => id == x.character) .podiumTaken
    pure (s.modFloor fun f => (f.uncast x.character).setPodium i k (some x.character), .ok, placeBytes before)

/-- CAST_ASSIGN (R70). -/
def execCastAssign (q : Request CastAssignFields) (s : State) : Result :=
  .next (s.request Code.castAssign none parseCastAssign q State.ownCastAssign)

/-- CAST_RELEASE at its owner (R72). -/
def State.ownCastRelease (id : Nat) (s : State) : State :=
  s.answer Code.castRelease do
    let _ ← s.floor.resolveCharacter id
    pure (s.modFloor fun f => f.uncast id, .ok, placeBytes (s.floor.castPlace id))

/-- CAST_RELEASE (R72). -/
def execCastRelease (q : Request Nat) (s : State) : Result :=
  .next (s.request Code.castRelease none parse1 q State.ownCastRelease)

/-- A podium of a CAST_READ response: the character's id and name, or 0xFF alone where it is empty (R73; log 13). -/
def Floor.podiumBytes (f : Floor) (x : Option Nat) : List Byte :=
  match x with
  | none => absent 1
  | some id => byte id :: listBytes (fun b => [b]) ((f.character id).elim [] Character.name)

/-- CAST_READ at its owner (R73). -/
def State.ownCastRead (stage : Nat) (s : State) : State :=
  s.answer Code.castRead do
    let i ← orElse (stageOfNat stage) .badRequest
    pure (s, .ok, s.floor.casts[i].toList.flatMap s.floor.podiumBytes ++ [flagByte (s.floor.castPending i)])

/-- CAST_READ (R73). -/
def execCastRead (q : Request Nat) (s : State) : Result :=
  .next (s.request Code.castRead none parse1 q State.ownCastRead)

end Sys2Proof.Machine
end

