-- ==== Sys2Proof/Machine/Counters.lean ====
section
/-! DEFINITION. The requests of the monitor unit (R188 to R192). -/

namespace Sys2Proof.Machine

/-- A counter of a request: 0..7. -/
def counterOfNat (n : Nat) : Option (Fin 8) := if h : n < 8 then some ⟨n, h⟩ else none

/-- Changes the monitor unit. -/
def State.modMonitor (s : State) (g : Monitor → Monitor) : State :=
  s.modFloor fun f => { f with monitor := g f.monitor }

/-- The configuration of a counter in a response, in the order of R188. -/
def Counter.configBytes (c : Counter) : List Byte :=
  [flagByte c.enabled, byte c.stage.val, byte c.source.code, byte c.band.val, byte (filterCode c.filter),
   byte c.threshold, flagByte c.invert, flagByte c.edge]

/-- The values of all eight counters. -/
def Monitor.valueBytes (m : Monitor) : List Byte := m.counters.toList.flatMap fun c => bytes4 c.value

/-- The four band bounds. -/
def Monitor.boundBytes (m : Monitor) : List Byte := m.bounds.toList.flatMap bytes2

/-- The freeze state (R190): FROZEN 0, RUNNING 1. -/
def Monitor.freezeByte (m : Monitor) : Byte := if m.frozen then 0 else 1

/-- MON_CONFIG at its owner (R188): the value is kept, the edge memory becomes UNKNOWN. A flag other than 0 and 1 is
refused with the other ranges (log 17). -/
def State.ownMonConfig (x : MonConfigFields) (s : State) : State :=
  s.answer Code.monConfig do
    let k ← orElse (counterOfNat x.counter) .badRequest
    let stage ← orElse (stageOfNat x.stage) .badRequest
    let source ← orElse (CounterSource.ofCode x.source) .badRequest
    let band ← orElse (stageOfNat x.band) .badRequest
    let filter ← orElse (filterOfCode x.filter) .badRequest
    let enabled ← orElse (flagOfCode x.enable) .badRequest
    let invert ← orElse (flagOfCode x.invert) .badRequest
    let edge ← orElse (flagOfCode x.edge) .badRequest
    let threshold := min x.threshold 8
    let c : Counter :=
      { value := s.floor.monitor.counters[k].value, enabled := enabled, stage := stage, source := source, band := band,
        filter := filter, threshold := threshold, invert := invert, edge := edge, memory := .unknown }
    pure (s.modMonitor fun m => { m with counters := m.counters.set k c }, clampStatus (threshold != x.threshold),
      c.configBytes ++ bytes4 c.value)

/-- MON_CONFIG (R188). -/
def execMonConfig (q : Request MonConfigFields) (s : State) : Result :=
  .next (s.request Code.monConfig none parseMonConfig q State.ownMonConfig)

/-- The value of a counter becomes 0 (R189). -/
def Monitor.clear (m : Monitor) (k : Fin 8) : Monitor :=
  { m with counters := m.counters.set k { m.counters[k] with value := 0 } }

/-- MON_CLEAR at its owner (R189). -/
def State.ownMonClear (names : List Nat) (s : State) : State :=
  s.answer Code.monClear do
    require (!names.isEmpty && decide names.Nodup) .badRequest
    let named ← orElse (names.mapM counterOfNat) .badRequest
    let t := s.modMonitor fun m => named.foldl Monitor.clear m
    pure (t, .ok, t.floor.monitor.valueBytes)

/-- MON_CLEAR (R189). -/
def execMonClear (q : Request (List Nat)) (s : State) : Result :=
  .next (s.request Code.monClear none parseCounters q State.ownMonClear)

/-- MON_FREEZE at its owner (R190): 0 FROZEN, 1 RUNNING. -/
def State.ownMonFreeze (value : Nat) (s : State) : State :=
  s.answer Code.monFreeze do
    let running ← orElse (flagOfCode value) .badRequest
    let t := s.modMonitor fun m => { m with frozen := !running }
    pure (t, .ok, t.floor.monitor.freezeByte :: t.floor.monitor.valueBytes)

/-- MON_FREEZE (R190). -/
def execMonFreeze (q : Request Nat) (s : State) : Result :=
  .next (s.request Code.monFreeze none parse1 q State.ownMonFreeze)

/-- The highest band bound (R191). -/
def boundMax : Nat := 20001

/-- Sets a band bound. -/
def Monitor.setBound (m : Monitor) (e : Fin 4 × Nat) : Monitor :=
  { m with bounds := m.bounds.set e.1 (min e.2 boundMax) }

/-- A band and its bound as a request names them; a band above 3 is none. -/
def bandOfPair (e : Nat × Nat) : Option (Fin 4 × Nat) := (stageOfNat e.1).map fun b => (b, e.2)

/-- MON_SET_BANDS at its owner (R191). -/
def State.ownMonSetBands (pairs : List (Nat × Nat)) (s : State) : State :=
  s.answer Code.monSetBands do
    require (!pairs.isEmpty && decide (pairs.map (·.1)).Nodup) .badRequest
    let named ← orElse (pairs.mapM bandOfPair) .badRequest
    let t := s.modMonitor fun m => named.foldl Monitor.setBound m
    pure (t, clampStatus (pairs.any fun e => decide (boundMax < e.2)), t.floor.monitor.boundBytes)

/-- MON_SET_BANDS (R191). -/
def execMonSetBands (q : Request (List (Nat × Nat))) (s : State) : Result :=
  .next (s.request Code.monSetBands (some 4) parseBands q State.ownMonSetBands)

/-- The payload of a MON_READ response, in the order of R192. -/
def Monitor.bytes (m : Monitor) : List Byte :=
  m.counters.toList.flatMap (fun c => bytes4 c.value ++ c.configBytes) ++ m.boundBytes ++ [m.freezeByte]

/-- MON_READ at its owner (R192). -/
def State.ownMonRead (_ : Unit) (s : State) : State := s.respond Code.monRead .ok s.floor.monitor.bytes

/-- MON_READ (R192). -/
def execMonRead (q : Request Unit) (s : State) : Result :=
  .next (s.request Code.monRead none parseNone q State.ownMonRead)

end Sys2Proof.Machine
end

