-- ==== Sys2Proof/Machine/Events.lean ====
section
/-! DEFINITION. The events of the timecode pins and of the reference clock, and the time that passes while no command
waits (R76, R78, R86, R91, R92, R97, R138, R177). -/

namespace Sys2Proof.Machine

/-! ## Events -/

/-- A word ends on a pin: every tracker that selects the pin takes it, in an order the manual leaves open (R42, R76, R79;
log 5). -/
def Floor.wordArrives (f : Floor) (pin : Fin 6) (w : TimecodeWord) : Floor :=
  let f := f.atCount w.arrival
  f.forEachOpen (f.listeners pin) fun i f => f.trackerWord i w

/-- WORD_ARRIVAL (R76, R79). -/
def execWordArrival (pin : Fin 6) (w : TimecodeWord) (s : State) : Result :=
  .next (s.modFloor fun f => f.wordArrives pin w)

/-- SUBFRAME_ADVANCE (R97). -/
def execSubframeAdvance (i : Fin 4) (s : State) : Result := .next (s.modFloor fun f => f.subframeIncreases i)

/-- ACQUISITION_DEADLINE_EXPIRY (R86). -/
def execAcquisitionDeadlineExpiry (i : Fin 4) (s : State) : Result :=
  .next (s.modFloor fun f => f.acquisitionExpires i)

/-- LOCKED_DEADLINE_EXPIRY (R91). -/
def execLockedDeadlineExpiry (i : Fin 4) (s : State) : Result := .next (s.modFloor fun f => f.lockedExpires i)

/-- SYNTHETIC_BOUNDARY_DUE (R92). -/
def execSyntheticBoundaryDue (i : Fin 4) (s : State) : Result := .next (s.modFloor fun f => f.syntheticFallsDue i)

/-- A running gap ends at its expiry (R138); with no gap running there is none (log 4). -/
def Floor.gapExpires (f : Floor) (i : Fin 4) : Floor :=
  match (f.path i).gapExpiry with
  | none => f
  | some e => (f.atCount e).endGap i

/-- GAP_EXPIRY (R138). -/
def execGapExpiry (i : Fin 4) (s : State) : Result := .next (s.modFloor fun f => f.gapExpires i)

/-- The packet in progress ends (R177); with none in progress there is no end (log 4). -/
def Floor.packetEnds (f : Floor) (i : Fin 4) : Floor :=
  match (f.overlay i).inProgress with
  | none => f
  | some p => (f.atCount p.endCount).modOverlay i fun o => o.finish p.endCount

/-- PACKET_END (R177). -/
def execPacketEnd (i : Fin 4) (s : State) : Result := .next (s.modFloor fun f => f.packetEnds i)

/-! ## The reference counter while no command waits (R78; log 2) -/

/-- A timed event with the count at which it is due, where it is due at all. -/
def dueAt (due : Option Nat) (event : Instr) : List (Nat × Instr) :=
  match due with
  | some d => [(d, event)]
  | none => []

/-- The events of a stage that the reference clock brings, each with the count at which it is due. -/
def Floor.stageTimed (f : Floor) (i : Fin 4) : List (Nat × Instr) :=
  let t := f.tracker i
  dueAt (f.path i).gapExpiry (.gapExpiry i) ++ dueAt t.acquisitionDeadline (.acquisitionDeadlineExpiry i) ++
    dueAt t.lockedDeadline (.lockedDeadlineExpiry i) ++ dueAt t.syntheticDue (.syntheticBoundaryDue i) ++
    dueAt t.subframeDue (.subframeAdvance i) ++ dueAt ((f.overlay i).inProgress.map Sending.endCount) (.packetEnd i)

/-- The timed events of all stages. -/
def Floor.timed (f : Floor) : List (Nat × Instr) := (List.finRange 4).flatMap f.stageTimed

/-- The events that are due at the present count, the earliest ones only. -/
def Floor.due (f : Floor) : List Instr :=
  match (f.timed.map (·.1)).min? with
  | some d => if d ≤ f.now then (f.timed.filter fun e => e.1 == d).map (·.2) else []
  | none => []

/-- No command waits: the events that are due are put in the queue, in an order the manual leaves open, and where none is
due one reference count passes (log 2, log 5). -/
def State.idle (s : State) : State :=
  match s.floor.due with
  | [] => { s with floor := { s.floor with now := s.floor.now + 1 } }
  | l => { s with floor := s.floor.drawn l, pending := s.floor.openOrder l }

end Sys2Proof.Machine
end

