-- ==== Sys2Proof/Machine/Faults.lean ====
section
/-! DEFINITION. The requests of the fault logic and of the notice unit (spec file 08). -/

namespace Sys2Proof.Machine

/-! ## Fault logic (R151, R152) -/

/-- FAULT_CLEAR at its owner (R151): the response carries the state the runner left. -/
def State.ownFaultClear (stage : Nat) (s : State) : State :=
  s.answer Code.faultClear do
    let i ← orElse (stageOfNat stage) .badRequest
    let state := (s.floor.runner i).state
    require (state == .hold || state == .halted) .stageState
    pure (s.modFloor fun f => f.modRunner i fun r => { r with state := .standby, holdOff := 0 }, .ok, [byte state.code])

/-- FAULT_CLEAR (R151). -/
def execFaultClear (q : Request Nat) (s : State) : Result :=
  .next (s.request Code.faultClear none parse1 q State.ownFaultClear)

/-- The four modes of a response. -/
def FaultModes.bytes (m : FaultModes) : List Byte :=
  [byte m.dropout.code, byte m.offSpeed.code, byte m.rateMismatch.code, byte m.jumpInCue.code]

/-- FAULT_SET at its owner (R152). -/
def State.ownFaultSet (x : FaultSetFields) (s : State) : State :=
  s.answer Code.faultSet do
    let i ← orElse (stageOfNat x.stage) .badRequest
    require (x.dropout.isSome || x.offSpeed.isSome || x.rateMismatch.isSome || x.jumpInCue.isSome) .badRequest
    let dropout ← givenCode ResponseMode.ofCode x.dropout
    let offSpeed ← givenCode ResponseMode.ofCode x.offSpeed
    let rateMismatch ← givenCode ResponseMode.ofCode x.rateMismatch
    let jumpInCue ← givenCode ResponseMode.ofCode x.jumpInCue
    let m := s.floor.faults i
    let modes : FaultModes := ⟨dropout.getD m.dropout, offSpeed.getD m.offSpeed, rateMismatch.getD m.rateMismatch,
      jumpInCue.getD m.jumpInCue⟩
    pure (s.modFloor fun f => f.modFaults i fun _ => modes, .ok, modes.bytes)

/-- FAULT_SET (R152). -/
def execFaultSet (q : Request FaultSetFields) (s : State) : Result :=
  .next (s.request Code.faultSet (some 4) parseFaultSet q State.ownFaultSet)

/-- FAULT_READ at its owner (R152). -/
def State.ownFaultRead (stage : Nat) (s : State) : State :=
  s.answer Code.faultRead do
    let i ← orElse (stageOfNat stage) .badRequest
    pure (s, .ok, (s.floor.faults i).bytes ++ [byte (s.floor.runner i).state.code, byte (s.floor.runner i).holdOff])

/-- FAULT_READ (R152). -/
def execFaultRead (q : Request Nat) (s : State) : Result :=
  .next (s.request Code.faultRead none parse1 q State.ownFaultRead)

/-! ## The notice unit (R154, R156, R157) -/

/-- The bits of all 26 notices, in their order (log 23). -/
def noticeBytes (n : NoticeBits) : List Byte := n.toList.map flagByte

/-- NOTICE_READ at its owner (R156). -/
def State.ownNoticeRead (_ : Unit) (s : State) : State :=
  s.respond Code.noticeRead .ok (noticeBytes s.floor.notices ++ noticeBytes s.floor.mask ++ [flagByte s.floor.attention])

/-- NOTICE_READ (R156). -/
def execNoticeRead (q : Request Unit) (s : State) : Result :=
  .next (s.request Code.noticeRead none parseNone q State.ownNoticeRead)

/-- The notices a selection names (R154, R157): 1 to 26 of them, none twice, each scope and name agreeing. -/
def selectedNotices (names : List NoticeName) : Except Status (List Notice) := do
  require (!names.isEmpty && decide (names.length ≤ 26) && decide names.Nodup) .badRequest
  orElse (names.mapM noticeOfName) .badRequest

/-- NOTICE_MASK at its owner (R154); a value other than set and clear is refused (log 17). -/
def State.ownNoticeMask (x : NoticeMaskFields) (s : State) : State :=
  s.answer Code.noticeMask do
    let named ← selectedNotices x.notices
    let value ← orElse (flagOfCode x.value) .badRequest
    let mask := named.foldl (fun m n => m.set n.index value) s.floor.mask
    pure (s.modFloor fun f => { f with mask := mask }, .ok, noticeBytes mask)

/-- NOTICE_MASK (R154). -/
def execNoticeMask (q : Request NoticeMaskFields) (s : State) : Result :=
  .next (s.request Code.noticeMask none parseNoticeMask q State.ownNoticeMask)

/-- NOTICE_CLEAR at its owner (R157). -/
def State.ownNoticeClear (names : List NoticeName) (s : State) : State :=
  s.answer Code.noticeClear do
    let named ← selectedNotices names
    let t := s.modFloor fun f => named.foldl Floor.clearNotice f
    pure (t, .ok, noticeBytes t.floor.notices)

/-- NOTICE_CLEAR (R157). -/
def execNoticeClear (q : Request (List NoticeName)) (s : State) : Result :=
  .next (s.request Code.noticeClear none parseNotices q State.ownNoticeClear)

end Sys2Proof.Machine
end

