-- ==== Sys2Proof/Machine/Interlock.lean ====
section
/-! DEFINITION. The requests of the audio path interlock (R139, R141, R142). -/

namespace Sys2Proof.Machine

/-- The path state, the talkback gate and whether talkback is pending, for a TALKBACK response (R139). -/
def Floor.talkbackBytes (f : Floor) (i : Fin 4) : List Byte :=
  [byte (f.path i).state.code, flagByte (f.talkbackGate i), flagByte (f.talkbackPending i)]

/-- TALKBACK at its owner (R139): 1 "on", 0 "off". -/
def State.ownTalkback (x : StageValueFields) (s : State) : State :=
  s.answer Code.talkback do
    let i ← orElse (stageOfNat x.stage) .badRequest
    let on ← orElse (flagOfCode x.value) .badRequest
    let t := s.modFloor fun f => if on then f.talkbackOn i else f.talkbackOff i
    pure (t, .ok, t.floor.talkbackBytes i)

/-- TALKBACK (R139). -/
def execTalkback (q : Request StageValueFields) (s : State) : Result :=
  .next (s.request Code.talkback none parseStageValue q State.ownTalkback)

/-- PATH_SET at its owner (R141): the new guard gap counts at once, and protection demand is worked out again. The gap
length in the response takes one byte (R201; log 14). -/
def State.ownPathSet (x : StageValueFields) (s : State) : State :=
  s.answer Code.pathSet do
    let i ← orElse (stageOfNat x.stage) .badRequest
    let gap := min x.value 255
    let t := s.modFloor fun f => (f.modPath i fun p => { p with guardGap := gap }).settlePath i
    pure (t, clampStatus (gap != x.value), [byte gap, countByte (t.floor.gapLength i)])

/-- PATH_SET (R141). -/
def execPathSet (q : Request StageValueFields) (s : State) : Result :=
  .next (s.request Code.pathSet none parseStageValue q State.ownPathSet)

/-- The payload of a PATH_READ response, in the order of R142. -/
def Floor.pathBytes (f : Floor) (i : Fin 4) : List Byte :=
  let p := f.path i
  [byte p.state.code, flagByte (f.recordGate i), flagByte (f.talkbackGate i), flagByte p.talkWanted,
   flagByte (f.talkbackPending i), flagByte p.demand] ++
    orAbsent 4 (fun e => bytes4 (e - f.now)) p.gapExpiry ++ [byte p.guardGap]

/-- PATH_READ at its owner (R142). -/
def State.ownPathRead (stage : Nat) (s : State) : State :=
  s.answer Code.pathRead do
    let i ← orElse (stageOfNat stage) .badRequest
    pure (s, .ok, s.floor.pathBytes i)

/-- PATH_READ (R142). -/
def execPathRead (q : Request Nat) (s : State) : Result :=
  .next (s.request Code.pathRead none parse1 q State.ownPathRead)

end Sys2Proof.Machine
end

