-- ==== Sys2Proof/Machine/Lines.lean ====
section
/-! DEFINITION. The line matrix: the levels of the 24 cue lines and the requests that set and read them (spec file 09). -/

namespace Sys2Proof.Machine

/-! ## Logical levels (R160, R163, R165) -/

/-- The bank of a line (R160): bank b holds lines 6b to 6b+5. -/
def lineBank (l : Fin 24) : Fin 4 := ⟨l.val / 6, by omega⟩

/-- The even line of the neighbours a line belongs to (R165). -/
def evenLine (l : Fin 24) : Fin 24 := ⟨l.val - l.val % 2, by omega⟩

/-- The level of a line by its place in a DEDICATED bank of a stage (R160). -/
def Floor.dedicatedLevel (f : Floor) (i : Fin 4) (place : Nat) : Bool :=
  match place with
  | 0 => f.recordGate i
  | 1 => f.talkbackGate i
  | 2 => f.beepGate i
  | 3 => f.streamerActive i
  | 4 => f.anySpeak i
  | _ => f.stageFault i

/-- The level of a podium's STANDBY lamp state, with the blink (R163, R165, R166). -/
def Floor.standbyLevel (f : Floor) (i : Fin 4) (k : Fin 6) : Bool := f.lamp i k == .standby && f.blink i

/-- The level of a source of a ROUTED bank (R163); a bicolour source gives the level of the pair's even line (R165). -/
def Floor.sourceLevel (f : Floor) (src : LineSource) : Bool :=
  match src with
  | .constantInactive => false
  | .constantActive => true
  | .record i => f.recordGate i
  | .talkback i => f.talkbackGate i
  | .beep i => f.beepGate i
  | .streamerActive i => f.streamerActive i
  | .armed i => f.armedOutput i
  | .anySpeak i => f.anySpeak i
  | .stageFault i => f.stageFault i
  | .podiumSpeak i k => f.lamp i k == .speak
  | .podiumStandby i k => f.standbyLevel i k
  | .podiumBicolour i k => f.standbyLevel i k
  | .attention => f.attention

/-- The podium of the bicolour pair a line belongs to: the even line of its neighbours holds the source podium bicolour in
a ROUTED bank (R165). -/
def State.bicolour (s : State) (l : Fin 24) : Option (Fin 4 × Fin 6) :=
  if s.banks[lineBank l].mode = .routed then
    match s.lines[evenLine l].source with
    | .podiumBicolour i k => some (i, k)
    | _ => none
  else none

/-- The pairing of a line (R165, R169). -/
inductive Pairing where
  | even
  | odd
  | unpaired
  deriving DecidableEq, Repr

def Pairing.code : Pairing → Nat
  | .even => 0
  | .odd => 1
  | .unpaired => 2

/-- The pairing of a line as it stands (R165). -/
def State.pairing (s : State) (l : Fin 24) : Pairing :=
  if (s.bicolour l).isSome then (if l.val % 2 = 0 then .even else .odd) else .unpaired

/-- The logical level of a line (R160, R163, R165); true is active. -/
def State.logicalLevel (s : State) (l : Fin 24) : Bool :=
  let b := s.banks[lineBank l]
  match b.mode with
  | .dedicated => s.floor.dedicatedLevel b.stage (l.val % 6)
  | .routed =>
    match s.bicolour l with
    | some (i, k) => if l.val % 2 = 0 then s.floor.standbyLevel i k else s.floor.lamp i k == .speak
    | none => s.floor.sourceLevel s.lines[l].source

/-! ## Electrical levels (R159) -/

/-- What a line does at its pin (R159). -/
inductive Electrical where
  | drivenLow
  | drivenHigh
  | released
  deriving DecidableEq, Repr

def Electrical.code : Electrical → Nat
  | .drivenLow => 0
  | .drivenHigh => 1
  | .released => 2

/-- The table of R159. -/
def electricalOf (polarity : Polarity) (drive : Drive) (active : Bool) : Electrical :=
  match polarity, drive, active with
  | .normal, .pushPull, true => .drivenLow
  | .normal, .pushPull, false => .drivenHigh
  | .normal, .openDrain, true => .drivenLow
  | .normal, .openDrain, false => .released
  | .inverted, .pushPull, true => .drivenHigh
  | .inverted, .pushPull, false => .drivenLow
  | .inverted, .openDrain, true => .released
  | .inverted, .openDrain, false => .drivenLow

/-- The electrical level of a line; every line is released while RESET_N is low (R159). -/
def State.electricalLevel (s : State) (l : Fin 24) : Electrical :=
  if s.resetHeld then .released
  else electricalOf s.lines[l].polarity s.lines[l].drive (s.logicalLevel l)

/-! ## Requests (R162, R164, R169) -/

/-- A bank of a request: 0..3. -/
def bankOfNat (n : Nat) : Option (Fin 4) := stageOfNat n

/-- A line of a request: 0..23. -/
def lineOfNat (n : Nat) : Option (Fin 24) := if h : n < 24 then some ⟨n, h⟩ else none

/-- The six lines of a bank. -/
def bankLines (b : Fin 4) : List (Fin 24) :=
  (List.finRange 6).map fun k => ⟨6 * b.val + k.val, by omega⟩

/-- LINE_BANK_SET at its owner (R162). -/
def State.ownLineBankSet (x : BankSetFields) (s : State) : State :=
  s.answer Code.lineBankSet do
    let b ← orElse (bankOfNat x.bank) .badRequest
    let mode ← orElse (BankMode.ofCode x.mode) .badRequest
    let stage ← orElse (stageOfNat x.stage) .badRequest
    let t := { s with banks := s.banks.set b { mode := mode, stage := stage } }
    pure (t, .ok, [byte mode.code, byte stage.val] ++ (bankLines b).map fun l => flagByte (t.logicalLevel l))

/-- LINE_BANK_SET (R162). -/
def execLineBankSet (q : Request BankSetFields) (s : State) : Result :=
  .next (s.request Code.lineBankSet none parseBankSet q State.ownLineBankSet)

/-- A line as a response reports it: source, drive, polarity, pairing, logical and electrical level (R164, R169). In a
LINE_READ the two levels of a line follow its settings, line by line (log 39). -/
def State.lineBytes (s : State) (l : Fin 24) : List Byte :=
  s.lines[l].source.bytes ++
    [byte s.lines[l].drive.code, byte s.lines[l].polarity.code, byte (s.pairing l).code, flagByte (s.logicalLevel l),
     byte (s.electricalLevel l).code]

/-- The source podium bicolour is for even lines (R164, step 4). -/
def sourceFits (l : Fin 24) (src : LineSource) : Bool :=
  match src with
  | .podiumBicolour _ _ => l.val % 2 == 0
  | _ => true

/-- LINE_SET at its owner (R164). -/
def State.ownLineSet (x : LineSetFields) (s : State) : State :=
  s.answer Code.lineSet do
    let l ← orElse (lineOfNat x.line) .badRequest
    require (x.source.isSome || x.drive.isSome || x.polarity.isSome) .badRequest
    let drive ← givenCode Drive.ofCode x.drive
    let polarity ← givenCode Polarity.ofCode x.polarity
    let line := s.lines[l]
    let source ← match x.source with
      | some f => orElse (lineSourceOf f) .badRequest
      | none => pure line.source
    require (sourceFits l source) .badRequest
    let set : Line := { source := source, drive := drive.getD line.drive, polarity := polarity.getD line.polarity }
    let t := { s with lines := s.lines.set l set }
    pure (t, .ok, t.lineBytes l)

/-- LINE_SET (R164). -/
def execLineSet (q : Request LineSetFields) (s : State) : Result :=
  .next (s.request Code.lineSet (some 3) parseLineSet q State.ownLineSet)

/-- The payload of a LINE_READ response, in the order of R169 (log 39 for the place of the levels). -/
def State.matrixBytes (s : State) : List Byte :=
  [byte s.strap.val] ++ s.banks.toList.flatMap (fun b => [byte b.mode.code, byte b.stage.val]) ++
    (List.finRange 24).flatMap s.lineBytes

/-- LINE_READ at its owner (R169). -/
def State.ownLineRead (_ : Unit) (s : State) : State := s.respond Code.lineRead .ok s.matrixBytes

/-- LINE_READ (R169). -/
def execLineRead (q : Request Unit) (s : State) : Result :=
  .next (s.request Code.lineRead none parseNone q State.ownLineRead)

end Sys2Proof.Machine
end

