-- ==== Sys2Proof/Machine/LinkPort.lean ====
section
/-! DEFINITION. The commands of the link port itself and of RESET_N (R194 to R200). -/

namespace Sys2Proof.Machine

/-- DEVICE_RESET at its owner (R199): every block takes its reset values, with the strap level latched at the last pin
reset, and no response is placed. -/
def State.ownDeviceReset (_ : Unit) (s : State) : State := s.resetBlocks s.strap

/-- DEVICE_RESET (R199). -/
def execDeviceReset (q : Request Unit) (s : State) : Result :=
  .next (s.request Code.deviceReset none parseNone q State.ownDeviceReset)

/-- Whether a code belongs to a request of section 11.4, or is the code of a fetch window (R194). -/
def knownCode (code : Byte) : Bool := code == 0 || requestIndex.contains code

/-- UNKNOWN_REQUEST (R196): an assembled window with a code outside the index is refused BAD_REQUEST, whatever bytes
follow. A code of the index, or 0x00, is no unknown request, and changes nothing (log 4). -/
def execUnknownRequest (code : Byte) (_ : List Byte) (s : State) : Result :=
  if knownCode code then .next s
  else .next (s.request code none parseNone (.fields ()) fun _ t => t.refuse code .badRequest)

/-- DROPPED_REQUEST (R195): the end of a window that began while the link was BUSY. Where its first byte was not taken
before, it is taken now; a window that is not dropped is none, and nothing changes (log 4). -/
def execDroppedRequest (s : State) : Result :=
  match s.link.window, s.link.state with
  | .dropped, _ => .next s.dropWindow
  | .noWindow, .busy => if s.resetHeld then .next s else .next s.dropWindow
  | _, _ => .next s

/-- FETCH (R198). -/
def execFetch (w : FetchWindow) (s : State) : Result := .next (s.fetchWindow w.clocked w.acrossReset)

/-- The window in progress is ignored to its end (R194). -/
def State.ignoreWindow (s : State) : State := { s with link := { s.link with window := .ignored } }

/-- WINDOW_FIRST_BYTE (R195); the byte 0x00 begins a fetch window (R194, R198), and a window whose CS_N fell before RESET_N
rose is ignored to its end (R194, R200). -/
def execWindowFirstByte (w : FirstByte) (s : State) : Result :=
  .next (if w.acrossReset then s.ignoreWindow else if w.code = 0 then s.beginFetch else s.firstByte w.code)

/-- A window in progress is ignored to its end (R194). -/
def Link.ignoreWindow (w : WindowState) : WindowState :=
  match w with
  | .noWindow => .noWindow
  | _ => .ignored

/-- Every block takes its reset values; a window in progress is ignored to its end (R194, R200). -/
def State.pinReset (s : State) (level : Fin 4) (held : Bool) : State :=
  let t := s.resetBlocks level
  { t with resetHeld := held, link := { t.link with window := Link.ignoreWindow s.link.window } }

/-- PIN_RESET (R200): RESET_N falls; the latched strap level stands until it rises (R161). -/
def execPinReset (s : State) : Result := .next (s.pinReset s.strap true)

/-- RESET_RELEASE (R200, R161): RESET_N rises, and the level at the STRAP pin is latched. With RESET_N high there is no
release (log 4). -/
def execResetRelease (level : Fin 4) (s : State) : Result :=
  if s.resetHeld then .next (s.pinReset level false) else .next s

/-! ## CS_N and MISO (R194, R198, R200) -/

/-- CS_N is low: a window is in progress (R194), as far as the commands show it (log 26). -/
def State.csLow (s : State) : Bool := s.link.window != .noWindow

/-- MISO is driven while CS_N is low (R194), and left undriven while RESET_N is low (R200). -/
def State.misoDriven (s : State) : Bool := s.csLow && !s.resetHeld

/-- What MISO carries under byte k of the window in progress, byte 0 its first; absent while MISO is not driven. In a fetch
window that found a response waiting it is the response, in any other fetch window and in a request window 0xFF (R194,
R198). In a window that is ignored to its end R194 and R200 do not say what MISO carries once RESET_N has risen: a FREE VALUE
(DESIGN CHOICE, log 40). -/
def State.misoByte (s : State) (k : Nat) : Option Byte :=
  if s.misoDriven then
    match s.link.window, s.link.response with
    | .fetching true, some r => some (((0xFF :: r.bytes)[k]?).getD 0xFF)
    | .ignored, _ => some (Config.ignoredMisoByte s.floor.now k)
    | _, _ => some 0xFF
  else none

/-! ## The window a host clocks (R194, R202) -/

/-- The command a whole window stands for, by its first byte (R194, section 11.4): a window with no whole byte is none, 0x00
is a fetch, a code of the index its request (CUE_RETIRE by the force flag it carries, R37, R38), any other an unknown
request. The window begins and ends with RESET_N high. -/
def windowCommand : List Byte → Option Instr
  | [] => none
  | code :: bytes =>
    if code = 0 then some (.fetch ⟨bytes.length, false⟩)
    else if code = Code.cueCreate then some (.cueCreate (.window bytes))
    else if code = Code.cueEdit then some (.cueEdit (.window bytes))
    else if code = Code.cueRetire then
      some (if (bytes[3]?).map BitVec.toNat = some 1 then .forcedRetire (.window bytes) else .cueRetire (.window bytes))
    else if code = Code.cueRead then some (.cueRead (.window bytes))
    else if code = Code.cueMark then some (.cueMark (.window bytes))
    else if code = Code.reelOpen then some (.reelOpen (.window bytes))
    else if code = Code.reelSetDefaults then some (.reelSetDefaults (.window bytes))
    else if code = Code.reelSetRate then some (.reelSetRate (.window bytes))
    else if code = Code.reelRead then some (.reelRead (.window bytes))
    else if code = Code.reelClose then some (.reelClose (.window bytes))
    else if code = Code.cueFind then some (.cueFind (.window bytes))
    else if code = Code.cueNext then some (.cueNext (.window bytes))
    else if code = Code.cueList then some (.cueList (.window bytes))
    else if code = Code.charDefine then some (.charDefine (.window bytes))
    else if code = Code.charRetire then some (.charRetire (.window bytes))
    else if code = Code.charRead then some (.charRead (.window bytes))
    else if code = Code.castAssign then some (.castAssign (.window bytes))
    else if code = Code.castRelease then some (.castRelease (.window bytes))
    else if code = Code.castRead then some (.castRead (.window bytes))
    else if code = Code.trackerSet then some (.trackerSet (.window bytes))
    else if code = Code.trackerRead then some (.trackerRead (.window bytes))
    else if code = Code.stageEnable then some (.stageEnable (.window bytes))
    else if code = Code.stageDisable then some (.stageDisable (.window bytes))
    else if code = Code.stageReset then some (.stageReset (.window bytes))
    else if code = Code.stageSelectReel then some (.stageSelectReel (.window bytes))
    else if code = Code.stageSet then some (.stageSet (.window bytes))
    else if code = Code.stageRead then some (.stageRead (.window bytes))
    else if code = Code.talkback then some (.talkback (.window bytes))
    else if code = Code.pathSet then some (.pathSet (.window bytes))
    else if code = Code.pathRead then some (.pathRead (.window bytes))
    else if code = Code.faultClear then some (.faultClear (.window bytes))
    else if code = Code.faultSet then some (.faultSet (.window bytes))
    else if code = Code.faultRead then some (.faultRead (.window bytes))
    else if code = Code.noticeRead then some (.noticeRead (.window bytes))
    else if code = Code.noticeMask then some (.noticeMask (.window bytes))
    else if code = Code.noticeClear then some (.noticeClear (.window bytes))
    else if code = Code.lineBankSet then some (.lineBankSet (.window bytes))
    else if code = Code.lineSet then some (.lineSet (.window bytes))
    else if code = Code.lineRead then some (.lineRead (.window bytes))
    else if code = Code.overlaySet then some (.overlaySet (.window bytes))
    else if code = Code.overlayRead then some (.overlayRead (.window bytes))
    else if code = Code.monConfig then some (.monConfig (.window bytes))
    else if code = Code.monClear then some (.monClear (.window bytes))
    else if code = Code.monFreeze then some (.monFreeze (.window bytes))
    else if code = Code.monSetBands then some (.monSetBands (.window bytes))
    else if code = Code.monRead then some (.monRead (.window bytes))
    else if code = Code.deviceReset then some (.deviceReset (.window bytes))
    else some (.unknownRequest code bytes)

end Sys2Proof.Machine
end

