-- ==== Sys2Proof/Machine/OverlayFeed.lean ====
section
/-! DEFINITION. The requests of the overlay transmitters (R178, R179). -/

namespace Sys2Proof.Machine

/-- OVERLAY_SET at its owner (R178). -/
def State.ownOverlaySet (x : StageValueFields) (s : State) : State :=
  s.answer Code.overlaySet do
    let i ← orElse (stageOfNat x.stage) .badRequest
    let phase := min x.value 63
    pure (s.modFloor fun f => f.modOverlay i fun o => { o with phase := phase }, clampStatus (phase != x.value),
      [byte phase])

/-- OVERLAY_SET (R178). -/
def execOverlaySet (q : Request StageValueFields) (s : State) : Result :=
  .next (s.request Code.overlaySet none parseStageValue q State.ownOverlaySet)

/-- The payload of an OVERLAY_READ response, in the order of R179: phase, IDLE 0 or SENDING 1, whether a pending packet
is held, the label of the last frame sent at the tracker rate, the flash marks. -/
def Floor.overlayBytes (f : Floor) (i : Fin 4) : List Byte :=
  let o := f.overlay i
  [byte o.phase, flagByte o.inProgress.isSome, flagByte o.waiting.isSome] ++
    orAbsent 4 (fun n => labelBytes (Label.ofFrame (f.tracker i).rate n)) o.lastFrame ++ listBytes bytes2 o.flashMarks

/-- OVERLAY_READ at its owner (R179). -/
def State.ownOverlayRead (stage : Nat) (s : State) : State :=
  s.answer Code.overlayRead do
    let i ← orElse (stageOfNat stage) .badRequest
    pure (s, .ok, s.floor.overlayBytes i)

/-- OVERLAY_READ (R179). -/
def execOverlayRead (q : Request Nat) (s : State) : Result :=
  .next (s.request Code.overlayRead none parse1 q State.ownOverlayRead)

end Sys2Proof.Machine
end

