-- ==== Sys2Proof/Machine/Reels.lean ====
section
/-! DEFINITION. Reels: opening, defaults, rate, reading, the lookups of the order list, closing (spec file 03). -/

namespace Sys2Proof.Machine

/-! ## Opening and setting (R48 to R51) -/

/-- The defaults derived from the base of a rate (R48). -/
def derivedDefaults (base : Nat) : Timing where
  lead := 2 * base
  beepCount := 3
  beepSpacing := base
  beepLength := 2
  preRoll := base
  punchIn := base / 4
  punchOut := base / 2

/-- Whether a reel number is held by a slot in a state. -/
def Floor.reelHeld (f : Floor) (number : Nat) (state : ReelState) : Bool :=
  f.reels.any fun e => e.2.number == number && e.2.state == state

/-- REEL_OPEN at its owner (R48). The lowest FREE slot is taken; which one cannot be seen (R46; log 9). -/
def State.ownReelOpen (x : ReelRateFields) (s : State) : State :=
  s.answer Code.reelOpen do
    require (decide (1 ≤ x.reel) && decide (x.reel ≤ 99)) .badRequest
    let rate ← orElse (Rate.ofCode x.rate) .badRequest
    require (!s.floor.reelHeld x.reel .reelOpened) .duplicateLabel
    require (!s.floor.reelHeld x.reel .reelClosing) .reelClosing
    require (decide (s.floor.reels.length < Config.reelSlotCount)) .reelTableFull
    let defaults := derivedDefaults rate.base
    let reel : Reel := { state := .reelOpened, number := x.reel, rate := rate, defaults := defaults, order := [] }
    pure (s.modFloor fun f => { f with reels := Table.put (Table.lowestFree f.reels) reel f.reels }, .ok, defaults.bytes)

/-- REEL_OPEN (R48). -/
def execReelOpen (q : Request ReelRateFields) (s : State) : Result :=
  .next (s.request Code.reelOpen none parseReelRate q State.ownReelOpen)

/-- REEL_SET_DEFAULTS at its owner (R49). The empty selection is refused before the reel is resolved (log 35). -/
def State.ownReelSetDefaults (x : ReelDefaultsFields) (s : State) : State :=
  s.answer Code.reelSetDefaults do
    require (timingGiven x.timing) .badRequest
    let (slot, reel) ← s.floor.resolveReel x.reel
    let asked := askedTiming x.timing reel.defaults
    let timing := asked.fitted
    pure (s.modFloor fun f => f.modReel slot fun r => { r with defaults := timing },
      clampStatus (timing != asked), timing.bytes)

/-- REEL_SET_DEFAULTS (R49). -/
def execReelSetDefaults (q : Request ReelDefaultsFields) (s : State) : Result :=
  .next (s.request Code.reelSetDefaults (some 7) parseReelDefaults q State.ownReelSetDefaults)

/-- REEL_SET_RATE at its owner (R50). The rate code is refused before the reel is resolved (log 35). -/
def State.ownReelSetRate (x : ReelRateFields) (s : State) : State :=
  s.answer Code.reelSetRate do
    let rate ← orElse (Rate.ofCode x.rate) .badRequest
    let (slot, reel) ← s.floor.resolveReel x.reel
    require reel.order.isEmpty .reelNotEmpty
    pure (s.modFloor fun f => f.modReel slot fun r => { r with rate := rate }, .ok, [])

/-- REEL_SET_RATE (R50). -/
def execReelSetRate (q : Request ReelRateFields) (s : State) : Result :=
  .next (s.request Code.reelSetRate none parseReelRate q State.ownReelSetRate)

/-- REEL_READ at its owner (R51). -/
def State.ownReelRead (number : Nat) (s : State) : State :=
  s.answer Code.reelRead do
    let (_, reel) ← s.floor.resolveReel number
    pure (s, .ok, [byte reel.number, byte reel.rate.code] ++ reel.defaults.bytes ++ [countByte reel.order.length])

/-- REEL_READ (R51). -/
def execReelRead (q : Request Nat) (s : State) : Result :=
  .next (s.request Code.reelRead none parse1 q State.ownReelRead)

/-! ## Lookups (R55 to R57) -/

/-- The first cue of an order list with a property: its order index and its handle. -/
def Floor.firstInOrder (f : Floor) (which : Cue → Bool) : Nat → List Nat → Option (Nat × Nat)
  | _, [] => none
  | k, h :: rest =>
    match f.cue h with
    | some c => if which c then some (k, h) else f.firstInOrder which (k + 1) rest
    | none => f.firstInOrder which (k + 1) rest

/-- A handle and its order index, or their absence (R55, R201). -/
def foundBytes : Option (Nat × Nat) → List Byte
  | some (k, h) => bytes2 h ++ bytes2 k
  | none => absent 4

/-- CUE_FIND at its owner (R55). -/
def State.ownCueFind (x : CueFindFields) (s : State) : State :=
  s.answer Code.cueFind do
    require (numberOk x.number) .badRequest
    let suffix ← orElse (suffixOf x.suffix) .badRequest
    let (_, reel) ← s.floor.resolveReel x.reel
    pure (s, .ok, foundBytes (s.floor.firstInOrder
      (fun c => c.fields.number == x.number && c.fields.suffix == suffix) 0 reel.order))

/-- CUE_FIND (R55). -/
def execCueFind (q : Request CueFindFields) (s : State) : Result :=
  .next (s.request Code.cueFind none parseCueFind q State.ownCueFind)

/-- The in-point of a found cue as a position at a rate, or its absence. -/
def Floor.foundInPoint (f : Floor) (rate : Rate) (found : Option (Nat × Nat)) : List Byte :=
  orAbsent 5 (fun c : Cue => positionBytes rate c.fields.inPoint) (found.bind fun e => f.cue e.2)

/-- CUE_NEXT at its owner (R56). -/
def State.ownCueNext (x : CueNextFields) (s : State) : State :=
  s.answer Code.cueNext do
    let (_, reel) ← s.floor.resolveReel x.reel
    let p ← orElse (positionValue reel.rate x.position) .invalidPosition
    let found := s.floor.firstInOrder (fun c => decide (p ≤ c.fields.inPoint)) 0 reel.order
    pure (s, .ok, foundBytes found ++ s.floor.foundInPoint reel.rate found)

/-- CUE_NEXT (R56). -/
def execCueNext (q : Request CueNextFields) (s : State) : Result :=
  .next (s.request Code.cueNext none parseCueNext q State.ownCueNext)

/-- CUE_LIST at its owner (R57). Start and count are refused before the reel is resolved (log 35). -/
def State.ownCueList (x : CueListFields) (s : State) : State :=
  s.answer Code.cueList do
    require (decide (x.start ≤ 1023) && decide (1 ≤ x.count) && decide (x.count ≤ 32)) .badRequest
    let (_, reel) ← s.floor.resolveReel x.reel
    pure (s, .ok, [countByte reel.order.length] ++ bytes2 x.start ++
      listBytes bytes2 ((reel.order.drop x.start).take x.count))

/-- CUE_LIST (R57). -/
def execCueList (q : Request CueListFields) (s : State) : Result :=
  .next (s.request Code.cueList none parseCueList q State.ownCueList)

/-! ## Closing (R58 to R61) -/

/-- The selection of a reel is cleared on a stage that has it selected (R61). -/
def Stage.clearSelection (slot : Nat) (st : Stage) : Stage :=
  if st.runner.selected = some slot then
    { st with runner := { st.runner with selected := none, manualReel := none } }
  else st

/-- A closure completes (R61). -/
def State.completeClosure (s : State) (slot : Nat) : State :=
  { s.modFloor fun f =>
      ({ f with reels := Table.erase slot f.reels, stages := f.stages.map (Stage.clearSelection slot) }).setNotice
        .reelClosed with
    closure := none }

/-- Completes the closure where the closing reel's cue count is 0 (R61). -/
def State.closeIfEmpty (s : State) (slot : Nat) : State :=
  match s.floor.reel slot with
  | some r => if r.order.isEmpty then s.completeClosure slot else s
  | none => s

/-- The stages that chase a reel (R59). -/
def Floor.stagesChasing (f : Floor) (slot : Nat) : List (Fin 4) :=
  (List.finRange 4).filter fun i => (f.runner i).selected == some slot && (f.runner i).state.working

/-- REEL_CLOSE at its owner (R58, R59): the stages that chase the reel go to STANDBY, in an open order (R42; log 5);
a reel without cues is closed at once (R61). -/
def State.ownReelClose (number : Nat) (s : State) : State :=
  s.answer Code.reelClose do
    let (slot, _) ← s.floor.resolveReel number
    require s.closure.isNone .maintBusy
    let t := s.modFloor fun f =>
      let f := f.modReel slot fun r => { r with state := .reelClosing }
      f.forEachOpen (f.stagesChasing slot) fun i f => f.stopChase i
    pure (({ t with closure := some slot }).closeIfEmpty slot, .accepted, [])

/-- REEL_CLOSE (R58). -/
def execReelClose (q : Request Nat) (s : State) : Result :=
  .next (s.request Code.reelClose none parse1 q State.ownReelClose)

/-- The last cue of a closing reel is freed (R60, R53). -/
def Floor.freeLast (f : Floor) (slot handle : Nat) : Floor :=
  (f.modReel slot fun r => { r with order := r.order.dropLast }).freeCue handle

/-- CLOSURE_STEP (R60); with the closure side IDLE there is no step. -/
def execClosureStep (s : State) : Result :=
  match s.closure with
  | none => .next s
  | some slot =>
    match (s.floor.reel slot).bind fun r => r.order.getLast? with
    | none => .next (s.closeIfEmpty slot)
    | some handle => .next ((s.modFloor fun f => f.freeLast slot handle).closeIfEmpty slot)

end Sys2Proof.Machine
end

