-- ==== Sys2Proof/Machine/Stages.lean ====
section
/-! DEFINITION. Stage requests: enable, disable, reset, reel selection, settings, reading (spec file 06). -/

namespace Sys2Proof.Machine

/-! ## Enable, disable, reset (R104 to R106, R143, R158, R180, R185) -/

/-- The runner goes to STANDBY and its tracker to SEARCHING (R104). -/
def Floor.enable (f : Floor) (i : Fin 4) : Floor :=
  ((f.modTracker i Tracker.enterSearching).modRunner i fun r => { r with state := .standby }).trackerChanged i

/-- STAGE_ENABLE at its owner (R104). -/
def State.ownStageEnable (stage : Nat) (s : State) : State :=
  s.answer Code.stageEnable do
    let i ← orElse (stageOfNat stage) .badRequest
    require ((s.floor.runner i).state == .offline) .stageState
    pure (s.modFloor fun f => f.enable i, .ok, [])

/-- STAGE_ENABLE (R104). -/
def execStageEnable (q : Request Nat) (s : State) : Result :=
  .next (s.request Code.stageEnable none parse1 q State.ownStageEnable)

/-- The edge memories of a stage's counters become UNKNOWN (R185). -/
def Floor.forgetEdges (f : Floor) (i : Fin 4) : Floor :=
  f.modCounters fun c => if c.stage = i then { c with memory := .unknown } else c

/-- The runner goes OFFLINE (R105). -/
def Runner.goOffline (position : Nat) (r : Runner) : Runner :=
  { r with
    state := .offline
    blankingCount := 0
    holdOff := 0
    workingCast := Podiums.none
    lastPosition := position
    selected := if r.mode = .auto then none else r.selected }

/-- A stage is disabled (R105, R143, R180): its runs are aborted at the tracker position, the runner goes OFFLINE, the
tracker IDLE with its position kept, the path FREE at once without a guard gap. -/
def Floor.disable (f : Floor) (i : Fin 4) : Floor :=
  let p := (f.tracker i).position
  let f := (f.runner i).runs.foldl (fun f r => f.abortRun i r p) f
  let f := f.modRunner i (Runner.goOffline p)
  let f := f.modTracker i Tracker.enterIdle
  ((f.freePath i).quietOverlay i).forgetEdges i

/-- STAGE_DISABLE at its owner (R105). -/
def State.ownStageDisable (stage : Nat) (s : State) : State :=
  s.answer Code.stageDisable do
    let i ← orElse (stageOfNat stage) .badRequest
    pure (s.modFloor fun f => f.disable i, .ok, [])

/-- STAGE_DISABLE (R105). -/
def execStageDisable (q : Request Nat) (s : State) : Result :=
  .next (s.request Code.stageDisable none parse1 q State.ownStageDisable)

/-- The six notices of a stage become clear (R158). -/
def Floor.clearStageNotices (f : Floor) (i : Fin 4) : Floor :=
  [.dropout, .offSpeed, .rateMismatch, .jumpInCue, .cueStarved, .latePunch].foldl
    (fun f n => f.clearNotice (.ofStage i n)) f

/-- A stage is reset (R106): as a disable, and the position becomes 0 and the stage's notices clear. -/
def Floor.resetStage (f : Floor) (i : Fin 4) : Floor :=
  ((f.disable i).place i 0).clearStageNotices i

/-- STAGE_RESET at its owner (R106). -/
def State.ownStageReset (stage : Nat) (s : State) : State :=
  s.answer Code.stageReset do
    let i ← orElse (stageOfNat stage) .badRequest
    pure (s.modFloor fun f => f.resetStage i, .ok, [])

/-- STAGE_RESET (R106). -/
def execStageReset (q : Request Nat) (s : State) : Result :=
  .next (s.request Code.stageReset none parse1 q State.ownStageReset)

/-! ## Reel selection (R109) -/

/-- A selection is taken (R109): where the mode and the reel stay as they were nothing changes, else a working runner
aborts its runs and goes to STANDBY. -/
def Floor.select (f : Floor) (i : Fin 4) (mode : SelectionMode) (manual selected : Option Nat) : Floor :=
  let r := f.runner i
  if r.mode = mode ∧ r.manualReel = manual ∧ r.selected = selected then f
  else (f.modRunner i fun r => { r with mode := mode, manualReel := manual, selected := selected }).stopChase i

/-- STAGE_SELECT_REEL at its owner (R109). -/
def State.ownStageSelectReel (x : SelectReelFields) (s : State) : State :=
  s.answer Code.stageSelectReel do
    let i ← orElse (stageOfNat x.stage) .badRequest
    match x.choice with
    | 0 => do
      require (decide (1 ≤ x.reel) && decide (x.reel ≤ 99)) .badRequest
      let (slot, _) ← s.floor.resolveReel x.reel
      pure (s.modFloor fun f => f.select i .manual (some x.reel) (some slot), .ok, [])
    | 1 => pure (s.modFloor fun f => f.select i .manual none none, .ok, [])
    | 2 => pure (s.modFloor fun f => f.select i .auto none none, .ok, [])
    | _ => .error .badRequest

/-- STAGE_SELECT_REEL (R109). -/
def execStageSelectReel (q : Request SelectReelFields) (s : State) : Result :=
  .next (s.request Code.stageSelectReel none parseSelectReel q State.ownStageSelectReel)

/-! ## Record mode, skip-printed, blanking length (R112 to R114) -/

/-- A change to REHEARSE (R113): each PUNCHED run reports an ABORTED take and leaves its window, each WAITING run
withdraws its claim; then the path takes the release. -/
def Floor.toRehearse (f : Floor) (i : Fin 4) : Floor :=
  let p := (f.tracker i).position
  let f := (f.runner i).runs.foldl (fun f r => f.reportRun i r p .aborted) f
  (f.modRunner i fun r =>
    { r with
      recordMode := .rehearse
      runs := r.runs.map fun x =>
        { x with punch := .unpunched, punchedAt := none, claim := none, lateGrant := none } }).settlePath i

/-- A change to RECORD (R114): the runs' demands count from now on. -/
def Floor.toRecord (f : Floor) (i : Fin 4) : Floor :=
  (f.modRunner i fun r => { r with recordMode := .record }).settlePath i

/-- A record mode is taken; one equal to that held changes nothing (R112). -/
def Floor.setRecordMode (f : Floor) (i : Fin 4) (m : RecordMode) : Floor :=
  if (f.runner i).recordMode = m then f
  else
    match m with
    | .rehearse => f.toRehearse i
    | .record => f.toRecord i

/-- STAGE_SET at its owner (R112). -/
def State.ownStageSet (x : StageSetFields) (s : State) : State :=
  s.answer Code.stageSet do
    let i ← orElse (stageOfNat x.stage) .badRequest
    require (x.recordMode.isSome || x.skipPrinted.isSome || x.blankingLength.isSome) .badRequest
    let mode ← givenCode RecordMode.ofCode x.recordMode
    let skip ← givenCode flagOfCode x.skipPrinted
    let r := s.floor.runner i
    let asked := x.blankingLength.getD r.blankingLength
    let length := min asked 30
    let mode := mode.getD r.recordMode
    let skip := skip.getD r.skipPrinted
    pure (s.modFloor fun f =>
        (f.modRunner i fun r => { r with skipPrinted := skip, blankingLength := length }).setRecordMode i mode,
      clampStatus (length != asked), [byte mode.code, flagByte skip, byte length])

/-- STAGE_SET (R112). -/
def execStageSet (q : Request StageSetFields) (s : State) : Result :=
  .next (s.request Code.stageSet (some 3) parseStageSet q State.ownStageSet)

/-! ## Reading a stage (R130) -/

/-- An entry of the run list (R130): the number and suffix from the cue record as it stands. -/
def Floor.runBytes (f : Floor) (rate : Rate) (r : Run) : List Byte :=
  bytes2 r.handle ++
    (match f.cue r.handle with
     | some c => bytes2 c.fields.number ++ [suffixByte c.fields.suffix]
     | none => absent 2 ++ [0]) ++
    [byte r.phase.code, byte r.punch.code] ++ orAbsent 5 (positionBytes rate) r.punchedAt

/-- The payload of a STAGE_READ response, in the order of R130. -/
def Floor.stageBytes (f : Floor) (i : Fin 4) : List Byte :=
  let r := f.runner i
  [byte r.state.code, byte r.mode.code] ++ orAbsent 1 (fun n => [byte n]) r.manualReel ++
    [f.reelNumberByte r.selected, byte r.recordMode.code, flagByte r.skipPrinted, byte r.blankingLength,
     byte r.blankingCount, byte r.holdOff, flagByte (f.beepGate i), flagByte (f.streamerActive i),
     flagByte (f.armedOutput i), flagByte (f.recordRequest i), flagByte (f.anySpeak i), flagByte (f.stageFault i)] ++
    (List.finRange 6).map (fun k => byte (f.lamp i k).code) ++
    listBytes (f.runBytes (f.tracker i).rate) r.runs

/-- STAGE_READ at its owner (R130). -/
def State.ownStageRead (stage : Nat) (s : State) : State :=
  s.answer Code.stageRead do
    let i ← orElse (stageOfNat stage) .badRequest
    pure (s, .ok, s.floor.stageBytes i)

/-- STAGE_READ (R130). -/
def execStageRead (q : Request Nat) (s : State) : Result :=
  .next (s.request Code.stageRead none parse1 q State.ownStageRead)

end Sys2Proof.Machine
end

