-- ==== Sys2Proof/Machine/Trackers.lean ====
section
/-! DEFINITION. Setting and reading a tracker (R100, R101). -/

namespace Sys2Proof.Machine

/-- A change of rate (R82, R100): the estimate, the speed and in-speed start afresh, and a frame index outside the new
day is replaced by 0. A value equal to the one held changes nothing. -/
def Tracker.takeRate (r : Rate) (t : Tracker) : Tracker :=
  if t.rate = r then t
  else
    { t with rate := r, e8 := 8 * r.nominal, speed := 10000, inSpeed := true,
             position := if r.framesPerDay ≤ t.position / 64 then t.position % 64 else t.position }

/-- The settings of a TRACKER_SET, fitted (R100). -/
structure TrackerSettings where
  source : SourceChoice
  rate : Rate
  lockCount : Nat
  jumpConfirm : Nat
  freewheelLimit : Nat
  deriving DecidableEq, Repr

/-- A tracker takes its settings; a change of source or rate takes it to SEARCHING unless it is IDLE (R83, R100). -/
def Tracker.takeSettings (x : TrackerSettings) (t : Tracker) : Tracker :=
  let restart := (t.source != x.source || t.rate != x.rate) && t.state != .idle
  let t := { t with source := x.source, lockCount := x.lockCount, jumpConfirm := x.jumpConfirm,
                    freewheelLimit := x.freewheelLimit }
  let t := t.takeRate x.rate
  if restart then t.enterSearching else t

/-- The settings are taken, and a change to SEARCHING is handed to the runner (R99, R100; log 21). -/
def Floor.setTracker (f : Floor) (i : Fin 4) (x : TrackerSettings) : Floor :=
  let t := f.tracker i
  let restart := (t.source != x.source || t.rate != x.rate) && t.state != .idle
  let f := f.modTracker i (Tracker.takeSettings x)
  if restart then f.trackerChanged i else f

/-- The five settings of a response. -/
def TrackerSettings.bytes (x : TrackerSettings) : List Byte :=
  [byte x.source.code, byte x.rate.code, byte x.lockCount, byte x.jumpConfirm, byte x.freewheelLimit]

/-- The settings a tracker holds. -/
def Tracker.settings (t : Tracker) : TrackerSettings :=
  ⟨t.source, t.rate, t.lockCount, t.jumpConfirm, t.freewheelLimit⟩

/-- TRACKER_SET at its owner (R100). -/
def State.ownTrackerSet (x : TrackerSetFields) (s : State) : State :=
  s.answer Code.trackerSet do
    let i ← orElse (stageOfNat x.stage) .badRequest
    require (x.source.isSome || x.rate.isSome || x.lockCount.isSome || x.jumpConfirm.isSome || x.freewheelLimit.isSome)
      .badRequest
    let source ← givenCode SourceChoice.ofCode x.source
    let rate ← givenCode Rate.ofCode x.rate
    let t := s.floor.tracker i
    let asked : TrackerSettings := ⟨source.getD t.source, rate.getD t.rate, x.lockCount.getD t.lockCount,
      x.jumpConfirm.getD t.jumpConfirm, x.freewheelLimit.getD t.freewheelLimit⟩
    let fitted : TrackerSettings := { asked with
      lockCount := fit 2 16 asked.lockCount
      jumpConfirm := fit 1 8 asked.jumpConfirm
      freewheelLimit := fit 0 60 asked.freewheelLimit }
    pure (s.modFloor fun f => f.setTracker i fitted, clampStatus (fitted != asked), fitted.bytes)

/-- TRACKER_SET (R100). -/
def execTrackerSet (q : Request TrackerSetFields) (s : State) : Result :=
  .next (s.request Code.trackerSet (some 5) parseTrackerSet q State.ownTrackerSet)

/-- The payload of a TRACKER_READ response, in the order of R101. -/
def Tracker.bytes (t : Tracker) : List Byte :=
  t.settings.bytes ++ [byte t.state.code] ++
    (if t.state = .locked ∨ t.state = .freewheel then [byte (directionCode t.direction)] else absent 1) ++
    positionBytes t.rate t.position ++ bytes4 t.estimate ++ bytes2 t.speed ++ [flagByte t.inSpeed] ++
    orAbsent 1 (fun a : Acquisition => [byte a.count]) t.acquisition ++
    orAbsent 5 (fun c : Candidate => labelBytes c.label ++ [byte c.confirm]) t.candidate ++ [byte t.synthetic]

/-- TRACKER_READ at its owner (R101). -/
def State.ownTrackerRead (stage : Nat) (s : State) : State :=
  s.answer Code.trackerRead do
    let i ← orElse (stageOfNat stage) .badRequest
    pure (s, .ok, (s.floor.tracker i).bytes)

/-- TRACKER_READ (R101). -/
def execTrackerRead (q : Request Nat) (s : State) : Result :=
  .next (s.request Code.trackerRead none parse1 q State.ownTrackerRead)

end Sys2Proof.Machine
end

