-- ==== Sys2Proof/Machine/Dispatch.lean ====
section
/-! DEFINITION. The dispatch: one arm for each command, each one direct call of its meaning. -/

namespace Sys2Proof.Machine

def exec (i : Instr) (s : State) : Host.Outcome State Fault Refusal :=
  match i with
  | .cueCreate q => Sys2Proof.Machine.execCueCreate q s
  | .cueEdit q => Sys2Proof.Machine.execCueEdit q s
  | .cueRetire q => Sys2Proof.Machine.execCueRetire q s
  | .forcedRetire q => Sys2Proof.Machine.execForcedRetire q s
  | .cueCreateCompletion => Sys2Proof.Machine.execCueCreateCompletion s
  | .cueEditCompletion => Sys2Proof.Machine.execCueEditCompletion s
  | .cueRetireCompletion => Sys2Proof.Machine.execCueRetireCompletion s
  | .cueRead q => Sys2Proof.Machine.execCueRead q s
  | .cueMark q => Sys2Proof.Machine.execCueMark q s
  | .reelOpen q => Sys2Proof.Machine.execReelOpen q s
  | .reelSetDefaults q => Sys2Proof.Machine.execReelSetDefaults q s
  | .reelSetRate q => Sys2Proof.Machine.execReelSetRate q s
  | .reelRead q => Sys2Proof.Machine.execReelRead q s
  | .reelClose q => Sys2Proof.Machine.execReelClose q s
  | .cueFind q => Sys2Proof.Machine.execCueFind q s
  | .cueNext q => Sys2Proof.Machine.execCueNext q s
  | .cueList q => Sys2Proof.Machine.execCueList q s
  | .charDefine q => Sys2Proof.Machine.execCharDefine q s
  | .charRetire q => Sys2Proof.Machine.execCharRetire q s
  | .charRead q => Sys2Proof.Machine.execCharRead q s
  | .castAssign q => Sys2Proof.Machine.execCastAssign q s
  | .castRelease q => Sys2Proof.Machine.execCastRelease q s
  | .castRead q => Sys2Proof.Machine.execCastRead q s
  | .trackerSet q => Sys2Proof.Machine.execTrackerSet q s
  | .trackerRead q => Sys2Proof.Machine.execTrackerRead q s
  | .stageEnable q => Sys2Proof.Machine.execStageEnable q s
  | .stageDisable q => Sys2Proof.Machine.execStageDisable q s
  | .stageReset q => Sys2Proof.Machine.execStageReset q s
  | .stageSelectReel q => Sys2Proof.Machine.execStageSelectReel q s
  | .stageSet q => Sys2Proof.Machine.execStageSet q s
  | .stageRead q => Sys2Proof.Machine.execStageRead q s
  | .talkback q => Sys2Proof.Machine.execTalkback q s
  | .pathSet q => Sys2Proof.Machine.execPathSet q s
  | .pathRead q => Sys2Proof.Machine.execPathRead q s
  | .faultClear q => Sys2Proof.Machine.execFaultClear q s
  | .faultSet q => Sys2Proof.Machine.execFaultSet q s
  | .faultRead q => Sys2Proof.Machine.execFaultRead q s
  | .noticeRead q => Sys2Proof.Machine.execNoticeRead q s
  | .noticeMask q => Sys2Proof.Machine.execNoticeMask q s
  | .noticeClear q => Sys2Proof.Machine.execNoticeClear q s
  | .lineBankSet q => Sys2Proof.Machine.execLineBankSet q s
  | .lineSet q => Sys2Proof.Machine.execLineSet q s
  | .lineRead q => Sys2Proof.Machine.execLineRead q s
  | .overlaySet q => Sys2Proof.Machine.execOverlaySet q s
  | .overlayRead q => Sys2Proof.Machine.execOverlayRead q s
  | .monConfig q => Sys2Proof.Machine.execMonConfig q s
  | .monClear q => Sys2Proof.Machine.execMonClear q s
  | .monFreeze q => Sys2Proof.Machine.execMonFreeze q s
  | .monSetBands q => Sys2Proof.Machine.execMonSetBands q s
  | .monRead q => Sys2Proof.Machine.execMonRead q s
  | .deviceReset q => Sys2Proof.Machine.execDeviceReset q s
  | .unknownRequest code bytes => Sys2Proof.Machine.execUnknownRequest code bytes s
  | .droppedRequest => Sys2Proof.Machine.execDroppedRequest s
  | .fetch clocked => Sys2Proof.Machine.execFetch clocked s
  | .pinReset => Sys2Proof.Machine.execPinReset s
  | .resetRelease level => Sys2Proof.Machine.execResetRelease level s
  | .wordArrival pin word => Sys2Proof.Machine.execWordArrival pin word s
  | .subframeAdvance stage => Sys2Proof.Machine.execSubframeAdvance stage s
  | .acquisitionDeadlineExpiry stage => Sys2Proof.Machine.execAcquisitionDeadlineExpiry stage s
  | .lockedDeadlineExpiry stage => Sys2Proof.Machine.execLockedDeadlineExpiry stage s
  | .syntheticBoundaryDue stage => Sys2Proof.Machine.execSyntheticBoundaryDue stage s
  | .gapExpiry stage => Sys2Proof.Machine.execGapExpiry stage s
  | .closureStep => Sys2Proof.Machine.execClosureStep s
  | .packetEnd stage => Sys2Proof.Machine.execPacketEnd stage s
  | .windowFirstByte code => Sys2Proof.Machine.execWindowFirstByte code s

end Sys2Proof.Machine
end

