-- ==== Sys2Proof/Safety.lean ====
section
/-! DEFINITION. What a safe run keeps: the invariants of the part, and the words claims use for a request window that the
port takes, for the answer it gives, and for what a command reads of its window. -/

namespace Sys2Proof.Machine

/-! ## Windows and answers -/

/-- The port takes a request now: its window has been assembled, or the whole window comes while the link is not BUSY and
RESET_N is high (R194, R195; log 16). -/
def State.Receives (s : State) : Prop :=
  s.link.window = .assembling ∨ (s.link.window = .noWindow ∧ s.resetHeld = false ∧ s.link.state ≠ .busy)

/-- The port drops a request: its window was marked dropped, or the whole window comes while the link is BUSY (R195). -/
def State.Drops (s : State) : Prop :=
  s.link.window = .dropped ∨ (s.link.window = .noWindow ∧ s.resetHeld = false ∧ s.link.state = .busy)

/-- The port ignores a request: its window began before or during a pin reset (R194). -/
def State.Ignores (s : State) : Prop :=
  s.link.window = .ignored ∨ (s.link.window = .noWindow ∧ s.resetHeld = true)

/-- A state with the window ended and a response placed, and nothing else changed (R197). -/
def State.replied (s : State) (code : Byte) (status : Status) (payload : List Byte) : State :=
  { s with link := { state := .ready, window := .noWindow, requestSlot := [],
                     response := some { status := status, code := code, payload := payload },
                     fetched := s.link.fetched } }

/-- A state with the window ended and a store operation accepted, and nothing else changed (R27, R197). -/
def State.accepted (s : State) (op : StoreOp) : State :=
  { s with
    operation := some op
    link := { state := .busy, window := .noWindow, requestSlot := [], response := none, fetched := s.link.fetched } }

/-- A state with the window ended, and nothing else changed. -/
def State.windowEnded (s : State) : State :=
  { s with link := { s.link with window := .noWindow, requestSlot := [] } }

/-- A request is carried out on the floor alone: a response, and the floor changed. -/
def State.carriedOut (s : State) (floor : Floor) (code : Byte) (status : Status) (payload : List Byte) : State :=
  ({ s with floor := floor }).replied code status payload

/-- The status that refuses a reading of a window. -/
def refusal {α : Type} : Except Status α → Option Status
  | .ok _ => none
  | .error st => some st

/-- The code of a request command, and the status with which the port refuses its window at handover, if any (R196). The
commands that are no request windows have none. -/
def requestOf : Instr → Option (Byte × Option Status)
  | .cueCreate q => some (Code.cueCreate, refusal (readRequest (some 7) parseCueCreate q))
  | .cueEdit q => some (Code.cueEdit, refusal (readRequest (some 12) parseCueEdit q))
  | .cueRetire q => some (Code.cueRetire, refusal (readRequest none parseRetire q))
  | .forcedRetire q => some (Code.cueRetire, refusal (readRequest none parseRetire q))
  | .cueCreateCompletion => none
  | .cueEditCompletion => none
  | .cueRetireCompletion => none
  | .cueRead q => some (Code.cueRead, refusal (readRequest none parseHandle q))
  | .cueMark q => some (Code.cueMark, refusal (readRequest (some 2) parseCueMark q))
  | .reelOpen q => some (Code.reelOpen, refusal (readRequest none parseReelRate q))
  | .reelSetDefaults q => some (Code.reelSetDefaults, refusal (readRequest (some 7) parseReelDefaults q))
  | .reelSetRate q => some (Code.reelSetRate, refusal (readRequest none parseReelRate q))
  | .reelRead q => some (Code.reelRead, refusal (readRequest none parse1 q))
  | .reelClose q => some (Code.reelClose, refusal (readRequest none parse1 q))
  | .cueFind q => some (Code.cueFind, refusal (readRequest none parseCueFind q))
  | .cueNext q => some (Code.cueNext, refusal (readRequest none parseCueNext q))
  | .cueList q => some (Code.cueList, refusal (readRequest none parseCueList q))
  | .charDefine q => some (Code.charDefine, refusal (readRequest none parseCharDefine q))
  | .charRetire q => some (Code.charRetire, refusal (readRequest none parse1 q))
  | .charRead q => some (Code.charRead, refusal (readRequest none parse1 q))
  | .castAssign q => some (Code.castAssign, refusal (readRequest none parseCastAssign q))
  | .castRelease q => some (Code.castRelease, refusal (readRequest none parse1 q))
  | .castRead q => some (Code.castRead, refusal (readRequest none parse1 q))
  | .trackerSet q => some (Code.trackerSet, refusal (readRequest (some 5) parseTrackerSet q))
  | .trackerRead q => some (Code.trackerRead, refusal (readRequest none parse1 q))
  | .stageEnable q => some (Code.stageEnable, refusal (readRequest none parse1 q))
  | .stageDisable q => some (Code.stageDisable, refusal (readRequest none parse1 q))
  | .stageReset q => some (Code.stageReset, refusal (readRequest none parse1 q))
  | .stageSelectReel q => some (Code.stageSelectReel, refusal (readRequest none parseSelectReel q))
  | .stageSet q => some (Code.stageSet, refusal (readRequest (some 3) parseStageSet q))
  | .stageRead q => some (Code.stageRead, refusal (readRequest none parse1 q))
  | .talkback q => some (Code.talkback, refusal (readRequest none parseStageValue q))
  | .pathSet q => some (Code.pathSet, refusal (readRequest none parseStageValue q))
  | .pathRead q => some (Code.pathRead, refusal (readRequest none parse1 q))
  | .faultClear q => some (Code.faultClear, refusal (readRequest none parse1 q))
  | .faultSet q => some (Code.faultSet, refusal (readRequest (some 4) parseFaultSet q))
  | .faultRead q => some (Code.faultRead, refusal (readRequest none parse1 q))
  | .noticeRead q => some (Code.noticeRead, refusal (readRequest none parseNone q))
  | .noticeMask q => some (Code.noticeMask, refusal (readRequest none parseNoticeMask q))
  | .noticeClear q => some (Code.noticeClear, refusal (readRequest none parseNotices q))
  | .lineBankSet q => some (Code.lineBankSet, refusal (readRequest none parseBankSet q))
  | .lineSet q => some (Code.lineSet, refusal (readRequest (some 3) parseLineSet q))
  | .lineRead q => some (Code.lineRead, refusal (readRequest none parseNone q))
  | .overlaySet q => some (Code.overlaySet, refusal (readRequest none parseStageValue q))
  | .overlayRead q => some (Code.overlayRead, refusal (readRequest none parse1 q))
  | .monConfig q => some (Code.monConfig, refusal (readRequest none parseMonConfig q))
  | .monClear q => some (Code.monClear, refusal (readRequest none parseCounters q))
  | .monFreeze q => some (Code.monFreeze, refusal (readRequest none parse1 q))
  | .monSetBands q => some (Code.monSetBands, refusal (readRequest (some 4) parseBands q))
  | .monRead q => some (Code.monRead, refusal (readRequest none parseNone q))
  | .deviceReset q => some (Code.deviceReset, refusal (readRequest none parseNone q))
  | .unknownRequest code _ => if knownCode code then none else some (code, some .badRequest)
  | .droppedRequest => none
  | .fetch _ => none
  | .pinReset => none
  | .resetRelease _ => none
  | .wordArrival _ _ => none
  | .subframeAdvance _ => none
  | .acquisitionDeadlineExpiry _ => none
  | .lockedDeadlineExpiry _ => none
  | .syntheticBoundaryDue _ => none
  | .gapExpiry _ => none
  | .closureStep => none
  | .packetEnd _ => none
  | .windowFirstByte _ => none

/-! ## Word arrivals -/

/-- The tracker of a stage takes the arrivals of a pin, and no other tracker does (R76, R79). -/
def Floor.SoleListener (f : Floor) (pin : Fin 6) (i : Fin 4) : Prop :=
  ∀ j, (selectedPin j (f.tracker j).source = pin ∧ (f.tracker j).state ≠ .idle) ↔ j = i

/-! ## Paths -/

/-- The table of R132 for a stage's path, and that a run is WAITING or PUNCHED in RECORD mode only (R113, R120). -/
structure Stage.PathTable (st : Stage) : Prop where
  free : st.path.state = .free → st.path.gapExpiry = none ∧ st.path.talkWanted = false
  talk : st.path.state = .talk → st.path.gapExpiry = none ∧ st.path.talkWanted = true
  record : st.path.state = .record → st.path.gapExpiry = none
  gap : st.path.state = .gap → st.path.gapExpiry.isSome = true
  demand : st.path.demand = true ↔ (st.path.state = .protected_ ∨ st.path.state = .record)
  windows : ∀ r ∈ st.runner.runs, r.punch ≠ .unpunched → st.runner.recordMode = .record

/-- Where a run of a stage is WAITING or PUNCHED, its path is in RECORD, or in PROTECTED with a gap running (R120, R136). -/
def Stage.ClaimsStand (st : Stage) : Prop :=
  (∃ r ∈ st.runner.runs, r.punch ≠ .unpunched) →
    st.path.state = .record ∨ (st.path.state = .protected_ ∧ st.path.gapExpiry.isSome = true)

/-! ## Aborted runs: what they leave of their cues, of the monitor unit and of their stage -/

/-- The take of a PUNCHED run that is aborted (R41, R122); a run that holds no position was punched where the take ends
(log 25). -/
def Run.abortedTake (i : Fin 4) (endedAt : Nat) (r : Run) : Take :=
  { stage := i, punchedAt := r.punchedAt.getD endedAt, endedAt := endedAt, outcome := .aborted }

/-- The runs that name a cue, of those that a rule aborts, each with its stage. -/
def Floor.abortedRuns (f : Floor) (gone : Fin 4 → Run → Bool) (handle : Nat) : List (Fin 4 × Run) :=
  (List.finRange 4).flatMap fun i =>
    ((f.runner i).runs.filter fun r => gone i r && r.handle == handle).map fun r => (i, r)

/-- From f to g the runs `gone` are aborted, those of stage i with ended-at `ended i`, and nothing else happens to a cue.
Each lowers the in-flight count of its cue; each PUNCHED one makes a take report, which raises the take count up to 999 and
becomes the last take (of reports that two stages make together, any), and is counted as an aborted take (R40, R41, R42,
R122, R186). -/
structure Floor.TakesAborted (f g : Floor) (gone : Fin 4 → Run → Bool) (ended : Fin 4 → Nat) : Prop where
  cues : ∀ h c, f.cue h = some c →
    let runs := f.abortedRuns gone h
    let takes := (runs.filter fun e => e.2.punch == .punched).map fun e => e.2.abortedTake e.1 (ended e.1)
    ∃ d, g.cue h = some { c with
        inFlight := c.inFlight - runs.length
        takeCount := if takes = [] then c.takeCount else min (c.takeCount + takes.length) 999
        lastTake := d } ∧
      (takes = [] → d = c.lastTake) ∧ (takes ≠ [] → ∃ t ∈ takes, d = some t)
  free : ∀ h, f.cue h = none → g.cue h = none
  counted : ∀ k : Fin 8,
    let c := f.monitor.counters[k]
    let n := ((f.runner c.stage).runs.filter fun r => gone c.stage r && r.punch == .punched).length
    c.source = .takesAborted → g.monitor.counters[k].value =
      if n ≠ 0 ∧ c.enabled = true ∧ f.monitor.frozen = false then min (c.value + n) 4294967295 else c.value

/-- Protection demand of a run list, at the position, the guard gap and the record mode of its stage (R134; log 41). -/
def Floor.demands (f : Floor) (i : Fin 4) (runs : List Run) : Bool :=
  (f.runner i).recordMode == .record && runs.any fun r => r.punch != .unpunched ||
    match f.cue r.handle with
    | some c => decide (c.fields.preemptionPoint (f.path i).guardGap ≤ (f.tracker i).position) &&
        decide ((f.tracker i).position < c.fields.punchInPoint)
    | none => false

/-- The length of a guard gap of a stage in reference counts (R133). -/
def Floor.gapCounts (f : Floor) (i : Fin 4) : Nat := (f.path i).guardGap * (f.tracker i).rate.nominal / 64

/-- A path after an event that leaves no claim to be granted, with whether a claim is left and whether protection demand is
held. RECORD without a claim is released, with a guard gap from `now` where its length is not 0; PROTECTED without demand
goes to GAP where a gap runs, and else to TALK or FREE; demand takes FREE, TALK and GAP to PROTECTED, and releases the
talkback gate (R133, R135, R137). -/
def Path.settled (p : Path) (now gap : Nat) (claims demands : Bool) : Path :=
  let rest : PathState := if p.talkWanted then .talk else .free
  match p.state with
  | .record =>
    if claims then p
    else if gap = 0 then { p with state := if demands then .protected_ else rest, demand := demands }
    else { p with state := if demands then .protected_ else .gap, gapExpiry := some (now + gap), demand := demands }
  | .protected_ =>
    if demands then p else { p with state := if p.gapExpiry.isSome then .gap else rest, demand := false }
  | .talk =>
    if demands then { p with
      state := .protected_, demand := true, gapExpiry := if gap = 0 then p.gapExpiry else some (now + gap) }
    else p
  | _ => if demands then { p with state := .protected_, demand := true } else p

/-- A stage after some of its runs were aborted: the others stand, no aborted run keeps a flash mark (R175), and the path
takes the release (R137). -/
structure Floor.StageReleased (f g : Floor) (i : Fin 4) (gone : Run → Bool) : Prop where
  runs : (f.stage i).PathTable → (f.stage i).ClaimsStand →
    (g.runner i).runs = (f.runner i).runs.filter fun r => !gone r
  marks : (g.overlay i).flashMarks = (f.overlay i).flashMarks.filter fun h =>
    !((f.runner i).runs.any fun r => gone r && r.handle == h)
  path : (f.stage i).PathTable → (f.stage i).ClaimsStand →
    let rest := (f.runner i).runs.filter fun r => !gone r
    g.path i = (f.path i).settled f.now (f.gapCounts i) (rest.any fun r => r.punch != .unpunched) (f.demands i rest)

/-- From f to g a stage loses all its runs, their takes ended at a position (R122). -/
def Floor.LosesRuns (f g : Floor) (i : Fin 4) (endedAt : Nat) : Prop :=
  (g.runner i).runs = [] ∧ f.TakesAborted g (fun j _ => j == i) (fun _ => endedAt) ∧ f.StageReleased g i fun _ => true

/-! ## The layouts of the requests (section 11.5), for the checks of R196 -/

/-- How many fields the presence field of a request marks, for the requests that begin with one (R201). -/
def selectableFields (code : Byte) : Option Nat :=
  if code = Code.cueCreate then some 7
  else if code = Code.cueEdit then some 12
  else if code = Code.cueMark then some 2
  else if code = Code.reelSetDefaults then some 7
  else if code = Code.trackerSet then some 5
  else if code = Code.stageSet then some 3
  else if code = Code.faultSet then some 4
  else if code = Code.lineSet then some 3
  else if code = Code.monSetBands then some 4
  else none

/-- The presence field of a payload marks a field that the request does not have (R196, step 2). -/
def MarksAbsentField (code : Byte) (payload : List Byte) : Prop :=
  ∃ n a b rest, selectableFields code = some n ∧ payload = a :: b :: rest ∧ 2 ^ n ≤ a.toNat * 256 + b.toNat

/-- The number at a place of a payload; 0 beyond its end. -/
def byteAt (payload : List Byte) (k : Nat) : Nat := (payload[k]?.map BitVec.toNat).getD 0

/-- How many bytes the given ones of n one-byte fields take, marked from bit k of the presence field on. -/
def givenBytes (payload : List Byte) (k n : Nat) : Nat :=
  ((List.range n).filter fun j => (byteAt payload 0 * 256 + byteAt payload 1).testBit (k + j)).length

/-- The lengths that the layout of a request gives for the presence field and the count fields of a payload (R196, R201;
logs 11, 15, 38). A payload too short for its presence or count fields has another length than these as well. -/
def layoutLengths (code : Byte) (payload : List Byte) : List Nat :=
  let given := givenBytes payload
  let marked := fun k => 0 < given k 1
  if code = Code.cueCreate then [17 + byteAt payload 6 + given 0 7]
  else if code = Code.cueEdit then
    [4 + 2 * given 0 1 + given 1 1 +
      (if marked 2 then 1 + byteAt payload (4 + 2 * given 0 1 + given 1 1) else 0) + 5 * given 3 2 + given 5 7]
  else if code = Code.cueRetire then [3]
  else if code = Code.cueRead then [2]
  else if code = Code.cueMark then [4 + given 0 2]
  else if code = Code.reelSetDefaults then [3 + given 0 7]
  else if code = Code.cueFind then [4]
  else if code = Code.cueNext then [6]
  else if code = Code.cueList then [4]
  else if code = Code.charDefine then [2 + byteAt payload 1]
  else if code = Code.castAssign then [4]
  else if code = Code.trackerSet then [3 + given 0 5]
  else if code = Code.stageSelectReel then [3]
  else if code = Code.stageSet then [3 + given 0 3]
  else if code = Code.faultSet then [3 + given 0 4]
  else if code = Code.noticeMask then [2 + 2 * byteAt payload 0]
  else if code = Code.noticeClear then [1 + 2 * byteAt payload 0]
  else if code = Code.lineBankSet then [3]
  else if code = Code.lineSet then
    if marked 0 then
      let source := byteAt payload 3
      (if source ≤ 1 ∨ source = 12 then [0] else if source ≤ 8 then [1] else if source ≤ 11 then [2] else [0, 1, 2]).map
        fun parameters => 4 + parameters + given 1 2
    else [3 + given 1 2]
  else if code = Code.monConfig then [9]
  else if code = Code.monClear then [1 + byteAt payload 0]
  else if code = Code.monSetBands then [2 + 2 * given 0 4]
  else if code ∈ [Code.reelOpen, Code.reelSetRate, Code.talkback, Code.pathSet, Code.overlaySet] then [2]
  else if code ∈ [Code.noticeRead, Code.lineRead, Code.monRead, Code.deviceReset] then [0]
  else [1]

/-! ## Invariants -/

/-- The link state, the slots and the maintenance unit agree (R193, R27, R28): BUSY while a store operation is in
progress, READY while a response waits, and a window is assembled in EMPTY only. -/
structure State.LinkAgrees (s : State) : Prop where
  busy : s.link.state = .busy ↔ s.operation.isSome = true
  ready : s.link.state = .ready ↔ s.link.response.isSome = true
  assembling : s.link.window = .assembling → s.link.state = .empty

/-- While RESET_N is low every block stands at its reset values (R200); the reference counter, the model's own fields,
the level of RESET_N, the strap level latched before and the window that is ignored stand beside them. -/
def State.HeldAtReset (s : State) : Prop :=
  s.resetHeld = true →
    (s.link.window = .noWindow ∨ s.link.window = .ignored) ∧
    s = { State.reset with
          floor := { Floor.reset with now := s.floor.now, draws := s.floor.draws }
          link := { Link.reset with window := s.link.window }
          banks := strapBanks s.strap
          strap := s.strap
          resetHeld := true
          pending := s.pending }

/-- What the state of a stage's runner says of its tracker and of its other fields (R82, R103, R105, R116, R128, R145). -/
structure Stage.Agrees (st : Stage) : Prop where
  offline : st.tracker.state = .idle ↔ st.runner.state = .offline
  runs : st.runner.runs ≠ [] → st.runner.state.working = true
  contexts : st.runner.runs.length ≤ Config.runContextCount
  blanking : st.runner.blankingCount ≠ 0 → st.runner.state = .blanked
  holdOff : st.runner.holdOff ≠ 0 → st.runner.state = .hold

/-- No counter value is above 4,294,967,295 (R187). -/
def Floor.CountersBounded (f : Floor) : Prop := ∀ k : Fin 8, f.monitor.counters[k].value ≤ Config.counterMax

/-- The stores are canonical tables of their sizes (R21, R46, R63), no two reels share a number (R46), and a creation in
progress has a free handle (R32). -/
structure State.StoresCanonical (s : State) : Prop where
  cues : Table.WF Config.handleCount s.floor.cues
  reels : Table.WF Config.reelSlotCount s.floor.reels
  characters : Table.WF Config.characterCount s.floor.chars
  numbers : (s.floor.reels.map fun e => e.2.number).Nodup
  room : ∀ slot fields status, s.operation = some (.create slot fields status) →
    s.floor.cues.length < Config.handleCount

/-- The cast map names no character twice, and only DEFINED ones (R69). -/
structure Floor.CastMap (f : Floor) : Prop where
  once : ∀ (i j : Fin 4) (k l : Fin 6) (id : Nat), f.casts[i][k] = some id → f.casts[j][l] = some id → i = j ∧ k = l
  defined : ∀ (i : Fin 4) (k : Fin 6) (id : Nat), f.casts[i][k] = some id → (f.character id).isSome = true

/-! ## The rules of the stores -/

/-- The ranges of R26. -/
structure Timing.InRange (t : Timing) : Prop where
  lead : 12 ≤ t.lead ∧ t.lead ≤ 240
  beepCount : t.beepCount ≤ 3
  beepSpacing : 6 ≤ t.beepSpacing ∧ t.beepSpacing ≤ 60
  beepLength : 1 ≤ t.beepLength ∧ t.beepLength ≤ 6 ∧ t.beepLength < t.beepSpacing
  preRoll : t.preRoll ≤ 120
  punchIn : t.punchIn ≤ 48 ∧ t.punchIn ≤ t.lead
  punchOut : t.punchOut ≤ 96

/-- What every stored cue satisfies, on a reel of a rate, with the characters that are DEFINED (R12, R24, R25, R26). -/
structure CueFields.Stored (r : Rate) (chars : List (Nat × Character)) (f : CueFields) : Prop where
  number : 1 ≤ f.number ∧ f.number ≤ 9999
  suffix : ∀ c, f.suffix = some c → 0x41 ≤ c ∧ c ≤ 0x5A
  listed : 1 ≤ f.characters.length ∧ f.characters.length ≤ 4 ∧ f.characters.Nodup
  defined : ∀ id ∈ f.characters, (Table.find id chars).isSome = true
  span : f.inPoint < f.outPoint ∧ f.outPoint ≤ f.inPoint + 460800 ∧ f.outPoint ≤ r.dayEnd
  timing : f.timing.InRange

/-- How many run contexts of all stages name a cue (R40). -/
def Floor.runsNaming (f : Floor) (handle : Nat) : Nat :=
  ((List.finRange 4).map fun i => ((f.runner i).runs.map Run.handle).count handle).sum

/-- How many live cues list a character (R66). -/
def Floor.cuesListing (f : Floor) (id : Nat) : Nat := f.cues.countP fun e => e.2.fields.characters.contains id

/-- The reel of a slot is OPEN, with a rate. -/
def Floor.OpenReel (f : Floor) (slot : Nat) (r : Rate) : Prop :=
  ∃ reel, f.reel slot = some reel ∧ reel.state = .reelOpened ∧ reel.rate = r

/-- What the stores, the order lists, the run lists and the maintenance unit say of each other (R24, R26, R28, R29, R40,
R46, R52, R58, R66). -/
structure State.StoreRules (s : State) : Prop where
  /-- Each live cue belongs to a reel and is stored by the ranges (R22, R26). -/
  cues : ∀ h c, s.floor.cue h = some c → ∃ reel, s.floor.reel c.reel = some reel ∧ c.fields.Stored reel.rate s.floor.chars
  /-- Labels are unique within a reel (R24). -/
  labels : ∀ h k c d, s.floor.cue h = some c → s.floor.cue k = some d → c.reel = d.reel →
    c.fields.number = d.fields.number → c.fields.suffix = d.fields.suffix → h = k
  /-- An order list holds the live cues of its reel and no other handle (R52). -/
  members : ∀ slot reel, s.floor.reel slot = some reel →
    ∀ h, h ∈ reel.order ↔ ∃ c, s.floor.cue h = some c ∧ c.reel = slot
  /-- An order list is strictly increasing, and so holds each cue once (R52). -/
  sorted : ∀ slot reel, s.floor.reel slot = some reel → reel.order.Pairwise fun h k =>
    ∃ c d, s.floor.cue h = some c ∧ s.floor.cue k = some d ∧ c.fields.before d.fields = true
  /-- Reel numbers and defaults lie in their ranges (R46). -/
  reels : ∀ slot reel, s.floor.reel slot = some reel → (1 ≤ reel.number ∧ reel.number ≤ 99) ∧ reel.defaults.InRange
  /-- Each use count is the number of live cues that list the character (R66). -/
  uses : ∀ id ch, s.floor.character id = some ch → ch.useCount = s.floor.cuesListing id
  /-- A stage names a cue in one run context at most, a live cue of the OPEN reel it has selected (R106, R115). -/
  runs : ∀ i, ((s.floor.runner i).runs.map Run.handle).Nodup ∧ ∀ r ∈ (s.floor.runner i).runs,
    ∃ c rate, s.floor.cue r.handle = some c ∧ (s.floor.runner i).selected = some c.reel ∧ s.floor.OpenReel c.reel rate
  /-- Each in-flight count is the number of run contexts that name the cue (R40). -/
  inFlight : ∀ h c, s.floor.cue h = some c → c.inFlight = s.floor.runsNaming h
  /-- A lock stands exactly while its operation is in progress (R29). -/
  locks : ∀ h c, s.floor.cue h = some c →
    (c.lock = .editing ↔ ∃ fields st, s.operation = some (.edit h fields st)) ∧
    (c.lock = .retiring ↔ ∃ st, s.operation = some (.retire h st))
  /-- A creation in progress holds a record that can be stored, on an OPEN reel, with a free label (R28, R31). -/
  creating : ∀ slot fields st, s.operation = some (.create slot fields st) → ∃ rate, s.floor.OpenReel slot rate ∧
    fields.Stored rate s.floor.chars ∧ s.floor.labelTaken slot fields.number fields.suffix none = false
  /-- An edit in progress holds a record that can be stored in the place of its cue, on an OPEN reel (R28, R35). -/
  editing : ∀ h fields st, s.operation = some (.edit h fields st) → ∃ c rate, s.floor.cue h = some c ∧
    s.floor.OpenReel c.reel rate ∧ fields.Stored rate s.floor.chars ∧
    s.floor.labelTaken c.reel fields.number fields.suffix (some h) = false
  /-- A cue that is being retired has no run (R40). -/
  retiring : ∀ h st, s.operation = some (.retire h st) → ∃ c rate, s.floor.cue h = some c ∧
    s.floor.OpenReel c.reel rate ∧ c.inFlight = 0
  /-- The closure side closes a CLOSING reel (R58). -/
  closing : ∀ slot, s.closure = some slot → ∃ reel, s.floor.reel slot = some reel ∧ reel.state = .reelClosing

end Sys2Proof.Machine
end

