-- ==== Sys2Proof/Certificates/Slice0/Obligations.lean ====
section
/-! DEFINITION. The statements for the provers. A request statement holds for both forms of its window: `q` is any window
that the port reads as the fields `x`. -/

open Sys2Proof Sys2Proof.Machine

/-! ## The machine -/

/-- A step takes the command at the front of the queue and is exec of it with the queue's rest. The queue is the model's
(log 2); the commands are the requests and events of 00_scope section 4.5. -/
def Obligations.StepTakesFrontCommand : Prop :=
  ∀ (c : Instr) (s : State), step { s with pending := c :: s.pending } = exec c s

/-- MODEL'S CHOICE (log 2, log 5): with no command waiting, one reference count passes, or the timed events due earliest at
or before the present count are put in the queue, each once, in some order. The timed events and their counts are the
spec's: the expiry of a running gap; the acquisition deadline, two nominal periods after the last counted word; the LOCKED
deadline, floor(5 x E / 4) after the last boundary; the next synthetic boundary, E after it; the next subframe advance, the
first count at which floor(elapsed x 64 / E) is above the subframe; the end of a packet, 120 counts a byte after its
start. -/
def Obligations.IdleStepPassesTime : Prop :=
  ∀ s : State, s.pending = [] →
    ∃ t, step s = .next t ∧
      (∀ c, c ∈ s.floor.due ↔ ∃ d, d ≤ s.floor.now ∧ (d, c) ∈ s.floor.timed ∧ ∀ e ∈ s.floor.timed, d ≤ e.1) ∧
      (∀ d c, (d, c) ∈ s.floor.timed ↔ ∃ i : Fin 4,
        let t := s.floor.tracker i
        let e := t.e8 / 8
        (c = .gapExpiry i ∧ (s.floor.path i).gapExpiry = some d) ∨
        (c = .acquisitionDeadlineExpiry i ∧ t.state = .acquiring ∧
          ∃ a, t.acquisition = some a ∧ d = a.arrival + 2 * t.rate.nominal) ∨
        (c = .lockedDeadlineExpiry i ∧ t.state = .locked ∧ ∃ b, t.lastBoundary = some b ∧ d = b + 5 * e / 4) ∨
        (c = .syntheticBoundaryDue i ∧ t.state = .freewheel ∧ ∃ b, t.lastBoundary = some b ∧ d = b + e) ∨
        (c = .subframeAdvance i ∧ (t.state = .locked ∨ t.state = .freewheel) ∧ t.direction = .forward ∧
          t.position % 64 < 63 ∧ ∃ b, t.lastBoundary = some b ∧
            d = b + ((t.position % 64 + 1) * e + 63) / 64 ∧
            (0 < e → ∀ n, b ≤ n → (t.position % 64 < (n - b) * 64 / e ↔ d ≤ n))) ∨
        (c = .packetEnd i ∧ ∃ p, (s.floor.overlay i).inProgress = some p ∧ d = p.start + 120 * p.bytes.length)) ∧
      (s.floor.due = [] → t = { s with floor := { s.floor with now := s.floor.now + 1 } }) ∧
      (s.floor.due ≠ [] → t.pending.Perm s.floor.due ∧
        t = { s with pending := t.pending, floor := { s.floor with draws := t.floor.draws } })

/-- The state after a pin reset: the values the rules give for reset. The reference counter (log 1), the strap level
(log 7) and the queue are the model's choices and are left out. -/
def Obligations.ResetValues : Prop :=
  State.reset.floor.cues = [] ∧ State.reset.floor.reels = [] ∧ State.reset.floor.chars = [] ∧
  State.reset.operation = none ∧ State.reset.closure = none ∧
  (∀ (i : Fin 4) (k : Fin 6), State.reset.floor.casts[i][k] = none) ∧
  (∀ i : Fin 4,
    State.reset.floor.tracker i =
      { source := .choiceA, rate := .fps24, lockCount := 4, jumpConfirm := 2, freewheelLimit := 8, state := .idle,
        direction := .forward, position := 0, lastBoundary := none, timingRef := none, acquisition := none,
        candidate := none, synthetic := 0, e8 := 8000000, speed := 10000, inSpeed := true } ∧
    State.reset.floor.runner i =
      { state := .offline, mode := .manual, manualReel := none, selected := none, recordMode := .rehearse,
        skipPrinted := false, blankingLength := 6, blankingCount := 0, holdOff := 0, runs := [],
        workingCast := Vector.replicate 6 none, lastPosition := 0 } ∧
    State.reset.floor.path i =
      { state := .free, talkWanted := false, gapExpiry := none, guardGap := 32, demand := false } ∧
    State.reset.floor.faults i =
      { dropout := .report, offSpeed := .resumeFast, rateMismatch := .halt, jumpInCue := .report } ∧
    State.reset.floor.overlay i =
      { phase := 32, inProgress := none, waiting := none, lastFrame := none, flashMarks := [] }) ∧
  (∀ k : Fin 26, State.reset.floor.notices[k] = false ∧ State.reset.floor.mask[k] = true) ∧
  State.reset.floor.attention = false ∧
  (∀ k : Fin 8, State.reset.floor.monitor.counters[k] =
      { value := 0, enabled := false, stage := 0, source := .frames, band := 0, filter := none, threshold := 0,
        invert := false, edge := false, memory := .unknown }) ∧
  State.reset.floor.monitor.bounds = #v[9500, 9990, 10010, 10500] ∧ State.reset.floor.monitor.frozen = false ∧
  State.reset.link.state = .empty ∧ State.reset.link.requestSlot = [] ∧ State.reset.link.response = none ∧
  State.reset.rdy = false ∧
  (∀ l : Fin 24, State.reset.lines[l] =
      { source := .constantInactive, drive := .openDrain, polarity := .normal } ∧
    State.reset.electricalLevel l = .released) ∧
  (∀ i : Fin 4, State.reset.overlayLine i = true)

/-- The invariants of Sys2Proof/Safety.lean hold of the state after reset. -/
def Obligations.InvariantsHoldAtReset : Prop :=
  State.reset.LinkAgrees ∧ State.reset.HeldAtReset ∧ (∀ i, (State.reset.floor.stage i).Agrees) ∧
  (∀ i, (State.reset.floor.stage i).PathTable ∧ (State.reset.floor.stage i).ClaimsStand) ∧
  State.reset.floor.CountersBounded ∧ State.reset.StoresCanonical ∧ State.reset.floor.CastMap ∧ State.reset.StoreRules

/-- Every step keeps the link state, the slots and the maintenance unit in agreement. -/
def Obligations.LinkAgreesKept : Prop :=
  ∀ s t : State, s.LinkAgrees → step s = .next t → t.LinkAgrees

/-- Every step keeps every block at its reset values while RESET_N is low. Which strap level the bank records follow
meanwhile (the one latched before, log 8) and that the record of what MISO carried is empty (log 27) are the model's
choices. -/
def Obligations.HeldAtResetKept : Prop :=
  ∀ s t : State, s.HeldAtReset → step s = .next t → t.HeldAtReset

/-- Every step keeps what the runner state of each stage says of its tracker, its run list and its counts. -/
def Obligations.StageAgreesKept : Prop :=
  ∀ s t : State, (∀ i, (s.floor.stage i).Agrees) → step s = .next t → ∀ i, (t.floor.stage i).Agrees

/-- Every step keeps the table of path states of each stage, and WAITING and PUNCHED runs in RECORD mode only; with it,
every step keeps WAITING and PUNCHED runs to a path in RECORD, or in PROTECTED with a gap running. -/
def Obligations.PathTableKept : Prop :=
  (∀ s t : State, (∀ i, (s.floor.stage i).PathTable) → step s = .next t → ∀ i, (t.floor.stage i).PathTable) ∧
  (∀ s t : State, (∀ i, (s.floor.stage i).PathTable ∧ (s.floor.stage i).ClaimsStand) → step s = .next t →
    ∀ i, (t.floor.stage i).ClaimsStand)

/-- No step takes a counter value above 4,294,967,295. -/
def Obligations.CountersBoundedKept : Prop :=
  ∀ s t : State, s.floor.CountersBounded → step s = .next t → t.floor.CountersBounded

/-- Every step keeps the stores canonical, the reel numbers distinct and a free handle for a creation in progress. -/
def Obligations.StoresCanonicalKept : Prop :=
  ∀ s t : State, s.StoresCanonical → step s = .next t → t.StoresCanonical

/-- Every step keeps each character at no more than one podium, and every cast character DEFINED. -/
def Obligations.CastMapKept : Prop :=
  ∀ s t : State, s.floor.CastMap → step s = .next t → t.floor.CastMap

/-- Every step keeps the rules of the stores: labels unique within a reel and stored values in range, each order list
the live cues of its reel in strict order (of in-point, number and suffix, as the statement of the creation's completion
opens it), each use count the number of live cues that list the character, each in-flight count the number of run
contexts that name the cue, a lock exactly while its operation is in progress. Its premises are the invariants of the
link, of the tables and of the stages. -/
def Obligations.StoreRulesKept : Prop :=
  ∀ s t : State, s.LinkAgrees → s.StoresCanonical → (∀ i, (s.floor.stage i).Agrees) → s.StoreRules →
    step s = .next t → t.StoreRules

/-! ## The control link -/

/-- A request window at its end. An UNKNOWN_REQUEST is refused BAD_REQUEST whatever bytes follow its code. A window of a
known code is refused in this order: one byte alone BAD_LENGTH; a presence field that marks a field the request does not
have BAD_REQUEST (looked for in the bytes received, log 37); a declared length above 250, or other than the bytes received,
or other than its layout, BAD_LENGTH. The answer has length 0, and nothing else changes. A dropped window sets LINK_DROPPED
and changes nothing else; one that began before or during a pin reset ends without effect. The model's choices, besides log
37: the layouts give the parameters of a LINE_SET source their length by its type (log 15), character lists, names and the
selections of NOTICE_MASK, NOTICE_CLEAR and MON_CLEAR a count byte each (logs 11, 38), and one command may stand for a whole
window (log 16). -/
def Obligations.DroppedAndIgnoredWindows : Prop :=
  (∀ (code : Byte) (bytes : List Byte) (s : State), s.Receives → code ≠ 0 → code ∉ requestIndex →
    windowCommand (code :: bytes) = some (.unknownRequest code bytes) ∧
    exec (.unknownRequest code bytes) s = .next (s.replied code .badRequest [])) ∧
  (∀ (code : Byte) (bytes : List Byte) (s : State), s.Receives → code ∈ requestIndex →
    ∃ i r, windowCommand (code :: bytes) = some i ∧ requestOf i = some (code, r) ∧
      (bytes = [] → exec i s = .next (s.replied code .badLength [])) ∧
      (∀ declared payload, bytes = declared :: payload →
        (MarksAbsentField code payload → exec i s = .next (s.replied code .badRequest [])) ∧
        (¬MarksAbsentField code payload →
          (250 < declared.toNat ∨ payload.length ≠ declared.toNat ∨ payload.length ∉ layoutLengths code payload) →
          exec i s = .next (s.replied code .badLength [])) ∧
        (¬MarksAbsentField code payload → declared.toNat ≤ 250 → payload.length = declared.toNat →
          payload.length ∈ layoutLengths code payload → r = none))) ∧
  (∀ (i : Instr) (code : Byte) (st : Status) (s : State), requestOf i = some (code, some st) → s.Receives →
    exec i s = .next (s.replied code st [])) ∧
  (∀ (i : Instr) (code : Byte) (r : Option Status) (s : State), requestOf i = some (code, r) → s.Drops →
    exec i s = .next { s.windowEnded with floor := { s.floor with notices := s.floor.notices.set 24 true } }) ∧
  (∀ s : State, s.Drops →
    exec .droppedRequest s = .next { s.windowEnded with floor := { s.floor with notices := s.floor.notices.set 24 true } }) ∧
  (∀ (i : Instr) (code : Byte) (r : Option Status) (s : State), requestOf i = some (code, r) → s.Ignores →
    exec i s = .next s.windowEnded)

/-- The first byte of a request window: dropped while BUSY; else the waiting response is discarded, the link is EMPTY
and the window is assembled. The first byte 0x00 begins a fetch window, which reads a response where one waits at that
byte. A window during which RESET_N was low is ignored to its end. A fetch of n bytes reads the response from its status
byte; it empties the slot when every byte of it was clocked out and else leaves it. With no response waiting it reads
NONE and 0xFF, and changes nothing but what MISO carried (log 27). RDY is high exactly in READY. MISO is driven while a
window is in progress and RESET_N is high (log 26), and carries 0xFF under a request window; what it carries under an
ignored one is free (log 40), and not stated. -/
def Obligations.WindowsByLinkState : Prop :=
  (∀ (code : Byte) (s : State), code ≠ 0 →
    (s.resetHeld = false → s.link.state = .busy →
      exec (.windowFirstByte ⟨code, false⟩) s =
        .next { s with link := { s.link with window := .dropped, requestSlot := [] } }) ∧
    (s.resetHeld = false → s.link.state ≠ .busy →
      exec (.windowFirstByte ⟨code, false⟩) s =
        .next { s with link := { state := .empty, window := .assembling, requestSlot := [code], response := none,
                                 fetched := s.link.fetched } })) ∧
  (∀ s : State, s.resetHeld = false → exec (.windowFirstByte ⟨0, false⟩) s =
    .next { s with link := { s.link with window := .fetching (s.link.state == .ready) } }) ∧
  (∀ (code : Byte) (across : Bool) (s : State), (across = true ∨ s.resetHeld = true) →
    exec (.windowFirstByte ⟨code, across⟩) s = .next { s with link := { s.link with window := .ignored } }) ∧
  (∀ (n : Nat) (s : State), s.resetHeld = false →
    (s.link.window = .noWindow ∨ ∃ answers, s.link.window = .fetching answers) →
    let reads := s.link.window = .fetching true ∨ (s.link.window = .noWindow ∧ s.link.state = .ready)
    let slot := if s.link.window = .noWindow then s.link.requestSlot else []
    (∀ r, reads → s.link.response = some r →
      (3 + r.payload.length ≤ n →
        exec (.fetch ⟨n, false⟩) s = .next { s with link := {
          state := .empty, response := none, window := .noWindow, requestSlot := slot
          fetched := 0xFF :: ([r.status.byte, r.code, byte r.payload.length] ++ r.payload ++
            List.replicate (n - (3 + r.payload.length)) 0xFF) } }) ∧
      (n < 3 + r.payload.length →
        exec (.fetch ⟨n, false⟩) s = .next { s with link := { s.link with
          window := .noWindow, requestSlot := slot
          fetched := 0xFF :: ([r.status.byte, r.code, byte r.payload.length] ++ r.payload).take n } })) ∧
    ((¬reads ∨ s.link.response = none) →
      exec (.fetch ⟨n, false⟩) s = .next { s with link := { s.link with
        window := .noWindow, requestSlot := slot, fetched := 0xFF :: List.replicate n 0xFF } })) ∧
  (∀ (n : Nat) (across : Bool) (s : State),
    (s.link.window = .ignored → exec (.fetch ⟨n, across⟩) s = .next s.windowEnded) ∧
    (s.link.window = .noWindow → (across = true ∨ s.resetHeld = true) → exec (.fetch ⟨n, across⟩) s = .next s)) ∧
  (∀ s : State, s.rdy = true ↔ s.link.state = .ready) ∧
  (∀ (s : State) (k : Nat),
    (s.misoDriven = true ↔ s.link.window ≠ .noWindow ∧ s.resetHeld = false) ∧
    (s.misoDriven = false → s.misoByte k = none) ∧
    (s.misoDriven = true → (s.link.window = .assembling ∨ s.link.window = .dropped) → s.misoByte k = some 0xFF) ∧
    (∀ r, s.misoDriven = true → s.link.window = .fetching true → s.link.response = some r → s.misoByte k =
      some (((0xFF :: ([r.status.byte, r.code, byte r.payload.length] ++ r.payload))[k]?).getD 0xFF)))

/-- The numbers that requests carry, and the layouts of their windows. A table lists its values by their number, from 0
on, and a number past its end is none: the enumerations in the order in which their rule first lists their values, the
counter sources as R201 numbers them, a flag 0 or 1 (log 12), a rate by its code with its base, nominal period, frames
per day and day end, a line source with the stage and the podium its row has (log 15), a notice by its scope and its
place in the table of R153, the device's two at places 6 and 7 (log 23). Section 11.4 gives the codes (0x12 with force
flag 1 is the row FORCED_RETIRE, log 34), R202 the statuses. A payload is its fields in the order of the owning rule; a
selection begins with its presence field, and a handle, reel, stage or line named beside it comes next (log 11); lists
of counters and notices begin with a count byte (log 38). A window whose presence field marks no absent field and whose
length is that of its payload reads as the fields of the payload. -/
def Obligations.RequestNumbersAndLayouts : Prop :=
  (∀ n : Nat,
    Rate.ofCode n = [Rate.fps23976, .fps24, .fps25, .fps2997drop, .fps2997, .fps30][n]? ∧
    Enable.ofCode n = [Enable.enabled, .muted][n]? ∧
    Approval.ofCode n = [Approval.approvalOpen, .approvalHold, .printed][n]? ∧
    SourceChoice.ofCode n = [SourceChoice.choiceA, .choiceB, .choiceC][n]? ∧
    RecordMode.ofCode n = [RecordMode.rehearse, .record][n]? ∧
    ResponseMode.ofCode n = [ResponseMode.halt, .resumeSlow, .resumeFast, .report, .ignore][n]? ∧
    BankMode.ofCode n = [BankMode.dedicated, .routed][n]? ∧ Drive.ofCode n = [Drive.pushPull, .openDrain][n]? ∧
    Polarity.ofCode n = [Polarity.normal, .inverted][n]? ∧ flagOfCode n = [false, true][n]? ∧
    CounterSource.ofCode n = [CounterSource.frames, .lockedFrames, .speedBand, .recordFrames, .starvedFrames,
      .runOccupancy, .takesComplete, .takesAborted, .jumps, .glitches, .rateMismatches][n]? ∧
    filterOfCode n = [some Phase.armed, some .sweep, some .speaking, some .tail, none][n]? ∧
    byte n = BitVec.ofNat 8 n ∧ bytes2 n = [byte (n / 256), byte n] ∧
    bytes4 n = [byte (n / 16777216), byte (n / 65536), byte (n / 256), byte n]) ∧
  [Rate.fps23976, .fps24, .fps25, .fps2997drop, .fps2997, .fps30].map
    (fun r => (r.base, r.nominal, r.framesPerDay, r.dayEnd)) =
    [(24, 1001000, 2073600, 132710399), (24, 1000000, 2073600, 132710399), (25, 960000, 2160000, 138239999),
     (30, 800800, 2589408, 165722111), (30, 800800, 2592000, 165887999), (30, 800000, 2592000, 165887999)] ∧
  (∀ (a : Rate) (b : SourceChoice) (c : RecordMode) (d : ResponseMode), Rate.ofCode a.code = some a ∧
    SourceChoice.ofCode b.code = some b ∧ RecordMode.ofCode c.code = some c ∧ ResponseMode.ofCode d.code = some d) ∧
  (∀ (α : Type) (decode : Nat → Option α) (n : Nat), givenCode decode none = .ok none ∧
    (∀ x, decode n = some x → givenCode decode (some n) = .ok (some x)) ∧
    (decode n = none → givenCode decode (some n) = .error .badRequest)) ∧
  (∀ (i : Fin 4) (k : Fin 6) (n a b : Nat),
    lineSourceOf ⟨n, i.val, k.val⟩ = [LineSource.constantInactive, .constantActive, .record i, .talkback i, .beep i,
      .streamerActive i, .armed i, .anySpeak i, .stageFault i, .podiumSpeak i k, .podiumStandby i k, .podiumBicolour i k,
      .attention][n]? ∧
    (∀ source, lineSourceOf ⟨n, i.val, k.val⟩ = some source → source.bytes =
      byte n :: (if 2 ≤ n ∧ n ≤ 11 then [byte i.val] else []) ++ (if 9 ≤ n ∧ n ≤ 11 then [byte k.val] else [])) ∧
    ((n ≤ 1 ∨ n = 12) → lineSourceOf ⟨n, a, b⟩ = lineSourceOf ⟨n, 0, 0⟩) ∧
    (n ≤ 8 → lineSourceOf ⟨n, i.val, b⟩ = lineSourceOf ⟨n, i.val, 0⟩) ∧
    (2 ≤ n → n ≤ 11 → 3 < a → lineSourceOf ⟨n, a, b⟩ = none) ∧
    (9 ≤ n → n ≤ 11 → 5 < b → lineSourceOf ⟨n, a, b⟩ = none) ∧ (12 < n → lineSourceOf ⟨n, a, b⟩ = none)) ∧
  (∀ (i : Fin 4) (m n : Nat),
    let places := [StageNotice.dropout, .offSpeed, .rateMismatch, .jumpInCue, .cueStarved, .latePunch]
    noticeOfName ⟨i.val, n⟩ = places[n]?.map (.ofStage i) ∧
    noticeOfName ⟨15, n⟩ = (if n = 6 then some .linkDropped else if n = 7 then some .reelClosed else none) ∧
    (3 < m → m ≠ 15 → noticeOfName ⟨m, n⟩ = none) ∧
    (∀ notice, places[n]? = some notice → (Notice.ofStage i notice).index.val = 6 * i.val + n) ∧
    Notice.linkDropped.index = 24 ∧ Notice.reelClosed.index = 25) ∧
  [Status.ok, .clamped, .accepted, .badRequest, .badLength, .unknownHandle, .unknownReel, .unknownCharacter, .badCharacters,
    .invalidPosition, .badSpan, .duplicateLabel, .storeFull, .reelTableFull, .reelClosing, .reelNotEmpty, .cueInFlight,
    .cueBusy, .characterInUse, .castConflict, .podiumTaken, .stageState, .maintBusy].map Status.byte =
    [0, 1, 2, 0x10, 0x11, 0x12, 0x13, 0x14, 0x15, 0x16, 0x17, 0x18, 0x19, 0x1A, 0x1B, 0x1C, 0x1D, 0x1E, 0x1F, 0x20, 0x21,
     0x22, 0x23] ∧
  (∀ bytes : List Byte,
    let w {α : Type} : Request α := .window bytes
    (requestIndex.map fun code => windowCommand (code :: bytes)) = [
      Instr.cueCreate w, .cueEdit w, if bytes[3]? = some 1 then .forcedRetire w else .cueRetire w, .cueRead w, .cueMark w,
      .reelOpen w, .reelSetDefaults w, .reelSetRate w, .reelRead w, .reelClose w, .cueFind w, .cueNext w, .cueList w,
      .charDefine w, .charRetire w, .charRead w, .castAssign w, .castRelease w, .castRead w, .trackerSet w, .trackerRead w,
      .stageEnable w, .stageDisable w, .stageReset w, .stageSelectReel w, .stageSet w, .stageRead w, .talkback w,
      .pathSet w, .pathRead w, .faultClear w, .faultSet w, .faultRead w, .noticeRead w, .noticeMask w, .noticeClear w,
      .lineBankSet w, .lineSet w, .lineRead w, .overlaySet w, .overlayRead w, .monConfig w, .monClear w, .monFreeze w,
      .monSetBands w, .monRead w, .deviceReset w].map some) ∧
  requestIndex.map BitVec.toNat = [0x10, 0x11, 0x12, 0x13, 0x14] ++ List.range' 0x20 8 ++ List.range' 0x30 6 ++
    [0x40, 0x41] ++ List.range' 0x50 6 ++ [0x58, 0x59, 0x5A] ++ List.range' 0x60 6 ++ List.range' 0x70 5 ++
    List.range' 0x78 5 ++ [0x7F] ∧
  (∀ (α : Type) (parse : List Byte → Option α) (fieldCount : Option Nat) (payload : List Byte) (x : α),
    parse payload = some x → payload.length ≤ 250 →
    (∀ n a b rest, fieldCount = some n → payload = a :: b :: rest → a.toNat * 256 + b.toNat < 2 ^ n) →
    readRequest fieldCount parse (.window (byte payload.length :: payload)) = .ok x) ∧
  (let number := fun a b : Byte => 256 * a.toNat + b.toNat
   let given := fun marks : List Bool => bytes2 (marks.foldr (fun mark n => 2 * n + mark.toNat) 0)
   let bytes := fun l : List (Option Byte) => l.flatMap Option.toList
   let nat := fun x : Option Byte => x.map BitVec.toNat
   let timing := fun v : Vector (Option Byte) 7 =>
     (⟨nat v[0], nat v[1], nat v[2], nat v[3], nat v[4], nat v[5], nat v[6]⟩ : TimingFields)
   let place := fun v : Vector Byte 5 =>
     (⟨v[0].toNat, v[1].toNat, v[2].toNat, v[3].toNat, v[4].toNat⟩ : PositionField)
   parseNone [] = some () ∧
   (∀ a b c d : Byte, parse1 [a] = some a.toNat ∧ parseHandle [a, b] = some (number a b) ∧
     parseRetire [a, b, c] = some ⟨number a b, c.toNat⟩ ∧ parseReelRate [a, b] = some ⟨a.toNat, b.toNat⟩ ∧
     parseCueFind [a, b, c, d] = some ⟨a.toNat, number b c, d.toNat⟩ ∧
     parseCueList [a, b, c, d] = some ⟨a.toNat, number b c, d.toNat⟩ ∧
     parseCastAssign [a, b, c, d] = some ⟨a.toNat, b.toNat, c.toNat, d.toNat⟩ ∧
     parseSelectReel [a, b, c] = some ⟨a.toNat, b.toNat, c.toNat⟩ ∧
     parseStageValue [a, b] = some ⟨a.toNat, b.toNat⟩ ∧ parseBankSet [a, b, c] = some ⟨a.toNat, b.toNat, c.toNat⟩) ∧
   (∀ (a : Byte) (p : Vector Byte 5), parseCueNext (a :: p.toList) = some ⟨a.toNat, place p⟩) ∧
   (∀ counter enable stage source band filter threshold invert edge : Byte,
     parseMonConfig [counter, enable, stage, source, band, filter, threshold, invert, edge] =
       some ⟨counter.toNat, enable.toNat, stage.toNat, source.toNat, band.toNat, filter.toNat, threshold.toNat,
         invert.toNat, edge.toNat⟩) ∧
   (∀ (a : Byte) (l : List Byte), l.length < 256 →
     parseCharDefine (a :: byte l.length :: l) = some ⟨a.toNat, l⟩ ∧
     parseCounters (byte l.length :: l) = some (l.map BitVec.toNat)) ∧
   (∀ (a : Byte) (l : List (Byte × Byte)), l.length < 256 →
     let names := l.map fun e => (⟨e.1.toNat, e.2.toNat⟩ : NoticeName)
     parseNotices (byte l.length :: l.flatMap fun e => [e.1, e.2]) = some names ∧
     parseNoticeMask (byte l.length :: (l.flatMap fun e => [e.1, e.2]) ++ [a]) = some ⟨names, a.toNat⟩) ∧
   (∀ (a b c d e : Option Byte) (h l : Byte),
     parseCueMark (given [a.isSome, b.isSome] ++ [h, l] ++ bytes [a, b]) = some ⟨number h l, nat a, nat b⟩ ∧
     parseTrackerSet (given [a.isSome, b.isSome, c.isSome, d.isSome, e.isSome] ++ [h] ++ bytes [a, b, c, d, e]) =
       some ⟨h.toNat, nat a, nat b, nat c, nat d, nat e⟩ ∧
     parseStageSet (given [a.isSome, b.isSome, c.isSome] ++ [h] ++ bytes [a, b, c]) =
       some ⟨h.toNat, nat a, nat b, nat c⟩ ∧
     parseFaultSet (given [a.isSome, b.isSome, c.isSome, d.isSome] ++ [h] ++ bytes [a, b, c, d]) =
       some ⟨h.toNat, nat a, nat b, nat c, nat d⟩ ∧
     parseLineSet (given [false, b.isSome, c.isSome] ++ [h] ++ bytes [b, c]) = some ⟨h.toNat, none, nat b, nat c⟩ ∧
     (∀ x : LineSourceField, x.source ≤ 12 → x.stage < 256 → x.podium < 256 → (x.source < 2 ∨ x.source = 12 → x.stage = 0) →
       (x.source < 9 ∨ x.source = 12 → x.podium = 0) →
       parseLineSet (given [true, b.isSome, c.isSome] ++ [h, byte x.source] ++
         (if 2 ≤ x.source ∧ x.source ≤ 11 then [byte x.stage] else []) ++
         (if 9 ≤ x.source ∧ x.source ≤ 11 then [byte x.podium] else []) ++ bytes [b, c]) =
         some ⟨h.toNat, some x, nat b, nat c⟩)) ∧
   (∀ bands : Vector (Option (Byte × Byte)) 4,
     parseBands (given (bands.toList.map Option.isSome) ++
       bands.toList.flatMap fun x => x.toList.flatMap fun e => [e.1, e.2]) =
       some ((List.finRange 4).filterMap fun k => bands[k].map fun e => (k.val, number e.1 e.2))) ∧
   (∀ (t : Vector (Option Byte) 7) (reel : Byte),
     parseReelDefaults (given (t.toList.map Option.isSome) ++ [reel] ++ bytes t.toList) = some ⟨reel.toNat, timing t⟩) ∧
   (∀ (t : Vector (Option Byte) 7) (reel n m suffix : Byte) (l : List Byte) (p q : Vector Byte 5), l.length < 256 →
     parseCueCreate (given (t.toList.map Option.isSome) ++ [reel, n, m, suffix, byte l.length] ++ l ++ p.toList ++
       q.toList ++ bytes t.toList) =
       some ⟨reel.toNat, number n m, suffix.toNat, l.map BitVec.toNat, place p, place q, timing t⟩) ∧
   (∀ (t : Vector (Option Byte) 7) (h k : Byte) (n : Option (Byte × Byte)) (suffix : Option Byte) (l : Option (List Byte))
     (p q : Option (Vector Byte 5)), (∀ ids, l = some ids → ids.length < 256) →
     parseCueEdit (given ([n.isSome, suffix.isSome, l.isSome, p.isSome, q.isSome] ++ t.toList.map Option.isSome) ++ [h, k] ++
       (n.toList.flatMap fun e => [e.1, e.2]) ++ suffix.toList ++ (l.toList.flatMap fun ids => byte ids.length :: ids) ++
       (p.toList.flatMap Vector.toList) ++ (q.toList.flatMap Vector.toList) ++ bytes t.toList) =
       some ⟨number h k, n.map fun e => number e.1 e.2, nat suffix, l.map fun ids => ids.map BitVec.toNat, p.map place,
         q.map place, timing t⟩))

/-- PIN_RESET takes every block to its reset values, with RDY low, ATTN released, MISO undriven, the cue lines released
and the overlay lines idle; RESET_RELEASE latches the strap level, which sets the banks, and a window begun before is
ignored to its end. DEVICE_RESET takes every block to its reset values, with the banks of the strap level latched at the
last pin reset, and leaves no response. That the reference counter goes on (log 1), that the bank records follow the
strap level latched before while RESET_N is low (log 8), the mark of an ignored window (log 18) and the emptied record
of MISO (log 27) are the model's choices. -/
def Obligations.ResetsAndRelease : Prop :=
  (∀ level b : Fin 4, (strapBanks level)[b].stage = b ∧
    ((strapBanks level)[b].mode = .dedicated ↔ level = 0 ∨ (level = 1 ∧ b.val ≤ 1) ∨ (level = 2 ∧ b.val = 0))) ∧
  (∀ (q : Request Unit) (s : State), s.Receives → readRequest none parseNone q = .ok () →
    exec (.deviceReset q) s = .next { State.reset with
      floor := { Floor.reset with now := s.floor.now, draws := s.floor.draws }
      banks := strapBanks s.strap
      strap := s.strap
      resetHeld := s.resetHeld
      pending := s.pending }) ∧
  (∀ s : State, ∃ t, exec .pinReset s = .next t ∧
    t = { State.reset with
          floor := { Floor.reset with now := s.floor.now, draws := s.floor.draws }
          link := { Link.reset with window := if s.link.window = .noWindow then .noWindow else .ignored }
          banks := strapBanks s.strap
          strap := s.strap
          resetHeld := true
          pending := s.pending } ∧
    t.rdy = false ∧ t.floor.attention = false ∧ t.misoDriven = false ∧ (∀ l, t.electricalLevel l = .released) ∧
    (∀ i, t.overlayLine i = true)) ∧
  (∀ (level : Fin 4) (s : State), s.resetHeld = true →
    exec (.resetRelease level) s = .next { State.reset with
      floor := { Floor.reset with now := s.floor.now, draws := s.floor.draws }
      link := { Link.reset with window := if s.link.window = .noWindow then .noWindow else .ignored }
      banks := strapBanks level
      strap := level
      pending := s.pending })

/-! ## Positions and timelines -/

/-- At every rate a frame index of the day converts to a valid label that converts back: at rate codes 0, 1, 2, 4 and 5 by
the divisions of R6, at rate code 3 by the two steps of R7. -/
def Obligations.FrameIndexToLabelAndBack : Prop :=
  (∀ (r : Rate) (i : Nat), i < r.framesPerDay →
    (Label.ofFrame r i).hours ≤ 23 ∧ (Label.ofFrame r i).isValid r = true ∧ (Label.ofFrame r i).frameIndex r = i) ∧
  (∀ (r : Rate) (i : Nat), r ≠ .fps2997drop →
    Label.ofFrame r i = { hours := i / (3600 * r.base), minutes := i / (60 * r.base) % 60, seconds := i / r.base % 60,
                          frames := i % r.base }) ∧
  (∀ i d m adj c : Nat, d = i / 17982 → m = i % 17982 → (m < 2 → adj = 18 * d) →
    (2 ≤ m → adj = 18 * d + 2 * ((m - 2) / 1798)) → c = i + adj →
    Label.ofFrame .fps2997drop i = { hours := c / 108000, minutes := c / 1800 % 60, seconds := c / 30 % 60,
                                     frames := c % 30 })

/-- At every rate a valid label converts to a frame index of the day that converts back to it: at rate codes 0, 1, 2, 4
and 5 by the formula of R4, at rate code 3 by that of R5. -/
def Obligations.LabelToFrameIndexAndBack : Prop :=
  (∀ (r : Rate) (l : Label), l.isValid r = true →
    l.frameIndex r < r.framesPerDay ∧ Label.ofFrame r (l.frameIndex r) = l) ∧
  (∀ (r : Rate) (l : Label), r ≠ .fps2997drop →
    l.frameIndex r = ((l.hours * 60 + l.minutes) * 60 + l.seconds) * r.base + l.frames) ∧
  (∀ (l : Label) (total : Nat), total = 60 * l.hours + l.minutes → l.isValid .fps2997drop = true →
    (l.frameIndex .fps2997drop : Int) =
      108000 * l.hours + 1800 * l.minutes + 30 * l.seconds + l.frames - 2 * (total - (total / 10 : Nat)))

/-- The points of a cue's timeline are those of R13 to R18. For every cue whose fields lie in their ranges they stand in the
order of R19, the beep gates lie within [F, I - 64], the phases are the intervals of the points, and the streamer position
is 0 to 1023. -/
def Obligations.TimelinePointsAreOrdered : Prop :=
  (∀ (r : Rate) (f : CueFields) (g : Nat),
    let i : Int := f.inPoint
    let beep := fun k : Nat => i - 64 * (k : Int) * f.timing.beepSpacing
    let kept := fun k : Nat => 1 ≤ k ∧ k ≤ f.timing.beepCount ∧ 0 ≤ beep k
    (f.streamerStart : Int) = max (i - 64 * f.timing.lead) 0 ∧
    (∀ p, f.beepGate p = true ↔ ∃ k, kept k ∧ beep k ≤ p ∧ (p : Int) < beep k + 64 * f.timing.beepLength) ∧
    (f.firstSound ≤ f.streamerStart ∧ (∀ k, kept k → (f.firstSound : Int) ≤ beep k) ∧
      (f.firstSound = f.streamerStart ∨ ∃ k, kept k ∧ (f.firstSound : Int) = beep k)) ∧
    (f.armPoint : Int) = 64 * (max ((f.firstSound : Int) - 64 * f.timing.preRoll) 0 / 64) ∧
    (f.punchInPoint : Int) = max (i - 64 * f.timing.punchIn) 0 ∧
    f.punchOutPoint r = min (f.outPoint + 64 * f.timing.punchOut) (64 * r.framesPerDay - 1) ∧
    (f.preemptionPoint g : Int) = max ((f.punchInPoint : Int) - (g + (g + 7) / 8)) 0) ∧
  ∀ (r : Rate) (f : CueFields), 12 ≤ f.timing.lead → f.timing.beepLength < f.timing.beepSpacing →
    f.timing.punchIn ≤ f.timing.lead → f.inPoint < f.outPoint → f.outPoint ≤ r.dayEnd →
    f.armPoint ≤ f.firstSound ∧ f.firstSound ≤ f.streamerStart ∧ f.streamerStart ≤ f.punchInPoint ∧
    f.punchInPoint ≤ f.inPoint ∧ f.outPoint ≤ f.punchOutPoint r ∧ f.punchOutPoint r ≤ r.dayEnd ∧
    f.armPoint % 64 = 0 ∧
    (∀ p, f.beepGate p = true → f.firstSound ≤ p ∧ p + 64 < f.inPoint) ∧
    (∀ p, f.phaseAt p = .armed ↔ p < f.streamerStart) ∧
    (∀ p, f.phaseAt p = .sweep ↔ f.streamerStart ≤ p ∧ p < f.inPoint) ∧
    (∀ p, f.phaseAt p = .speaking ↔ f.inPoint ≤ p ∧ p < f.outPoint) ∧
    (∀ p, f.phaseAt p = .tail ↔ f.outPoint ≤ p) ∧
    (∀ p, f.streamerStart ≤ p → p < f.inPoint →
      f.streamerPosition p = (p - f.streamerStart) * 1024 / (f.inPoint - f.streamerStart) ∧
      f.streamerPosition p ≤ 1023)

/-- Fitted timing values lie in the ranges of R26, and a value that lies in its range is kept. The values a request asks
for are those it gives, and for each field it does not give the one held. -/
def Obligations.FittedTimingLiesInRange : Prop :=
  (∀ (g : TimingFields) (t : Timing), askedTiming g t =
    { lead := match g.lead with | some v => v | none => t.lead
      beepCount := match g.beepCount with | some v => v | none => t.beepCount
      beepSpacing := match g.beepSpacing with | some v => v | none => t.beepSpacing
      beepLength := match g.beepLength with | some v => v | none => t.beepLength
      preRoll := match g.preRoll with | some v => v | none => t.preRoll
      punchIn := match g.punchIn with | some v => v | none => t.punchIn
      punchOut := match g.punchOut with | some v => v | none => t.punchOut }) ∧
  ∀ t : Timing,
    (12 ≤ t.fitted.lead ∧ t.fitted.lead ≤ 240) ∧ t.fitted.beepCount ≤ 3 ∧
    (6 ≤ t.fitted.beepSpacing ∧ t.fitted.beepSpacing ≤ 60) ∧
    (1 ≤ t.fitted.beepLength ∧ t.fitted.beepLength ≤ min 6 (t.fitted.beepSpacing - 1)) ∧
    t.fitted.preRoll ≤ 120 ∧ t.fitted.punchIn ≤ min 48 t.fitted.lead ∧ t.fitted.punchOut ≤ 96 ∧
    (12 ≤ t.lead → t.lead ≤ 240 → t.fitted.lead = t.lead) ∧ (t.lead < 12 → t.fitted.lead = 12) ∧
    (240 < t.lead → t.fitted.lead = 240) ∧
    (t.beepCount ≤ 3 → t.fitted.beepCount = t.beepCount) ∧ (3 < t.beepCount → t.fitted.beepCount = 3) ∧
    (6 ≤ t.beepSpacing → t.beepSpacing ≤ 60 → t.fitted.beepSpacing = t.beepSpacing) ∧
    (t.beepSpacing < 6 → t.fitted.beepSpacing = 6) ∧ (60 < t.beepSpacing → t.fitted.beepSpacing = 60) ∧
    (1 ≤ t.beepLength → t.beepLength ≤ min 6 (t.fitted.beepSpacing - 1) → t.fitted.beepLength = t.beepLength) ∧
    (t.beepLength < 1 → t.fitted.beepLength = 1) ∧
    (min 6 (t.fitted.beepSpacing - 1) < t.beepLength → t.fitted.beepLength = min 6 (t.fitted.beepSpacing - 1)) ∧
    (t.preRoll ≤ 120 → t.fitted.preRoll = t.preRoll) ∧ (120 < t.preRoll → t.fitted.preRoll = 120) ∧
    (t.punchIn ≤ min 48 t.fitted.lead → t.fitted.punchIn = t.punchIn) ∧
    (min 48 t.fitted.lead < t.punchIn → t.fitted.punchIn = min 48 t.fitted.lead) ∧
    (t.punchOut ≤ 96 → t.fitted.punchOut = t.punchOut) ∧ (96 < t.punchOut → t.fitted.punchOut = 96)

/-! ## The cue store -/

/-- A CUE_CREATE that passes its checks is accepted: the maintenance unit takes the fitted record and its status, the link
becomes BUSY, and nothing else changes. -/
def Obligations.CueCreateIsAccepted : Prop :=
  ∀ (q : Request CueCreateFields) (x : CueCreateFields) (s : State) (slot : Nat) (reel : Reel) (suffix : Option Nat)
    (i o : Nat), s.Receives → readRequest (some 7) parseCueCreate q = .ok x →
    1 ≤ x.number → x.number ≤ 9999 → suffixOf x.suffix = some suffix →
    s.floor.resolveReel x.reel = .ok (slot, reel) →
    1 ≤ x.characters.length → x.characters.length ≤ 4 → x.characters.Nodup →
    (∀ id ∈ x.characters, id < 64 ∧ (s.floor.character id).isSome = true) →
    positionValue reel.rate x.inPos = some i → positionValue reel.rate x.outPos = some o → i < o →
    s.floor.labelTaken slot x.number suffix none = false → s.floor.cues.length < 1024 →
    exec (.cueCreate q) s = .next (s.accepted (.create slot
      { number := x.number, suffix := suffix, characters := x.characters, inPoint := i,
        outPoint := min o (i + 460800), timing := (askedTiming x.timing reel.defaults).fitted }
      (if (askedTiming x.timing reel.defaults).fitted ≠ askedTiming x.timing reel.defaults ∨ i + 460800 < o
        then .clamped else .ok)))

/-- A CUE_CREATE is refused with the status of the first failing check of R31, and changes nothing but the link port. A
position given is valid where its label is a label of the rate and its subframe at most 63, and then is 64 x frame index
+ subframe; a label is taken where a live cue of the reel, other than the cue that an edit names, has its number and
suffix; a suffix is 0 for none, or a letter's code. A reel number resolves to the OPEN reel that holds it, and a handle to
its live cue of a reel that is not CLOSING. -/
def Obligations.CueCreateRefusalOrder : Prop :=
  (∀ (r : Rate) (p : PositionField),
    let l : Label := ⟨p.hours, p.minutes, p.seconds, p.frames⟩
    let named := (p.hours ≤ 23 ∧ p.minutes ≤ 59 ∧ p.seconds ≤ 59 ∧ p.frames < r.base ∧
      ¬(r = .fps2997drop ∧ p.seconds = 0 ∧ p.frames ≤ 1 ∧ p.minutes % 10 ≠ 0)) ∧ p.subframe ≤ 63
    (named → positionValue r p = some (64 * l.frameIndex r + p.subframe)) ∧ (¬named → positionValue r p = none)) ∧
  (∀ (f : Floor) (slot number : Nat) (suffix besides : Option Nat), Table.WF 1024 f.cues →
    (f.labelTaken slot number suffix besides = true ↔ ∃ h c, f.cue h = some c ∧ c.reel = slot ∧
      c.fields.number = number ∧ c.fields.suffix = suffix ∧ besides ≠ some h)) ∧
  (∀ n : Nat, suffixOf n =
    (if n = 0 then some none else if 0x41 ≤ n ∧ n ≤ 0x5A then some (some n) else none)) ∧
  (∀ (f : Floor) (n slot : Nat) (reel : Reel), f.resolveReel n = .ok (slot, reel) ↔
    f.reels.find? (fun e => e.2.number == n) = some (slot, reel) ∧ reel.state = .reelOpened) ∧
  (∀ (f : Floor) (h : Nat) (c : Cue), f.resolveCue h = .ok c ↔
    f.cue h = some c ∧ ∀ reel, f.reel c.reel = some reel → reel.state = .reelOpened) ∧
  ∀ (q : Request CueCreateFields) (x : CueCreateFields) (s : State), s.Receives →
    readRequest (some 7) parseCueCreate q = .ok x →
    let refused := fun st => exec (.cueCreate q) s = .next (s.replied Code.cueCreate st [])
    let label := 1 ≤ x.number ∧ x.number ≤ 9999 ∧ (suffixOf x.suffix).isSome = true
    let listed := 1 ≤ x.characters.length ∧ x.characters.length ≤ 4 ∧ x.characters.Nodup
    let defined := ∀ id ∈ x.characters, id < 64 ∧ (s.floor.character id).isSome = true
    (¬label → refused .badRequest) ∧
    (label → (∀ e ∈ s.floor.reels, e.2.number ≠ x.reel) → refused .unknownReel) ∧
    (∀ slot reel, label → s.floor.reels.find? (fun e => e.2.number == x.reel) = some (slot, reel) →
      (reel.state = .reelClosing → refused .reelClosing) ∧
      (reel.state = .reelOpened → ¬listed → refused .badCharacters) ∧
      (reel.state = .reelOpened → listed → ¬defined → refused .unknownCharacter) ∧
      (reel.state = .reelOpened → listed → defined →
        (positionValue reel.rate x.inPos = none ∨ positionValue reel.rate x.outPos = none) →
        refused .invalidPosition) ∧
      (∀ i o suffix, reel.state = .reelOpened → listed → defined → positionValue reel.rate x.inPos = some i →
        positionValue reel.rate x.outPos = some o → suffixOf x.suffix = some suffix →
        (o ≤ i → refused .badSpan) ∧
        (i < o → s.floor.labelTaken slot x.number suffix none = true → refused .duplicateLabel) ∧
        (i < o → s.floor.labelTaken slot x.number suffix none = false → 1024 ≤ s.floor.cues.length →
          refused .storeFull)))

/-- At the completion of a creation the lowest free handle becomes live with the new record, takes the place in the reel's
order list that R52 gives, raises the use counts of its characters, and the response carries the handle. A cue comes before
another by in-point, then by number, then by suffix, with an absent suffix before A. -/
def Obligations.CueCreateCompletionMakesLive : Prop :=
  (∀ a b : CueFields,
    let letter := fun x : Option Nat => ∀ c, x = some c → 0x41 ≤ c ∧ c ≤ 0x5A
    let first := match a.suffix, b.suffix with
      | none, some _ => True
      | some c, some d => c < d
      | _, none => False
    letter a.suffix → letter b.suffix →
    (a.before b = true ↔ a.inPoint < b.inPoint ∨
      a.inPoint = b.inPoint ∧ (a.number < b.number ∨ a.number = b.number ∧ first))) ∧
  ∀ (s : State) (slot : Nat) (fields : CueFields) (st : Status) (reel : Reel), s.StoresCanonical →
    s.operation = some (.create slot fields st) → s.floor.reel slot = some reel →
    ∃ t h a b, exec .cueCreateCompletion s = .next t ∧
      h < 1024 ∧ s.floor.cue h = none ∧ (∀ j < h, (s.floor.cue j).isSome = true) ∧
      t.floor.cue h = some { reel := slot, fields := fields, enable := .enabled, approval := .approvalOpen,
                             takeCount := 0, lastTake := none, inFlight := 0, lock := .unlocked } ∧
      (∀ j, j ≠ h → t.floor.cue j = s.floor.cue j) ∧
      reel.order = a ++ b ∧
      a.length = (reel.order.filter fun j => ((s.floor.cue j).map fun c => c.fields.before fields).getD false).length ∧
      t.floor.reel slot = some { reel with order := a ++ h :: b } ∧
      (∀ k, k ≠ slot → t.floor.reel k = s.floor.reel k) ∧
      (∀ id, t.floor.character id =
        (s.floor.character id).map fun c => { c with useCount := c.useCount + fields.characters.count id }) ∧
      t = { s with
            floor := { s.floor with cues := t.floor.cues, reels := t.floor.reels, chars := t.floor.chars }
            operation := none
            link := { s.link with state := .ready
                                  response := some { status := st, code := Code.cueCreate, payload := bytes2 h } } }

/-- A CUE_EDIT is refused with the status of the first failing check of R35. One that passes is accepted: the lock becomes
EDITING, the maintenance unit takes the values the record will hold (every value of it, log 20), with the out-point clamped
where a given in or out puts it more than 7,200 frames after the in-point, and the status; the link becomes BUSY, and
nothing else changes. Its timeline fields are the positions, the character list and the seven timing values; a position
or a suffix not given is the one stored, and the positions are at the rate of the cue's reel. -/
def Obligations.CueEditIsAccepted : Prop :=
  (∀ x : CueEditFields,
    (editTouchesTimeline x = true ↔ x.inPos ≠ none ∨ x.outPos ≠ none ∨ x.characters ≠ none ∨
      x.timing ≠ ⟨none, none, none, none, none, none, none⟩) ∧
    (editGives x = true ↔ editTouchesTimeline x = true ∨ x.number ≠ none ∨ x.suffix ≠ none)) ∧
  (∀ (r : Rate) (p : PositionField) (v stored : Nat), givenPosition r none stored = .ok stored ∧
    (positionValue r p = some v → givenPosition r (some p) stored = .ok v) ∧
    (positionValue r p = none → givenPosition r (some p) stored = .error .invalidPosition)) ∧
  (∀ (n : Nat) (stored : Option Nat),
    givenSuffix none stored = some stored ∧ givenSuffix (some n) stored = suffixOf n) ∧
  (∀ (f : Floor) (slot : Nat) (reel : Reel), f.reel slot = some reel → f.reelRate slot = reel.rate) ∧
  (∀ (q : Request CueEditFields) (x : CueEditFields) (s : State) (c : Cue) (suffix : Option Nat) (i o : Nat),
    s.Receives → readRequest (some 12) parseCueEdit q = .ok x → editGives x = true →
    (∀ n, x.number = some n → 1 ≤ n ∧ n ≤ 9999) → givenSuffix x.suffix c.fields.suffix = some suffix →
    s.floor.resolveCue x.handle = .ok c → c.lock = .unlocked → (editTouchesTimeline x = true → c.inFlight = 0) →
    (∀ ids, x.characters = some ids → 1 ≤ ids.length ∧ ids.length ≤ 4 ∧ ids.Nodup ∧
      ∀ id ∈ ids, id < 64 ∧ (s.floor.character id).isSome = true) →
    givenPosition (s.floor.reelRate c.reel) x.inPos c.fields.inPoint = .ok i →
    givenPosition (s.floor.reelRate c.reel) x.outPos c.fields.outPoint = .ok o →
    (x.inPos.isSome = true ∨ x.outPos.isSome = true → i < o) →
    (x.number.isSome = true ∨ x.suffix.isSome = true →
      s.floor.labelTaken c.reel (x.number.getD c.fields.number) suffix (some x.handle) = false) →
    let far := (x.inPos.isSome = true ∨ x.outPos.isSome = true) ∧ i + 460800 < o
    exec (.cueEdit q) s = .next
      (({ s with floor := s.floor.modCue x.handle fun c => { c with lock := .editing } }).accepted (.edit x.handle
        { number := x.number.getD c.fields.number, suffix := suffix,
          characters := x.characters.getD c.fields.characters, inPoint := i,
          outPoint := if far then i + 460800 else o,
          timing := (askedTiming x.timing c.fields.timing).fitted }
        (if (askedTiming x.timing c.fields.timing).fitted ≠ askedTiming x.timing c.fields.timing ∨ far
          then .clamped else .ok)))) ∧
  (∀ (q : Request CueEditFields) (x : CueEditFields) (s : State), s.Receives →
    readRequest (some 12) parseCueEdit q = .ok x →
    let refused := fun st => exec (.cueEdit q) s = .next (s.replied Code.cueEdit st [])
    let plain := editGives x = true ∧ (∀ n, x.number = some n → 1 ≤ n ∧ n ≤ 9999) ∧
      (∀ n, x.suffix = some n → (suffixOf n).isSome = true)
    let listed := ∀ ids, x.characters = some ids → 1 ≤ ids.length ∧ ids.length ≤ 4 ∧ ids.Nodup
    let defined := ∀ ids, x.characters = some ids → ∀ id ∈ ids, id < 64 ∧ (s.floor.character id).isSome = true
    (¬plain → refused .badRequest) ∧
    (plain → s.floor.cue x.handle = none → refused .unknownHandle) ∧
    (∀ c reel, plain → s.floor.cue x.handle = some c → s.floor.reel c.reel = some reel →
      (reel.state = .reelClosing → refused .reelClosing) ∧
      (reel.state = .reelOpened → c.lock ≠ .unlocked → refused .cueBusy) ∧
      (reel.state = .reelOpened → c.lock = .unlocked → editTouchesTimeline x = true → 0 < c.inFlight →
        refused .cueInFlight) ∧
      (reel.state = .reelOpened → c.lock = .unlocked → (editTouchesTimeline x = true → c.inFlight = 0) →
        (¬listed → refused .badCharacters) ∧
        (listed → ¬defined → refused .unknownCharacter) ∧
        (listed → defined →
          (givenPosition reel.rate x.inPos c.fields.inPoint = .error .invalidPosition ∨
            givenPosition reel.rate x.outPos c.fields.outPoint = .error .invalidPosition) → refused .invalidPosition) ∧
        (∀ i o suffix, listed → defined → givenPosition reel.rate x.inPos c.fields.inPoint = .ok i →
          givenPosition reel.rate x.outPos c.fields.outPoint = .ok o →
          givenSuffix x.suffix c.fields.suffix = some suffix →
          ((x.inPos.isSome = true ∨ x.outPos.isSome = true) → o ≤ i → refused .badSpan) ∧
          ((x.inPos.isSome = true ∨ x.outPos.isSome = true → i < o) →
            (x.number.isSome = true ∨ x.suffix.isSome = true) →
            s.floor.labelTaken c.reel (x.number.getD c.fields.number) suffix (some x.handle) = true →
            refused .duplicateLabel)))))

/-- At the completion of an edit the record takes the new values with the lock NONE and its other fields as they stand,
the cue takes its place in the order list (R52, as in the statement of the creation's completion; the same place where
in-point, number and suffix are unchanged), use counts follow the character list, and the response is placed. -/
def Obligations.CueEditCompletionWrites : Prop :=
  (∀ a b : CueFields, a.samePlace b = true ↔ a.inPoint = b.inPoint ∧ a.number = b.number ∧ a.suffix = b.suffix) ∧
  ∀ (s : State) (h : Nat) (fields : CueFields) (st : Status) (c : Cue) (reel : Reel),
    s.operation = some (.edit h fields st) → s.floor.cue h = some c → s.floor.reel c.reel = some reel →
    ∃ t a b, exec .cueEditCompletion s = .next t ∧
      t.floor.cue h = some { c with fields := fields, lock := .unlocked } ∧
      (∀ j, j ≠ h → t.floor.cue j = s.floor.cue j) ∧
      reel.order.filter (fun j => j != h) = a ++ b ∧
      a.length = ((reel.order.filter fun j => j != h).filter fun j =>
        ((s.floor.cue j).map fun d => d.fields.before fields).getD false).length ∧
      t.floor.reel c.reel = some { reel with
        order := if c.fields.samePlace fields = true then reel.order else a ++ h :: b } ∧
      (∀ k, k ≠ c.reel → t.floor.reel k = s.floor.reel k) ∧
      (∀ id, t.floor.character id = (s.floor.character id).map fun d => { d with useCount :=
        d.useCount - (c.fields.characters.filter fun y => !fields.characters.contains y).count id +
          (fields.characters.filter fun y => !c.fields.characters.contains y).count id }) ∧
      t = { s with
            floor := { s.floor with cues := t.floor.cues, reels := t.floor.reels, chars := t.floor.chars }
            operation := none
            link := { s.link with state := .ready
                                  response := some { status := st, code := Code.cueEdit, payload := [] } } }

/-- A plain CUE_RETIRE is refused in the order of R37, and else sets the RETIRING lock and makes the link BUSY. A forced one
is refused in the same order without the last check, and a force flag above 1 is refused BAD_REQUEST before the handle is
looked up (log 17). The rows CUE_RETIRE and FORCED_RETIRE are one request: the force flag decides (log 34). -/
def Obligations.CueRetireIsAcceptedOrRefused : Prop :=
  (∀ (q : Request RetireFields) (s : State), exec (.forcedRetire q) s = exec (.cueRetire q) s) ∧
  (∀ (q : Request RetireFields) (x : RetireFields) (s : State), s.Receives → readRequest none parseRetire q = .ok x →
    let refused := fun st => exec (.forcedRetire q) s = .next (s.replied Code.cueRetire st [])
    (1 < x.force → refused .badRequest) ∧
    (x.force = 1 → s.floor.cue x.handle = none → refused .unknownHandle) ∧
    (∀ c reel, x.force = 1 → s.floor.cue x.handle = some c → s.floor.reel c.reel = some reel →
      (reel.state = .reelClosing → refused .reelClosing) ∧
      (reel.state = .reelOpened → c.lock ≠ .unlocked → refused .cueBusy))) ∧
  ∀ (q : Request RetireFields) (x : RetireFields) (s : State), s.Receives → readRequest none parseRetire q = .ok x →
    x.force = 0 →
    (s.floor.cue x.handle = none → exec (.cueRetire q) s = .next (s.replied Code.cueRetire .unknownHandle [])) ∧
    (∀ c reel, s.floor.cue x.handle = some c → s.floor.reel c.reel = some reel →
      (reel.state = .reelClosing → exec (.cueRetire q) s = .next (s.replied Code.cueRetire .reelClosing [])) ∧
      (reel.state = .reelOpened → c.lock ≠ .unlocked →
        exec (.cueRetire q) s = .next (s.replied Code.cueRetire .cueBusy [])) ∧
      (reel.state = .reelOpened → c.lock = .unlocked → 0 < c.inFlight →
        exec (.cueRetire q) s = .next (s.replied Code.cueRetire .cueInFlight [])) ∧
      (reel.state = .reelOpened → c.lock = .unlocked → c.inFlight = 0 →
        exec (.cueRetire q) s = .next
          (({ s with floor := s.floor.modCue x.handle fun c => { c with lock := .retiring } }).accepted
            (.retire x.handle .ok))))

/-- A forced retire sets the RETIRING lock and aborts every run of the cue on every stage: a PUNCHED run makes an
ABORTED take report that ends at the tracker position of its stage, the in-flight count falls by the runs aborted, and
the path of the stage takes the release. The runners keep their states and their other runs as they stood, a stage
without a run of the cue stands whole, and no other cue changes. A PUNCHED run that holds no position was punched where
its take ends (log 25). Demand and claims go by the position of a run, also where a jump back kept it before a punch-in
point it had reached before, in REHEARSE or in RECORD (log 41). -/
def Obligations.ForcedRetireAbortsRuns : Prop :=
  ∀ (q : Request RetireFields) (x : RetireFields) (s : State) (c : Cue), s.Receives →
    readRequest none parseRetire q = .ok x → x.force = 1 → s.floor.resolveCue x.handle = .ok c →
    c.lock = .unlocked →
    let mine := fun r : Run => r.handle == x.handle
    let locked := s.floor.modCue x.handle fun c => { c with lock := .retiring }
    ∃ t d, exec (.forcedRetire q) s = .next t ∧
      t.operation = some (.retire x.handle .ok) ∧ t.link.state = .busy ∧ t.link.response = none ∧
      (∀ i, (t.floor.runner i).state = (s.floor.runner i).state ∧
        (t.floor.runner i).runs.map Run.handle =
          ((s.floor.runner i).runs.map Run.handle).filter fun h => h != x.handle) ∧
      t.floor.cue x.handle = some d ∧ d.lock = .retiring ∧ d.fields = c.fields ∧
      d.inFlight = c.inFlight - ((List.finRange 4).map fun i =>
        ((s.floor.runner i).runs.map Run.handle).count x.handle).sum ∧
      locked.TakesAborted t.floor (fun _ r => mine r) (fun i => (s.floor.tracker i).position) ∧
      (∀ i, (s.floor.runner i).runs.any mine = true → locked.StageReleased t.floor i mine) ∧
      (∀ i, (s.floor.runner i).runs.any mine = false → t.floor.stage i = s.floor.stage i) ∧
      (∀ i, t.floor.tracker i = s.floor.tracker i ∧ t.floor.faults i = s.floor.faults i ∧
        t.floor.runner i = { s.floor.runner i with runs := (t.floor.runner i).runs } ∧
        t.floor.overlay i = { s.floor.overlay i with flashMarks := (t.floor.overlay i).flashMarks }) ∧
      (∀ j, j ≠ x.handle → t.floor.cue j = s.floor.cue j) ∧
      t.floor.reels = s.floor.reels ∧ t.floor.chars = s.floor.chars ∧ t.floor.casts = s.floor.casts ∧
      t.floor.notices = s.floor.notices ∧ t.closure = s.closure ∧ t.banks = s.banks ∧ t.lines = s.lines ∧
      t.pending = s.pending

/-- At the completion of a retire the handle leaves its reel's order list and becomes free, its characters' use counts
fall, and the response is placed. -/
def Obligations.CueRetireCompletionFrees : Prop :=
  ∀ (s : State) (h : Nat) (st : Status) (c : Cue) (reel : Reel),
    s.operation = some (.retire h st) → s.floor.cue h = some c → s.floor.reel c.reel = some reel →
    ∃ t, exec .cueRetireCompletion s = .next t ∧ t.floor.cue h = none ∧
      (∀ j, j ≠ h → t.floor.cue j = s.floor.cue j) ∧
      t.floor.reel c.reel = some { reel with order := reel.order.filter fun j => j != h } ∧
      (∀ k, k ≠ c.reel → t.floor.reel k = s.floor.reel k) ∧
      (∀ id, t.floor.character id =
        (s.floor.character id).map fun d => { d with useCount := d.useCount - c.fields.characters.count id }) ∧
      t = { s with
            floor := { s.floor with cues := t.floor.cues, reels := t.floor.reels, chars := t.floor.chars }
            operation := none
            link := { s.link with state := .ready
                                  response := some { status := st, code := Code.cueRetire, payload := [] } } }

/-- A CUE_MARK changes the given enable and approval values of the cue in place, and nothing else. One that gives
neither or a value outside those named is refused BAD_REQUEST, then a free handle UNKNOWN_HANDLE, a cue of a CLOSING reel
REEL_CLOSING and a locked one CUE_BUSY (this order is log 35). -/
def Obligations.CueMarkSetsFields : Prop :=
  (∀ (q : Request CueMarkFields) (x : CueMarkFields) (s : State) (c : Cue) (e : Option Enable) (a : Option Approval),
    s.Receives → readRequest (some 2) parseCueMark q = .ok x → (x.enable.isSome = true ∨ x.approval.isSome = true) →
    givenCode Enable.ofCode x.enable = .ok e → givenCode Approval.ofCode x.approval = .ok a →
    s.floor.resolveCue x.handle = .ok c → c.lock = .unlocked →
    ∃ t, exec (.cueMark q) s = .next t ∧
      t.floor.cue x.handle = some { c with enable := e.getD c.enable, approval := a.getD c.approval } ∧
      (∀ j, j ≠ x.handle → t.floor.cue j = s.floor.cue j) ∧
      t = s.carriedOut { s.floor with cues := t.floor.cues } Code.cueMark .ok []) ∧
  (∀ (q : Request CueMarkFields) (x : CueMarkFields) (s : State), s.Receives →
    readRequest (some 2) parseCueMark q = .ok x →
    let refused := fun st => exec (.cueMark q) s = .next (s.replied Code.cueMark st [])
    let named := (x.enable.isSome = true ∨ x.approval.isSome = true) ∧ (∀ n, x.enable = some n → n ≤ 1) ∧
      (∀ n, x.approval = some n → n ≤ 2)
    (¬named → refused .badRequest) ∧
    (named → s.floor.cue x.handle = none → refused .unknownHandle) ∧
    (∀ c reel, named → s.floor.cue x.handle = some c → s.floor.reel c.reel = some reel →
      (reel.state = .reelClosing → refused .reelClosing) ∧
      (reel.state = .reelOpened → c.lock ≠ .unlocked → refused .cueBusy)))

/-! ## Reading -/

/-- The reads answer OK with the payloads their rules list, byte by byte from the state as it stands, and change nothing but
the link port. Refused are a free handle UNKNOWN_HANDLE, a reel that no slot holds UNKNOWN_REEL, a CLOSING reel or a cue of
one REEL_CLOSING, a character id above 63 UNKNOWN_CHARACTER and a stage above 3 BAD_REQUEST. A count byte above 255 is free
(log 10); the numbers of enumerations and flags follow R201 as log 12 reads it, absent fields log 13, a line source log 15,
the places of the levels of LINE_READ log 39, the notice bits log 23. -/
def Obligations.ReadsAnswerAndChangeNothing : Prop :=
  ∀ s : State, s.Receives →
    let label := fun (r : Rate) (n : Nat) =>
      let l := Label.ofFrame r n
      [byte l.hours, byte l.minutes, byte l.seconds, byte l.frames]
    let pos := fun (r : Rate) (p : Nat) => label r (p / 64) ++ [byte (p % 64)]
    let flag := fun b : Bool => if b then (1 : Byte) else 0
    let nothing := fun n : Nat => List.replicate n (0xFF : Byte)
    let suffix := fun x : Option Nat => match x with
      | some c => byte c
      | none => 0
    let timing := fun t : Timing => [byte t.lead, byte t.beepCount, byte t.beepSpacing, byte t.beepLength, byte t.preRoll,
      byte t.punchIn, byte t.punchOut]
    let stateNumber := fun x : RunnerState => match x with
      | .offline => (0 : Byte)
      | .standby => 1
      | .chasing => 2
      | .blanked => 3
      | .hold => 4
      | .halted => 5
    let counted := fun x : CounterSource => match x with
      | .frames => (0 : Byte)
      | .lockedFrames => 1
      | .speedBand => 2
      | .recordFrames => 3
      | .starvedFrames => 4
      | .runOccupancy => 5
      | .takesComplete => 6
      | .takesAborted => 7
      | .jumps => 8
      | .glitches => 9
      | .rateMismatches => 10
    let source := fun x : LineSource => match x with
      | .constantInactive => [(0 : Byte)]
      | .constantActive => [1]
      | .record i => [2, byte i.val]
      | .talkback i => [3, byte i.val]
      | .beep i => [4, byte i.val]
      | .streamerActive i => [5, byte i.val]
      | .armed i => [6, byte i.val]
      | .anySpeak i => [7, byte i.val]
      | .stageFault i => [8, byte i.val]
      | .podiumSpeak i k => [9, byte i.val, byte k.val]
      | .podiumStandby i k => [10, byte i.val, byte k.val]
      | .podiumBicolour i k => [11, byte i.val, byte k.val]
      | .attention => [12]
    (∀ q h c reel, readRequest none parseHandle q = .ok h → s.floor.cue h = some c → s.floor.reel c.reel = some reel →
      reel.state = .reelOpened →
      exec (.cueRead q) s = .next (s.replied Code.cueRead .ok
        (bytes2 h ++ [byte reel.number] ++ bytes2 c.fields.number ++ [suffix c.fields.suffix] ++
          [byte c.fields.characters.length] ++ c.fields.characters.map byte ++ pos reel.rate c.fields.inPoint ++
          pos reel.rate c.fields.outPoint ++ timing c.fields.timing ++
          [match c.enable with | .enabled => (0 : Byte) | .muted => 1,
           match c.approval with | .approvalOpen => 0 | .approvalHold => 1 | .printed => 2] ++ bytes2 c.takeCount ++
          (match c.lastTake with
            | some t => [byte t.stage.val] ++ pos reel.rate t.punchedAt ++ pos reel.rate t.endedAt ++
                [match t.outcome with | .complete => (0 : Byte) | .aborted => 1]
            | none => nothing 12) ++
          [byte c.inFlight, match c.lock with | .unlocked => 0 | .editing => 1 | .retiring => 2]))) ∧
    (∀ q n slot reel, readRequest none parse1 q = .ok n → s.floor.resolveReel n = .ok (slot, reel) →
      exec (.reelRead q) s = .next (s.replied Code.reelRead .ok
        ([byte reel.number, byte reel.rate.code] ++ timing reel.defaults ++
          [if reel.order.length ≤ 255 then byte reel.order.length else Config.wideCountByte reel.order.length]))) ∧
    (∀ q id, readRequest none parse1 q = .ok id → id < 64 → s.floor.character id = none →
      exec (.charRead q) s = .next (s.replied Code.charRead .ok [(0 : Byte)])) ∧
    (∀ q id c, readRequest none parse1 q = .ok id → id < 64 → s.floor.character id = some c →
      exec (.charRead q) s = .next (s.replied Code.charRead .ok
        ([1, byte c.name.length] ++ c.name ++
          [if c.useCount ≤ 255 then byte c.useCount else Config.wideCountByte c.useCount] ++
          (match s.floor.castPlace id with
            | some (i, k) => [byte i.val, byte k.val]
            | none => nothing 2)))) ∧
    (∀ (q : Request Nat) (i : Fin 4), readRequest none parse1 q = .ok i.val →
      let t := s.floor.tracker i
      let r := s.floor.runner i
      let p := s.floor.path i
      let o := s.floor.overlay i
      exec (.castRead q) s = .next (s.replied Code.castRead .ok
        ((s.floor.casts[i].toList.flatMap fun x => match x with
          | none => [(0xFF : Byte)]
          | some id => byte id :: (match s.floor.character id with
            | some c => byte c.name.length :: c.name
            | none => [0])) ++ [if r.workingCast = s.floor.casts[i] then (0 : Byte) else 1])) ∧
      exec (.trackerRead q) s = .next (s.replied Code.trackerRead .ok
        ([match t.source with | .choiceA => (0 : Byte) | .choiceB => 1 | .choiceC => 2, byte t.rate.code, byte t.lockCount,
          byte t.jumpConfirm, byte t.freewheelLimit,
          match t.state with | .idle => (0 : Byte) | .searching => 1 | .acquiring => 2 | .locked => 3 | .freewheel => 4,
          match t.state, t.direction with
            | .locked, .forward => (0 : Byte)
            | .freewheel, .forward => 0
            | .locked, .reverse => 1
            | .freewheel, .reverse => 1
            | _, _ => 0xFF] ++ pos t.rate t.position ++ bytes4 (t.e8 / 8) ++ bytes2 t.speed ++
          [flag t.inSpeed] ++
          (match t.acquisition with
            | some a => [byte a.count]
            | none => nothing 1) ++
          (match t.candidate with
            | some c => [byte c.label.hours, byte c.label.minutes, byte c.label.seconds, byte c.label.frames, byte c.confirm]
            | none => nothing 5) ++ [byte t.synthetic])) ∧
      exec (.stageRead q) s = .next (s.replied Code.stageRead .ok
        ([stateNumber r.state, match r.mode with | .manual => (0 : Byte) | .auto => 1,
          match r.manualReel with | some n => byte n | none => 0xFF,
          match r.selected.bind s.floor.reel with | some reel => byte reel.number | none => 0xFF,
          match r.recordMode with | .rehearse => (0 : Byte) | .record => 1, flag r.skipPrinted,
          byte r.blankingLength, byte r.blankingCount, byte r.holdOff,
          flag (s.floor.beepGate i), flag (s.floor.streamerActive i),
          flag (s.floor.armedOutput i), flag (s.floor.recordRequest i),
          flag (s.floor.anySpeak i), flag (s.floor.stageFault i)] ++
          ((List.finRange 6).map fun k => match s.floor.lamp i k with | .speak => (0 : Byte) | .standby => 1 | .off => 2) ++
          [byte r.runs.length] ++ r.runs.flatMap fun x => bytes2 x.handle ++
            (match s.floor.cue x.handle with
              | some c => bytes2 c.fields.number ++ [suffix c.fields.suffix]
              | none => [0xFF, 0xFF, 0]) ++
            [match x.phase with | .armed => (0 : Byte) | .sweep => 1 | .speaking => 2 | .tail => 3,
             match x.punch with | .unpunched => (0 : Byte) | .waiting => 1 | .punched => 2] ++
            (match x.punchedAt with
              | some a => pos t.rate a
              | none => nothing 5))) ∧
      exec (.pathRead q) s = .next (s.replied Code.pathRead .ok
        ([match p.state with | .free => (0 : Byte) | .talk => 1 | .protected_ => 2 | .record => 3 | .gap => 4,
          flag (decide (p.state = .record)), flag (decide (p.state = .talk)),
          flag p.talkWanted, flag (decide (p.talkWanted = true ∧ p.state ≠ .talk)),
          flag p.demand] ++
          (match p.gapExpiry with
            | some e => bytes4 (e - s.floor.now)
            | none => nothing 4) ++ [byte p.guardGap])) ∧
      exec (.faultRead q) s = .next (s.replied Code.faultRead .ok
        ([(s.floor.faults i).dropout, (s.floor.faults i).offSpeed, (s.floor.faults i).rateMismatch,
          (s.floor.faults i).jumpInCue].map (fun m => match m with
            | .halt => (0 : Byte)
            | .resumeSlow => 1
            | .resumeFast => 2
            | .report => 3
            | .ignore => 4) ++
          [stateNumber r.state, byte r.holdOff])) ∧
      exec (.overlayRead q) s = .next (s.replied Code.overlayRead .ok
        ([byte o.phase, if o.inProgress = none then (0 : Byte) else 1, if o.waiting = none then 0 else 1] ++
          (match o.lastFrame with
            | some n => label t.rate n
            | none => nothing 4) ++ [byte o.flashMarks.length] ++ o.flashMarks.flatMap bytes2))) ∧
    (∀ q, readRequest none parseNone q = .ok () →
      exec (.noticeRead q) s = .next (s.replied Code.noticeRead .ok
        (s.floor.notices.toList.map (fun b => if b then (1 : Byte) else 0) ++ s.floor.mask.toList.map (fun b => if b then (1 : Byte) else 0) ++
          [flag (decide (∃ k : Fin 26, s.floor.notices[k] = true ∧ s.floor.mask[k] = true))])) ∧
      exec (.lineRead q) s = .next (s.replied Code.lineRead .ok
        ([byte s.strap.val] ++
          (s.banks.toList.flatMap fun b => [match b.mode with | .dedicated => (0 : Byte) | .routed => 1, byte b.stage.val]) ++
          (List.finRange 24).flatMap fun l => source s.lines[l].source ++
            [match s.lines[l].drive with | .pushPull => (0 : Byte) | .openDrain => 1,
             match s.lines[l].polarity with | .normal => (0 : Byte) | .inverted => 1,
             match s.pairing l with | .even => (0 : Byte) | .odd => 1 | .unpaired => 2,
             flag (s.logicalLevel l),
             match s.electricalLevel l with | .drivenLow => (0 : Byte) | .drivenHigh => 1 | .released => 2])) ∧
      exec (.monRead q) s = .next (s.replied Code.monRead .ok
        ((s.floor.monitor.counters.toList.flatMap fun c => bytes4 c.value ++
          [flag c.enabled, byte c.stage.val, counted c.source, byte c.band.val,
           match c.filter with | some .armed => (0 : Byte) | some .sweep => 1 | some .speaking => 2 | some .tail => 3 | none => 4,
           byte c.threshold, flag c.invert, flag c.edge]) ++
          s.floor.monitor.bounds.toList.flatMap bytes2 ++ [if s.floor.monitor.frozen then (0 : Byte) else 1]))) ∧
    (∀ q h, readRequest none parseHandle q = .ok h →
      (s.floor.cue h = none → exec (.cueRead q) s = .next (s.replied Code.cueRead .unknownHandle [])) ∧
      (∀ c reel, s.floor.cue h = some c → s.floor.reel c.reel = some reel → reel.state = .reelClosing →
        exec (.cueRead q) s = .next (s.replied Code.cueRead .reelClosing []))) ∧
    (∀ q n, readRequest none parse1 q = .ok n →
      ((∀ e ∈ s.floor.reels, e.2.number ≠ n) →
        exec (.reelRead q) s = .next (s.replied Code.reelRead .unknownReel [])) ∧
      (∀ slot reel, s.floor.reels.find? (fun e => e.2.number == n) = some (slot, reel) → reel.state = .reelClosing →
        exec (.reelRead q) s = .next (s.replied Code.reelRead .reelClosing [])) ∧
      (64 ≤ n → exec (.charRead q) s = .next (s.replied Code.charRead .unknownCharacter [])) ∧
      (4 ≤ n →
        exec (.castRead q) s = .next (s.replied Code.castRead .badRequest []) ∧
        exec (.trackerRead q) s = .next (s.replied Code.trackerRead .badRequest []) ∧
        exec (.stageRead q) s = .next (s.replied Code.stageRead .badRequest []) ∧
        exec (.pathRead q) s = .next (s.replied Code.pathRead .badRequest []) ∧
        exec (.faultRead q) s = .next (s.replied Code.faultRead .badRequest []) ∧
        exec (.overlayRead q) s = .next (s.replied Code.overlayRead .badRequest [])))

/-- CUE_FIND answers the cue of the reel with the number and suffix, CUE_NEXT the first cue at or after the position,
each with its order index, or their absence; CUE_LIST answers a stretch of the order list, with the cue count in one
byte, free above 255 (log 10). Refused are a number, suffix, start index or count out of range BAD_REQUEST (before the
reel is looked up, for CUE_LIST by log 35), then a reel that no slot holds UNKNOWN_REEL and a CLOSING one REEL_CLOSING,
then for CUE_NEXT an invalid position INVALID_POSITION. None changes more than the link port. -/
def Obligations.LookupsAnswer : Prop :=
  (∀ (s : State) (slot : Nat) (reel : Reel), s.Receives →
    (∀ (q : Request CueFindFields) (x : CueFindFields) (suffix : Option Nat),
      readRequest none parseCueFind q = .ok x → 1 ≤ x.number → x.number ≤ 9999 → suffixOf x.suffix = some suffix →
      s.floor.resolveReel x.reel = .ok (slot, reel) →
      let named := fun h => ∃ c, s.floor.cue h = some c ∧ c.fields.number = x.number ∧ c.fields.suffix = suffix
      (∀ k h, reel.order[k]? = some h → named h → (∀ j h', j < k → reel.order[j]? = some h' → ¬named h') →
        exec (.cueFind q) s = .next (s.replied Code.cueFind .ok (bytes2 h ++ bytes2 k))) ∧
      ((∀ h ∈ reel.order, ¬named h) →
        exec (.cueFind q) s = .next (s.replied Code.cueFind .ok [0xFF, 0xFF, 0xFF, 0xFF]))) ∧
    (∀ (q : Request CueNextFields) (x : CueNextFields) (p : Nat),
      readRequest none parseCueNext q = .ok x → s.floor.resolveReel x.reel = .ok (slot, reel) →
      positionValue reel.rate x.position = some p →
      let ahead := fun h => ∃ c, s.floor.cue h = some c ∧ p ≤ c.fields.inPoint
      (∀ k h c, reel.order[k]? = some h → s.floor.cue h = some c → p ≤ c.fields.inPoint →
        (∀ j h', j < k → reel.order[j]? = some h' → ¬ahead h') →
        let l := Label.ofFrame reel.rate (c.fields.inPoint / 64)
        exec (.cueNext q) s = .next (s.replied Code.cueNext .ok
          (bytes2 h ++ bytes2 k ++ [byte l.hours, byte l.minutes, byte l.seconds, byte l.frames,
            byte (c.fields.inPoint % 64)]))) ∧
      ((∀ h ∈ reel.order, ¬ahead h) →
        exec (.cueNext q) s = .next (s.replied Code.cueNext .ok (List.replicate 9 0xFF)))) ∧
    (∀ (q : Request CueListFields) (x : CueListFields),
      readRequest none parseCueList q = .ok x → x.start ≤ 1023 → 1 ≤ x.count → x.count ≤ 32 →
      s.floor.resolveReel x.reel = .ok (slot, reel) →
      let part := (reel.order.drop x.start).take x.count
      exec (.cueList q) s = .next (s.replied Code.cueList .ok
        ([if reel.order.length ≤ 255 then byte reel.order.length else Config.wideCountByte reel.order.length] ++
          bytes2 x.start ++ [byte part.length] ++ part.flatMap bytes2)))) ∧
  (∀ s : State, s.Receives →
    let unknown := fun n => ∀ e ∈ s.floor.reels, e.2.number ≠ n
    let closing := fun n => ∃ slot reel, s.floor.reels.find? (fun e => e.2.number == n) = some (slot, reel) ∧
      reel.state = .reelClosing
    (∀ q x, readRequest none parseCueFind q = .ok x →
      let refused := fun st => exec (.cueFind q) s = .next (s.replied Code.cueFind st [])
      let named := (1 ≤ x.number ∧ x.number ≤ 9999) ∧ (x.suffix = 0 ∨ 0x41 ≤ x.suffix ∧ x.suffix ≤ 0x5A)
      (¬named → refused .badRequest) ∧ (named → unknown x.reel → refused .unknownReel) ∧
      (named → closing x.reel → refused .reelClosing)) ∧
    (∀ q x, readRequest none parseCueNext q = .ok x →
      let refused := fun st => exec (.cueNext q) s = .next (s.replied Code.cueNext st [])
      (unknown x.reel → refused .unknownReel) ∧ (closing x.reel → refused .reelClosing) ∧
      (∀ slot reel, s.floor.resolveReel x.reel = .ok (slot, reel) → positionValue reel.rate x.position = none →
        refused .invalidPosition)) ∧
    (∀ q x, readRequest none parseCueList q = .ok x →
      let refused := fun st => exec (.cueList q) s = .next (s.replied Code.cueList st [])
      let named := x.start ≤ 1023 ∧ 1 ≤ x.count ∧ x.count ≤ 32
      (¬named → refused .badRequest) ∧ (named → unknown x.reel → refused .unknownReel) ∧
      (named → closing x.reel → refused .reelClosing)))

/-! ## Reels -/

/-- A REEL_OPEN that passes its checks takes a FREE slot: the reel is OPEN with the number and rate given, an empty order
list and the defaults derived from the base, which the response carries. One that fails a check is refused with the status
of the first failing one in the order of R48, and nothing else changes. -/
def Obligations.ReelOpenTakesFreeSlot : Prop :=
  (∀ (q : Request ReelRateFields) (x : ReelRateFields) (s : State) (r : Rate), s.Receives → s.StoresCanonical →
    readRequest none parseReelRate q = .ok x → 1 ≤ x.reel → x.reel ≤ 99 → Rate.ofCode x.rate = some r →
    (∀ e ∈ s.floor.reels, e.2.number ≠ x.reel) → s.floor.reels.length < 32 →
    ∃ t slot, exec (.reelOpen q) s = .next t ∧ slot < 32 ∧ s.floor.reel slot = none ∧
      t.floor.reel slot = some { state := .reelOpened, number := x.reel, rate := r, order := [],
                                 defaults := { lead := 2 * r.base, beepCount := 3, beepSpacing := r.base, beepLength := 2,
                                               preRoll := r.base, punchIn := r.base / 4, punchOut := r.base / 2 } } ∧
      (∀ k, k ≠ slot → t.floor.reel k = s.floor.reel k) ∧
      t = s.carriedOut { s.floor with reels := t.floor.reels } Code.reelOpen .ok
        [byte (2 * r.base), 3, byte r.base, 2, byte r.base, byte (r.base / 4), byte (r.base / 2)]) ∧
  (∀ (q : Request ReelRateFields) (x : ReelRateFields) (s : State), s.Receives → readRequest none parseReelRate q = .ok x →
    let refused := fun st => exec (.reelOpen q) s = .next (s.replied Code.reelOpen st [])
    let held := fun state => ∃ e ∈ s.floor.reels, e.2.number = x.reel ∧ e.2.state = state
    let named := 1 ≤ x.reel ∧ x.reel ≤ 99 ∧ x.rate ≤ 5
    (¬named → refused .badRequest) ∧
    (named → held .reelOpened → refused .duplicateLabel) ∧
    (named → ¬held .reelOpened → held .reelClosing → refused .reelClosing) ∧
    (named → ¬held .reelOpened → ¬held .reelClosing → 32 ≤ s.floor.reels.length → refused .reelTableFull))

/-- REEL_SET_DEFAULTS replaces the reel's defaults by the fitted values, and REEL_SET_RATE the rate of a reel without cues;
a reel with cues keeps its rate. Nothing else changes. An empty selection and a rate code above 5 are refused BAD_REQUEST
(before the reel is looked up, log 35), then a reel that no slot holds UNKNOWN_REEL and a CLOSING one REEL_CLOSING. -/
def Obligations.ReelSettingsAreTaken : Prop :=
  (∀ (s : State) (slot : Nat) (reel : Reel), s.Receives →
    (∀ (q : Request ReelDefaultsFields) (x : ReelDefaultsFields), readRequest (some 7) parseReelDefaults q = .ok x →
      x.timing ≠ ⟨none, none, none, none, none, none, none⟩ → s.floor.resolveReel x.reel = .ok (slot, reel) →
      let asked := askedTiming x.timing reel.defaults
      let t := asked.fitted
      exec (.reelSetDefaults q) s = .next (s.carriedOut
        (s.floor.modReel slot fun r => { r with defaults := t }) Code.reelSetDefaults
        (if t = asked then .ok else .clamped)
        [byte t.lead, byte t.beepCount, byte t.beepSpacing, byte t.beepLength, byte t.preRoll, byte t.punchIn,
         byte t.punchOut])) ∧
    (∀ (q : Request ReelRateFields) (x : ReelRateFields) (r : Rate), readRequest none parseReelRate q = .ok x →
      Rate.ofCode x.rate = some r → s.floor.resolveReel x.reel = .ok (slot, reel) →
      (reel.order = [] → exec (.reelSetRate q) s = .next
        (s.carriedOut (s.floor.modReel slot fun d => { d with rate := r }) Code.reelSetRate .ok [])) ∧
      (reel.order ≠ [] → exec (.reelSetRate q) s = .next (s.replied Code.reelSetRate .reelNotEmpty [])))) ∧
  (∀ s : State, s.Receives →
    let unknown := fun n => ∀ e ∈ s.floor.reels, e.2.number ≠ n
    let closing := fun n => ∃ slot reel, s.floor.reels.find? (fun e => e.2.number == n) = some (slot, reel) ∧
      reel.state = .reelClosing
    (∀ q x, readRequest (some 7) parseReelDefaults q = .ok x →
      let refused := fun st => exec (.reelSetDefaults q) s = .next (s.replied Code.reelSetDefaults st [])
      let t := x.timing
      let given := ∃ v, t.lead = some v ∨ t.beepCount = some v ∨ t.beepSpacing = some v ∨ t.beepLength = some v ∨
        t.preRoll = some v ∨ t.punchIn = some v ∨ t.punchOut = some v
      (¬given → refused .badRequest) ∧ (given → unknown x.reel → refused .unknownReel) ∧
      (given → closing x.reel → refused .reelClosing)) ∧
    (∀ q x, readRequest none parseReelRate q = .ok x →
      let refused := fun st => exec (.reelSetRate q) s = .next (s.replied Code.reelSetRate st [])
      (5 < x.rate → refused .badRequest) ∧ (x.rate ≤ 5 → unknown x.reel → refused .unknownReel) ∧
      (x.rate ≤ 5 → closing x.reel → refused .reelClosing)))

/-- A REEL_CLOSE that passes its checks is ACCEPTED: the stages that chase the reel abort their runs and go to STANDBY
(a PUNCHED run makes an ABORTED take report that ends at the tracker position, the in-flight counts fall and the paths
take the release), the others keep their states, and the reel is CLOSING; a reel without cues is closed at once, with
REEL_CLOSED set and every selection of it cleared, a manual reel with it. A number that no reel holds, a CLOSING reel
and a closure still in progress refuse it in that order. A PUNCHED run that holds no position was punched where its take
ends (log 25). -/
def Obligations.ReelCloseIsAccepted : Prop :=
  (∀ (q : Request Nat) (n slot : Nat) (reel : Reel) (s : State), s.Receives → s.StoresCanonical →
    readRequest none parse1 q = .ok n → s.floor.resolveReel n = .ok (slot, reel) → s.closure = none →
    let chases := fun i : Fin 4 => (s.floor.runner i).selected == some slot && (s.floor.runner i).state.working
    let cleared := fun (i : Fin 4) (x : Option Nat) =>
      if reel.order = [] ∧ (s.floor.runner i).selected = some slot then none else x
    ∃ t, exec (.reelClose q) s = .next t ∧
      t.link.state = .ready ∧ t.link.response = some { status := .accepted, code := Code.reelClose, payload := [] } ∧
      (∀ i, (s.floor.runner i).selected = some slot → (s.floor.runner i).state.working = true →
        (t.floor.runner i).state = .standby ∧ (t.floor.runner i).runs = []) ∧
      (∀ i, ¬((s.floor.runner i).selected = some slot ∧ (s.floor.runner i).state.working = true) →
        (t.floor.runner i).state = (s.floor.runner i).state ∧ (t.floor.runner i).runs = (s.floor.runner i).runs) ∧
      s.floor.TakesAborted t.floor (fun i _ => chases i) (fun i => (s.floor.tracker i).position) ∧
      (∀ i, chases i = true → s.floor.StageReleased t.floor i fun _ => true) ∧
      (∀ i, chases i = false → t.floor.stage i = { s.floor.stage i with runner := t.floor.runner i }) ∧
      (∀ i, t.floor.tracker i = s.floor.tracker i ∧ t.floor.faults i = s.floor.faults i ∧
        t.floor.overlay i = { s.floor.overlay i with flashMarks := (t.floor.overlay i).flashMarks } ∧
        t.floor.runner i = { s.floor.runner i with
          state := if chases i then .standby else (s.floor.runner i).state
          blankingCount := if chases i then 0 else (s.floor.runner i).blankingCount
          runs := if chases i then [] else (s.floor.runner i).runs
          selected := cleared i (s.floor.runner i).selected
          manualReel := cleared i (s.floor.runner i).manualReel }) ∧
      (∀ k, k ≠ slot → t.floor.reel k = s.floor.reel k) ∧
      (reel.order ≠ [] → t.closure = some slot ∧ t.floor.reel slot = some { reel with state := .reelClosing } ∧
        t.floor.notices = s.floor.notices) ∧
      (reel.order = [] → t.closure = none ∧ t.floor.reel slot = none ∧
        t.floor.notices = s.floor.notices.set 25 true ∧ ∀ i, (t.floor.runner i).selected ≠ some slot) ∧
      t.floor.chars = s.floor.chars ∧ t.floor.casts = s.floor.casts ∧ t.operation = s.operation ∧
      t.banks = s.banks ∧ t.lines = s.lines ∧ t.pending = s.pending) ∧
  (∀ (q : Request Nat) (n : Nat) (s : State), s.Receives → s.StoresCanonical → readRequest none parse1 q = .ok n →
    let refused := fun st => exec (.reelClose q) s = .next (s.replied Code.reelClose st [])
    ((∀ e ∈ s.floor.reels, e.2.number ≠ n) → refused .unknownReel) ∧
    (∀ e ∈ s.floor.reels, e.2.number = n → e.2.state = .reelClosing → refused .reelClosing) ∧
    (∀ e ∈ s.floor.reels, e.2.number = n → e.2.state = .reelOpened → s.closure ≠ none → refused .maintBusy))

/-- A closure step frees the last cue of the closing reel's order list; when none is left the closure completes: the slot
is FREE, the closure side IDLE, every selection of the reel cleared (with the manual reel of a MANUAL stage) and REEL_CLOSED
set. -/
def Obligations.ClosureStepFreesLastCue : Prop :=
  ∀ (s : State) (slot h : Nat) (reel : Reel) (c : Cue) (l : List Nat), s.closure = some slot →
    s.floor.reel slot = some reel → reel.order = l ++ [h] → s.floor.cue h = some c →
    ∃ t, exec .closureStep s = .next t ∧ t.floor.cue h = none ∧ (∀ j, j ≠ h → t.floor.cue j = s.floor.cue j) ∧
      (∀ k, k ≠ slot → t.floor.reel k = s.floor.reel k) ∧
      (∀ id, t.floor.character id =
        (s.floor.character id).map fun d => { d with useCount := d.useCount - c.fields.characters.count id }) ∧
      (l ≠ [] → t = { s with floor := { s.floor with cues := t.floor.cues, reels := t.floor.reels, chars := t.floor.chars } } ∧
        t.floor.reel slot = some { reel with order := l }) ∧
      (l = [] → t.floor.reel slot = none ∧ t.closure = none ∧ t.floor.notices = s.floor.notices.set 25 true ∧
        (∀ i, (t.floor.runner i).selected =
          if (s.floor.runner i).selected = some slot then none else (s.floor.runner i).selected) ∧
        (∀ i, t.floor.stage i = if (s.floor.runner i).selected = some slot
          then { s.floor.stage i with runner := { s.floor.runner i with selected := none, manualReel := none } }
          else s.floor.stage i)) ∧
      t.link = s.link ∧ t.operation = s.operation ∧ t.pending = s.pending

/-! ## Characters and the cast map -/

/-- CHAR_DEFINE makes a FREE slot DEFINED with use count 0, or renames a DEFINED one; CHAR_RETIRE frees a character that is
in use by no cue and cast nowhere, and refuses any other DEFINED one. The answer of CHAR_DEFINE, 0 for created and 1 for
renamed, is log 12's reading of R201. A CHAR_DEFINE with an id above 63 or a name not of 1 to 8 name characters is refused
BAD_REQUEST, a CHAR_RETIRE of an id above 63 or a FREE slot UNKNOWN_CHARACTER. -/
def Obligations.CharactersAreDefinedAndRetired : Prop :=
  ∀ s : State, s.Receives →
    (∀ (q : Request CharDefineFields) (x : CharDefineFields), readRequest none parseCharDefine q = .ok x →
      x.character < 64 → 1 ≤ x.name.length → x.name.length ≤ 8 →
      (∀ b ∈ x.name, (0x41 ≤ b.toNat ∧ b.toNat ≤ 0x5A) ∨ (0x30 ≤ b.toNat ∧ b.toNat ≤ 0x39) ∨ b = 0x20 ∨ b = 0x2D) →
      ∃ t, exec (.charDefine q) s = .next t ∧
        t.floor.character x.character =
          some { name := x.name, useCount := ((s.floor.character x.character).map Character.useCount).getD 0 } ∧
        (∀ j, j ≠ x.character → t.floor.character j = s.floor.character j) ∧
        t = s.carriedOut { s.floor with chars := t.floor.chars } Code.charDefine .ok
          [if (s.floor.character x.character).isSome = true then 1 else 0]) ∧
    (∀ (q : Request Nat) (id : Nat) (c : Character), readRequest none parse1 q = .ok id → id < 64 →
      s.floor.character id = some c →
      (c.useCount = 0 → (∀ i k, s.floor.casts[(i : Fin 4)][(k : Fin 6)] ≠ some id) →
        ∃ t, exec (.charRetire q) s = .next t ∧ t.floor.character id = none ∧
          (∀ j, j ≠ id → t.floor.character j = s.floor.character j) ∧
          t = s.carriedOut { s.floor with chars := t.floor.chars } Code.charRetire .ok []) ∧
      ((c.useCount ≠ 0 ∨ ∃ i k, s.floor.casts[(i : Fin 4)][(k : Fin 6)] = some id) →
        exec (.charRetire q) s = .next (s.replied Code.charRetire .characterInUse []))) ∧
    (∀ (q : Request CharDefineFields) (x : CharDefineFields), readRequest none parseCharDefine q = .ok x →
      (64 ≤ x.character ∨ x.name.length = 0 ∨ 8 < x.name.length ∨
        ∃ b ∈ x.name, ¬((0x41 ≤ b.toNat ∧ b.toNat ≤ 0x5A) ∨ (0x30 ≤ b.toNat ∧ b.toNat ≤ 0x39) ∨ b = 0x20 ∨ b = 0x2D)) →
      exec (.charDefine q) s = .next (s.replied Code.charDefine .badRequest [])) ∧
    (∀ (q : Request Nat) (id : Nat), readRequest none parse1 q = .ok id →
      (64 ≤ id ∨ s.floor.character id = none) →
      exec (.charRetire q) s = .next (s.replied Code.charRetire .unknownCharacter []))

/-- CAST_ASSIGN sets the podium given to the character and empties the one it stood at, as one change; CAST_RELEASE empties
the podium the character stands at. Both answer with the place held before, absent as two bytes of 0xFF (log 13). Refused is
a stage, a podium or a move flag (log 17) outside its range, then an id that is no DEFINED character, then a character cast
on another stage without the move flag, then a podium that holds another character. -/
def Obligations.CastsAreAssignedAndReleased : Prop :=
  ∀ s : State, s.Receives → s.floor.CastMap →
    let place := fun id => match s.floor.castPlace id with
      | some (j, l) => [byte j.val, byte l.val]
      | none => [0xFF, 0xFF]
    let known := fun id => id < 64 ∧ (s.floor.character id).isSome = true
    let elsewhere := fun (id stage : Nat) => ∃ j l, s.floor.casts[(j : Fin 4)][(l : Fin 6)] = some id ∧ j.val ≠ stage
    (∀ (q : Request CastAssignFields) (x : CastAssignFields) (i : Fin 4) (k : Fin 6),
      readRequest none parseCastAssign q = .ok x → x.stage = i.val → x.podium = k.val → x.move ≤ 1 →
      x.character < 64 → (s.floor.character x.character).isSome = true →
      (x.move = 0 → ∀ j l, s.floor.casts[(j : Fin 4)][(l : Fin 6)] = some x.character → j = i) →
      (s.floor.casts[i][k] = none ∨ s.floor.casts[i][k] = some x.character) →
      ∃ t, exec (.castAssign q) s = .next t ∧
        (∀ (j : Fin 4) (l : Fin 6), t.floor.casts[j][l] =
          if j = i ∧ l = k then some x.character
          else if s.floor.casts[j][l] = some x.character then none else s.floor.casts[j][l]) ∧
        t = s.carriedOut { s.floor with casts := t.floor.casts } Code.castAssign .ok
          (place x.character)) ∧
    (∀ (q : Request Nat) (id : Nat), readRequest none parse1 q = .ok id → id < 64 →
      (s.floor.character id).isSome = true →
      ∃ t, exec (.castRelease q) s = .next t ∧
        (∀ (j : Fin 4) (l : Fin 6), t.floor.casts[j][l] =
          if s.floor.casts[j][l] = some id then none else s.floor.casts[j][l]) ∧
        t = s.carriedOut { s.floor with casts := t.floor.casts } Code.castRelease .ok
          (place id)) ∧
    (∀ (id : Nat) (i : Fin 4) (k : Fin 6), s.floor.casts[i][k] = some id → s.floor.castPlace id = some (i, k)) ∧
    (∀ id : Nat, (∀ i k, s.floor.casts[(i : Fin 4)][(k : Fin 6)] ≠ some id) → s.floor.castPlace id = none) ∧
    (∀ (q : Request CastAssignFields) (x : CastAssignFields), readRequest none parseCastAssign q = .ok x →
      let refused := fun st => exec (.castAssign q) s = .next (s.replied Code.castAssign st [])
      let named := x.stage ≤ 3 ∧ x.podium ≤ 5 ∧ x.move ≤ 1
      (¬named → refused .badRequest) ∧
      (named → ¬known x.character → refused .unknownCharacter) ∧
      (named → known x.character → x.move = 0 → elsewhere x.character x.stage → refused .castConflict) ∧
      (∀ (i : Fin 4) (k : Fin 6) (other : Nat), named → x.stage = i.val → x.podium = k.val → known x.character →
        (x.move = 1 ∨ ¬elsewhere x.character x.stage) → s.floor.casts[i][k] = some other → other ≠ x.character →
        refused .podiumTaken)) ∧
    (∀ (q : Request Nat) (id : Nat), readRequest none parse1 q = .ok id → ¬known id →
      exec (.castRelease q) s = .next (s.replied Code.castRelease .unknownCharacter []))

/-! ## Position trackers -/

/-- TRACKER_SET gives the tracker its fitted settings. A changed rate starts the estimate and the speed afresh and
replaces a frame index outside the new day by 0; a changed source or rate takes a tracker that is not IDLE to SEARCHING,
and then a working runner aborts its runs at that position and goes to STANDBY, and the transmitter forgets the last
frame sent. The order is log 21: the settings, the estimate, speed and position of a new rate first, then SEARCHING,
then the aborts, whose takes end at that position and whose guard gap is at the new rate. A stage above 3, an empty
selection, a source choice or a rate code outside those named is refused BAD_REQUEST. A PUNCHED run that holds no
position was punched where its take ends (log 25). -/
def Obligations.TrackerSetTakesSettings : Prop :=
  (∀ (q : Request TrackerSetFields) (x : TrackerSetFields) (s : State) (i : Fin 4) (source : Option SourceChoice)
    (rate : Option Rate), s.Receives → readRequest (some 5) parseTrackerSet q = .ok x → x.stage = i.val →
    (x.source.isSome ∨ x.rate.isSome ∨ x.lockCount.isSome ∨ x.jumpConfirm.isSome ∨ x.freewheelLimit.isSome) →
    givenCode SourceChoice.ofCode x.source = .ok source → givenCode Rate.ofCode x.rate = .ok rate →
    let t := s.floor.tracker i
    let r := s.floor.runner i
    let newSource := source.getD t.source
    let newRate := rate.getD t.rate
    let lock := x.lockCount.getD t.lockCount
    let jump := x.jumpConfirm.getD t.jumpConfirm
    let limit := x.freewheelLimit.getD t.freewheelLimit
    let set := { t with
      source := newSource, rate := newRate
      lockCount := max 2 (min lock 16), jumpConfirm := max 1 (min jump 8), freewheelLimit := min limit 60
      e8 := if newRate = t.rate then t.e8 else 8 * newRate.nominal
      speed := if newRate = t.rate then t.speed else 10000
      inSpeed := if newRate = t.rate then t.inSpeed else true
      position := if newRate ≠ t.rate ∧ newRate.framesPerDay ≤ t.position / 64 then t.position % 64 else t.position }
    ∃ u, exec (.trackerSet q) s = .next u ∧
      u.floor.tracker i =
        (if (newSource ≠ t.source ∨ newRate ≠ t.rate) ∧ t.state ≠ .idle then
          { set with state := .searching, acquisition := none, candidate := none, lastBoundary := none,
                     timingRef := none, synthetic := 0 }
        else set) ∧
      (∀ j, j ≠ i → u.floor.stage j = s.floor.stage j) ∧
      u.link = (s.replied Code.trackerSet
        (if (2 ≤ lock ∧ lock ≤ 16) ∧ (1 ≤ jump ∧ jump ≤ 8) ∧ limit ≤ 60 then .ok else .clamped)
        [byte newSource.code, byte newRate.code, byte (max 2 (min lock 16)), byte (max 1 (min jump 8)),
         byte (min limit 60)]).link ∧
      (newSource = t.source → newRate = t.rate → u.floor = s.floor.modTracker i fun _ => set) ∧
      (t.state = .idle → u.floor = s.floor.modTracker i fun _ => set) ∧
      ((newSource ≠ t.source ∨ newRate ≠ t.rate) → t.state ≠ .idle →
        (u.floor.overlay i).lastFrame = none ∧ u.floor.notices = s.floor.notices ∧
        (r.state.working = true →
          (s.floor.modTracker i fun _ => set).LosesRuns u.floor i set.position ∧
          u.floor.runner i = { r with state := .standby, blankingCount := 0, runs := [], lastPosition := set.position }) ∧
        (r.state.working = false →
          u.floor.runner i = { r with lastPosition := set.position } ∧ u.floor.path i = s.floor.path i ∧
          u.floor.cues = s.floor.cues ∧ u.floor.monitor = s.floor.monitor)) ∧
      u.floor.reels = s.floor.reels ∧ u.floor.chars = s.floor.chars ∧ u.floor.casts = s.floor.casts ∧
      u.operation = s.operation ∧ u.closure = s.closure ∧ u.banks = s.banks ∧ u.lines = s.lines ∧
      u.pending = s.pending) ∧
  (∀ (q : Request TrackerSetFields) (x : TrackerSetFields) (s : State), s.Receives →
    readRequest (some 5) parseTrackerSet q = .ok x →
    (3 < x.stage ∨
      (x.source = none ∧ x.rate = none ∧ x.lockCount = none ∧ x.jumpConfirm = none ∧ x.freewheelLimit = none) ∨
      (∃ n, x.source = some n ∧ 2 < n) ∨ (∃ n, x.rate = some n ∧ 5 < n)) →
    exec (.trackerSet q) s = .next (s.replied Code.trackerSet .badRequest []))

/-- What a word does by the class and the state it meets: IDLE and the trackers of other pins take none; a malformed
word changes no tracker and counts a glitch, a rate-mismatched one changes no tracker and hands a RATE_MISMATCH
occurrence; the first valid word takes SEARCHING to ACQUIRING at count 1; in ACQUIRING a continuing word raises the
count and measures the period, or locks at the lock count with the position set from the word, and any other valid word
restarts at count 1. Where no other tracker takes the word, the word that locks hands on its boundary, at the position
it sets, and the first valid word the change of state. Source A selects the stage's own pin, B and C the two shared
ones. The reference counter becomes the arrival count where that is ahead of it (log 3). A PUNCHED run that holds no
position was punched where its take ends (log 25). -/
def Obligations.WordReachesTracker : Prop :=
  (∀ i : Fin 4, (selectedPin i .choiceA).val = i.val ∧ selectedPin i .choiceB = 4 ∧ selectedPin i .choiceC = 5) ∧
  (∀ (r : Rate) (n p : Nat), n < r.framesPerDay →
    r.stepFrame .forward n = (if n + 1 = r.framesPerDay then 0 else n + 1) ∧
    r.stepFrame .reverse n = (if n = 0 then r.framesPerDay - 1 else n - 1) ∧ labelOf r p = Label.ofFrame r (p / 64)) ∧
  ∀ (pin : Fin 6) (w : TimecodeWord) (s : State) (i : Fin 4),
    let t := s.floor.tracker i
    let f : Floor := { s.floor with now := max s.floor.now w.arrival }
    let word : Label := ⟨w.hours, w.minutes, w.seconds, w.frames⟩
    let malformed := 24 ≤ w.hours ∨ 60 ≤ w.minutes ∨ 60 ≤ w.seconds ∨ 30 ≤ w.frames ∨
      (w.drop = true ∧ word.isDropped = true)
    let mismatched := ¬malformed ∧ (¬(w.drop = true ↔ t.rate = .fps2997drop) ∨ t.rate.base ≤ w.frames)
    let valid := word.isValid t.rate = true ∧ (w.drop = true ↔ t.rate = .fps2997drop)
    let restarted : Tracker := { t with
      state := .acquiring
      acquisition := some { count := 1, label := word, direction := w.direction, arrival := w.arrival }
      timingRef := some w.arrival, candidate := none, synthetic := 0 }
    let changed := fun new : Tracker => f.modStage i fun st => { st with
      tracker := new, runner := { st.runner with lastPosition := t.position }
      overlay := { st.overlay with lastFrame := none } }
    ∃ u, exec (.wordArrival pin w) s = .next u ∧ u = { s with floor := u.floor } ∧ u.floor.now = f.now ∧
      (malformed → u.floor.stage i = s.floor.stage i) ∧
      (malformed → s.floor.SoleListener pin i → u.floor = f.countOccurrence i .glitches) ∧
      (selectedPin i t.source ≠ pin → u.floor.stage i = s.floor.stage i) ∧
      (t.state = .idle → u.floor.stage i = s.floor.stage i) ∧
      (mismatched → u.floor.tracker i = t) ∧
      (mismatched → s.floor.SoleListener pin i → u.floor = f.occurrence i .rateMismatch) ∧
      (selectedPin i t.source = pin → valid → t.state = .searching → u.floor.tracker i = restarted ∧
        (s.floor.SoleListener pin i →
          ((s.floor.runner i).state.working = false → u.floor = changed restarted) ∧
          ((s.floor.runner i).state.working = true → f.LosesRuns u.floor i t.position))) ∧
      (∀ a, selectedPin i t.source = pin → valid → t.state = .acquiring → t.acquisition = some a →
        let continues := w.direction = a.direction ∧
          word = Label.ofFrame t.rate (t.rate.stepFrame a.direction (a.label.frameIndex t.rate))
        let e8 := match t.timingRef with
          | none => t.e8
          | some ref =>
            let p := min (max (w.arrival - ref) (t.rate.nominal / 2)) (2 * t.rate.nominal)
            if a.count = 1 then 8 * p else t.e8 - t.e8 / 8 + p
        let v := (t.rate.nominal * 10000 + e8 / 8 / 2) / (e8 / 8)
        let new := t.rate.stepFrame w.direction (word.frameIndex t.rate) * 64
        let counted : Tracker := { t with
          acquisition := some { count := a.count + 1, label := word, direction := w.direction, arrival := w.arrival }
          timingRef := some w.arrival, e8 := e8 }
        let locked : Tracker := { t with
          state := .locked, direction := w.direction, acquisition := none, position := new
          lastBoundary := some w.arrival, timingRef := some w.arrival, e8 := e8, speed := v
          inSpeed := decide (8750 ≤ v ∧ v ≤ 11250) }
        (¬continues → u.floor.tracker i = restarted ∧
          (s.floor.SoleListener pin i → u.floor = f.modTracker i fun _ => restarted)) ∧
        (continues → a.count + 1 < t.lockCount → u.floor.tracker i = counted ∧
          (s.floor.SoleListener pin i → u.floor = f.modTracker i fun _ => counted)) ∧
        (continues → t.lockCount ≤ a.count + 1 → u.floor.tracker i = locked ∧
          (s.floor.SoleListener pin i → u.floor = (f.modStage i fun st => { st with
            tracker := locked, runner := { st.runner with lastPosition := new } }).boundary i)))

/-- A valid word in LOCKED. One of the other direction starts an acquisition at count 1 with the position frozen and the
last boundary kept (log 29), and the runner stops its chase. One of the lock's direction measures the period and
computes the speed: the expected label steps the position one frame and discards a candidate with a glitch; any other
label becomes the candidate, or raises the confirm count of the one it continues, and the position steps on the expected
track all the same, until the jump confirm count is reached and the jump is accepted at the position the word sets.
Where no other tracker takes the word, the move, the jump and the boundary are handed on to the stage in that order. The
reference counter becomes the arrival count where that is ahead of it (log 3). A PUNCHED run that holds no position was
punched where its take ends (log 25). -/
def Obligations.LockedTrackerTakesWord : Prop :=
  ∀ (pin : Fin 6) (w : TimecodeWord) (s : State) (i : Fin 4),
    let t := s.floor.tracker i
    let r := s.floor.runner i
    let f : Floor := { s.floor with now := max s.floor.now w.arrival }
    let word : Label := ⟨w.hours, w.minutes, w.seconds, w.frames⟩
    let e8 := match t.timingRef with
      | none => t.e8
      | some ref => t.e8 - t.e8 / 8 + min (max (w.arrival - ref) (t.rate.nominal / 2)) (2 * t.rate.nominal)
    let v := (t.rate.nominal * 10000 + e8 / 8 / 2) / (e8 / 8)
    let marked := fun candidate : Option Candidate => ({ t with
      lastBoundary := some w.arrival, timingRef := some w.arrival, e8 := e8, speed := v
      inSpeed := decide (8750 ≤ v ∧ v ≤ 11250), candidate := candidate } : Tracker)
    let next := t.rate.stepFrame t.direction (t.position / 64) * 64
    let handedOn := fun g : Floor =>
      ((if t.direction = .forward then g.forwardMove i next else g.place i next) : Floor).boundary i
    let confirm := match t.candidate with
      | some c => if word = Label.ofFrame t.rate (t.rate.stepFrame t.direction (c.label.frameIndex t.rate))
          then c.confirm + 1 else 1
      | none => 1
    let landing := t.rate.stepFrame t.direction (word.frameIndex t.rate) * 64
    selectedPin i t.source = pin → t.state = .locked → t.position / 64 < t.rate.framesPerDay →
    word.isValid t.rate = true → (w.drop = true ↔ t.rate = .fps2997drop) →
    ∃ u, exec (.wordArrival pin w) s = .next u ∧ u = { s with floor := u.floor } ∧ u.floor.now = f.now ∧
      (w.direction ≠ t.direction →
        u.floor.tracker i = { t with
          state := .acquiring
          acquisition := some { count := 1, label := word, direction := w.direction, arrival := w.arrival }
          timingRef := some w.arrival, candidate := none, synthetic := 0 } ∧
        (r.state.working = true → (u.floor.runner i).state = .standby ∧ (u.floor.runner i).runs = []) ∧
        (s.floor.SoleListener pin i → r.state.working = true → f.LosesRuns u.floor i t.position) ∧
        (r.state.working = false → u.floor.runner i = { r with lastPosition := t.position })) ∧
      (w.direction = t.direction → word = labelOf t.rate t.position →
        u.floor.tracker i = { marked none with position := next } ∧
        (s.floor.SoleListener pin i → u.floor = handedOn
          ((if t.candidate = none then f else f.countOccurrence i .glitches).modTracker i fun _ => marked none))) ∧
      (w.direction = t.direction → word ≠ labelOf t.rate t.position → confirm < t.jumpConfirm →
        u.floor.tracker i = { marked (some { label := word, confirm := confirm }) with position := next } ∧
        (s.floor.SoleListener pin i → u.floor = handedOn
          (f.modTracker i fun _ => marked (some { label := word, confirm := confirm })))) ∧
      (w.direction = t.direction → word ≠ labelOf t.rate t.position → t.jumpConfirm ≤ confirm →
        u.floor.tracker i = { marked none with position := landing } ∧
        (s.floor.SoleListener pin i → u.floor =
          ((f.modTracker i fun _ => { marked none with position := landing }).jump i landing).boundary i))

/-- A subframe advance moves the position one subframe on at the count at which floor(elapsed x 64 / E) rises; the
expiry of the acquisition deadline, at the last counted word's arrival plus two nominal periods, takes the tracker to
SEARCHING with its position frozen; the transmitter forgets the last frame sent, and a working runner loses its runs and
goes to STANDBY. A PUNCHED run that holds no position was punched where its take ends (log 25). The reference counter
becomes the count of the event where that is ahead of it (log 3). -/
def Obligations.SubframeAndAcquisitionEvents : Prop :=
  ∀ (s : State) (i : Fin 4),
    let t := s.floor.tracker i
    (∀ b, (t.state = .locked ∨ t.state = .freewheel) → t.direction = .forward → t.position % 64 < 63 →
      t.lastBoundary = some b → 0 < t.e8 / 8 →
      ∃ u d, exec (.subframeAdvance i) s = .next u ∧ u = { s with floor := u.floor } ∧
        u.floor.tracker i = { t with position := t.position + 1 } ∧ u.floor.now = max s.floor.now d ∧
        u.floor = ({ s.floor with now := max s.floor.now d } : Floor).forwardMove i (t.position + 1) ∧
        (∀ n, b ≤ n → ((n - b) * 64 / (t.e8 / 8) > t.position % 64 ↔ d ≤ n)) ∧
        ∀ j, j ≠ i → u.floor.stage j = s.floor.stage j) ∧
    (∀ a, t.state = .acquiring → t.acquisition = some a →
      let r := s.floor.runner i
      let f : Floor := { s.floor with now := max s.floor.now (a.arrival + 2 * t.rate.nominal) }
      let stopped : Tracker := { t with state := .searching, acquisition := none, candidate := none,
                                        lastBoundary := none, timingRef := none, synthetic := 0 }
      ∃ u, exec (.acquisitionDeadlineExpiry i) s = .next u ∧ u = { s with floor := u.floor } ∧
        u.floor.now = max s.floor.now (a.arrival + 2 * t.rate.nominal) ∧
        u.floor.tracker i = stopped ∧
        (r.state.working = false → u.floor = f.modStage i fun st => { st with
          tracker := stopped, runner := { st.runner with lastPosition := t.position }
          overlay := { st.overlay with lastFrame := none } }) ∧
        (r.state.working = true → (u.floor.runner i).state = .standby ∧ f.LosesRuns u.floor i t.position) ∧
        ∀ j, j ≠ i → u.floor.stage j = s.floor.stage j)

/-- The LOCKED deadline: with limit 0 a code stop, else FREEWHEEL with a first boundary back-dated to last boundary + E;
a PUNCHED run then hands a DROPOUT occurrence before the move and the boundary. In FREEWHEEL the next boundary at last
boundary + E is made below the limit, else there is a code stop; the expected word re-anchors in LOCKED with the
estimate unchanged, and any other valid word starts an acquisition, with the last boundary kept (log 29). At a code stop
and a new acquisition the position is frozen, and a working runner loses its runs and goes to STANDBY. The reference
counter becomes the count of the event where that is ahead of it (log 3). A PUNCHED run that holds no position was
punched where its take ends (log 25). -/
def Obligations.FreewheelEvents : Prop :=
  ∀ (s : State) (i : Fin 4) (b : Nat),
    let t := s.floor.tracker i
    let r := s.floor.runner i
    let e := t.e8 / 8
    let frame := t.rate.stepFrame t.direction (t.position / 64) * 64
    let stopped : Tracker := { t with state := .searching, acquisition := none, candidate := none,
                                      lastBoundary := none, timingRef := none, synthetic := 0 }
    let lost := fun u : State =>
      (r.state.working = true → (u.floor.runner i).state = .standby ∧ (u.floor.runner i).runs = []) ∧
      (r.state.working = false → u.floor.runner i = { r with lastPosition := t.position }) ∧
      (u.floor.overlay i).lastFrame = none
    let aborts := fun (g : Floor) (u : State) => r.state.working = true → g.LosesRuns u.floor i t.position
    let handedOn := fun (g : Floor) (new : Nat) =>
      ((if t.direction = .forward then g.forwardMove i new else g.place i new) : Floor).boundary i
    let noted := fun (g : Floor) => g.modRunner i fun q => { q with lastPosition := t.position }
    t.lastBoundary = some b → t.position / 64 < t.rate.framesPerDay →
    (t.state = .locked →
      let f : Floor := { s.floor with now := max s.floor.now (b + 5 * e / 4) }
      let free : Tracker := { t with state := .freewheel, lastBoundary := some (b + e), synthetic := 1, candidate := none,
                                     timingRef := none }
      let new := frame + (if t.direction = .forward then min 63 ((5 * e / 4 - e) * 64 / e) else 0)
      ∃ u, exec (.lockedDeadlineExpiry i) s = .next u ∧ u = { s with floor := u.floor } ∧ u.floor.now = f.now ∧
        (t.freewheelLimit = 0 → u.floor.tracker i = stopped ∧ lost u ∧ aborts f u) ∧
        (t.freewheelLimit ≠ 0 → u.floor.tracker i = { free with position := new } ∧
          let g := noted (f.modTracker i fun _ => free)
          u.floor = handedOn (if r.state.working = true ∧ ∃ x ∈ r.runs, x.punch = .punched
            then g.occurrence i .dropout else g) new)) ∧
    (t.state = .freewheel →
      let f : Floor := { s.floor with now := max s.floor.now (b + e) }
      let on : Tracker := { t with lastBoundary := some (b + e), synthetic := t.synthetic + 1 }
      ∃ u, exec (.syntheticBoundaryDue i) s = .next u ∧ u = { s with floor := u.floor } ∧ u.floor.now = f.now ∧
        (t.synthetic < t.freewheelLimit → u.floor.tracker i = { on with position := frame } ∧
          u.floor = handedOn (f.modTracker i fun _ => on) frame) ∧
        (t.freewheelLimit ≤ t.synthetic → u.floor.tracker i = stopped ∧ lost u ∧ aborts f u)) ∧
    (∀ (pin : Fin 6) (w : TimecodeWord), t.state = .freewheel → selectedPin i t.source = pin →
      let f : Floor := { s.floor with now := max s.floor.now w.arrival }
      let word : Label := ⟨w.hours, w.minutes, w.seconds, w.frames⟩
      let expected := w.direction = t.direction ∧ word = labelOf t.rate t.position
      let v := (t.rate.nominal * 10000 + e / 2) / e
      let back : Tracker := { t with state := .locked, lastBoundary := some w.arrival, timingRef := some w.arrival,
                                     synthetic := 0, speed := v, inSpeed := decide (8750 ≤ v ∧ v ≤ 11250) }
      word.isValid t.rate = true → (w.drop = true ↔ t.rate = .fps2997drop) →
      ∃ u, exec (.wordArrival pin w) s = .next u ∧ u = { s with floor := u.floor } ∧ u.floor.now = f.now ∧
        (expected → u.floor.tracker i = { back with position := frame } ∧
          (s.floor.SoleListener pin i → u.floor = handedOn (noted (f.modTracker i fun _ => back)) frame)) ∧
        (¬expected → lost u ∧ (s.floor.SoleListener pin i → aborts f u) ∧ u.floor.tracker i = { t with
          state := .acquiring
          acquisition := some { count := 1, label := word, direction := w.direction, arrival := w.arrival }
          timingRef := some w.arrival, candidate := none, synthetic := 0 }))

/-! ## Stage runners -/

/-- STAGE_ENABLE takes an OFFLINE runner to STANDBY and its tracker to SEARCHING with its position unchanged; any other
runner keeps its state and the request is refused STAGE_STATE; a stage above 3 is refused BAD_REQUEST. -/
def Obligations.StageEnableStartsStage : Prop :=
  (∀ (q : Request Nat) (s : State) (i : Fin 4), s.Receives → readRequest none parse1 q = .ok i.val →
    ((s.floor.runner i).state = .offline →
      exec (.stageEnable q) s = .next (s.carriedOut
        (s.floor.modStage i fun st => { st with
          tracker := { st.tracker with state := .searching, acquisition := none, candidate := none,
                                       lastBoundary := none, timingRef := none, synthetic := 0 }
          runner := { st.runner with state := .standby, lastPosition := st.tracker.position }
          overlay := { st.overlay with lastFrame := none } })
        Code.stageEnable .ok [])) ∧
    ((s.floor.runner i).state ≠ .offline →
      exec (.stageEnable q) s = .next (s.replied Code.stageEnable .stageState []))) ∧
  (∀ (q : Request Nat) (s : State) (n : Nat), s.Receives → readRequest none parse1 q = .ok n → 3 < n →
    exec (.stageEnable q) s = .next (s.replied Code.stageEnable .badRequest []))

/-- STAGE_DISABLE and STAGE_RESET abort the stage's runs, each take of a PUNCHED one ABORTED at the tracker position as
it stood before the request, take the runner OFFLINE and the tracker IDLE, free the path at once and quiet the
transmitter, with the configuration kept; a reset also sets the position to 0 and clears the stage's notices. The other
stages, the casts and the reels stand. A stage above 3 is refused BAD_REQUEST. A PUNCHED run that holds no position was
punched where its take ends (log 25). -/
def Obligations.StageDisableAndReset : Prop :=
  (∀ (q : Request Nat) (s : State) (i : Fin 4) (reset : Bool), s.Receives → readRequest none parse1 q = .ok i.val →
    ∃ t, exec (if reset then .stageReset q else .stageDisable q) s = .next t ∧
      t.floor.runner i = { s.floor.runner i with
        state := .offline, blankingCount := 0, holdOff := 0, runs := [], workingCast := Vector.replicate 6 none
        lastPosition := if reset then 0 else (s.floor.tracker i).position
        selected := if (s.floor.runner i).mode = .auto then none else (s.floor.runner i).selected } ∧
      t.floor.tracker i = { s.floor.tracker i with
        state := .idle, acquisition := none, candidate := none, lastBoundary := none, timingRef := none, synthetic := 0
        direction := .forward, e8 := 8 * (s.floor.tracker i).rate.nominal, speed := 10000, inSpeed := true
        position := if reset then 0 else (s.floor.tracker i).position } ∧
      t.floor.path i = { s.floor.path i with state := .free, talkWanted := false, gapExpiry := none, demand := false } ∧
      t.floor.overlay i = { s.floor.overlay i with waiting := none, lastFrame := none, flashMarks := [] } ∧
      t.floor.faults i = s.floor.faults i ∧
      s.floor.TakesAborted t.floor (fun j _ => j == i) (fun _ => (s.floor.tracker i).position) ∧
      (∀ j, j ≠ i → t.floor.stage j = s.floor.stage j) ∧
      (∀ n : Notice, t.floor.notices[n.index] =
        match n with
        | .ofStage j _ => if reset = true ∧ j = i then false else s.floor.notices[n.index]
        | _ => s.floor.notices[n.index]) ∧
      (∀ k : Fin 8, t.floor.monitor.counters[k].memory =
        if s.floor.monitor.counters[k].stage = i then .unknown else s.floor.monitor.counters[k].memory) ∧
      t.floor.mask = s.floor.mask ∧ t.floor.reels = s.floor.reels ∧ t.floor.chars = s.floor.chars ∧
      t.floor.casts = s.floor.casts ∧
      t.link = (s.replied (if reset then Code.stageReset else Code.stageDisable) .ok []).link ∧
      t.operation = s.operation ∧ t.closure = s.closure ∧ t.banks = s.banks ∧ t.lines = s.lines ∧
      t.strap = s.strap ∧ t.pending = s.pending) ∧
  (∀ (q : Request Nat) (s : State) (n : Nat), s.Receives → readRequest none parse1 q = .ok n → 3 < n →
    exec (.stageDisable q) s = .next (s.replied Code.stageDisable .badRequest []) ∧
    exec (.stageReset q) s = .next (s.replied Code.stageReset .badRequest []))

/-- STAGE_SELECT_REEL takes the selection; where the mode or the reel changes, a runner in CHASING or BLANKED aborts its
runs at the tracker position and goes to STANDBY, and any other keeps its state. "auto" given to an AUTO stage that
holds a reel is such a change (log 31). A stage above 3, a choice or a reel number outside its range is refused
BAD_REQUEST, then a reel that no slot holds UNKNOWN_REEL and a CLOSING one REEL_CLOSING. A PUNCHED run that holds no
position was punched where its take ends (log 25). -/
def Obligations.StageSelectReelTakesSelection : Prop :=
  (∀ (q : Request SelectReelFields) (x : SelectReelFields) (s : State) (i : Fin 4) (mode : SelectionMode)
    (manual selected : Option Nat), s.Receives → readRequest none parseSelectReel q = .ok x → x.stage = i.val →
    ((x.choice = 0 ∧ 1 ≤ x.reel ∧ x.reel ≤ 99 ∧ mode = .manual ∧ manual = some x.reel ∧
        ∃ slot reel, s.floor.resolveReel x.reel = .ok (slot, reel) ∧ selected = some slot) ∨
      (x.choice = 1 ∧ mode = .manual ∧ manual = none ∧ selected = none) ∨
      (x.choice = 2 ∧ mode = .auto ∧ manual = none ∧ selected = none)) →
    let r := s.floor.runner i
    let same := r.mode = mode ∧ r.manualReel = manual ∧ r.selected = selected
    ∃ t, exec (.stageSelectReel q) s = .next t ∧
      (same → t = s.replied Code.stageSelectReel .ok []) ∧
      (t.floor.runner i).mode = mode ∧ (t.floor.runner i).manualReel = manual ∧
      (t.floor.runner i).selected = selected ∧
      (¬same → r.state.working = true → (t.floor.runner i).state = .standby ∧ (t.floor.runner i).runs = [] ∧
        (t.floor.runner i).blankingCount = 0 ∧ s.floor.LosesRuns t.floor i (s.floor.tracker i).position) ∧
      (r.state.working = false → t = s.carriedOut
        (s.floor.modRunner i fun r => { r with mode := mode, manualReel := manual, selected := selected })
        Code.stageSelectReel .ok []) ∧
      (∀ j, j ≠ i → t.floor.stage j = s.floor.stage j) ∧
      t.link = (s.replied Code.stageSelectReel .ok []).link ∧ t.floor.reels = s.floor.reels ∧
      t.floor.chars = s.floor.chars ∧ t.floor.casts = s.floor.casts ∧ t.floor.notices = s.floor.notices ∧
      t.operation = s.operation ∧ t.closure = s.closure ∧ t.banks = s.banks ∧ t.lines = s.lines ∧
      t.pending = s.pending) ∧
  (∀ (q : Request SelectReelFields) (x : SelectReelFields) (s : State), s.Receives →
    readRequest none parseSelectReel q = .ok x →
    let refused := fun st => exec (.stageSelectReel q) s = .next (s.replied Code.stageSelectReel st [])
    let named := x.stage ≤ 3 ∧ (x.choice = 0 ∧ 1 ≤ x.reel ∧ x.reel ≤ 99 ∨ x.choice = 1 ∨ x.choice = 2)
    (¬named → refused .badRequest) ∧
    (named → x.choice = 0 → (∀ e ∈ s.floor.reels, e.2.number ≠ x.reel) → refused .unknownReel) ∧
    (∀ slot reel, named → x.choice = 0 →
      s.floor.reels.find? (fun e => e.2.number == x.reel) = some (slot, reel) → reel.state = .reelClosing →
      refused .reelClosing))

/-- STAGE_SET takes the settings given; skip-printed is given and answered as 1 for set (log 12). A record mode equal to
the one held changes nothing else. A change to REHEARSE leaves every run in its phase with punch state NONE, a PUNCHED
run reporting an ABORTED take that ends at the tracker position and is counted by the monitor unit, and the path takes
the release: RECORD goes through a guard gap, or on to TALK or FREE where its length is 0, and PROTECTED to GAP, TALK or
FREE. At a change to RECORD demand arises where a run stands between its pre-emption point and its punch-in point. A
PUNCHED run that holds no position reports the tracker's (log 25). A stage above 3, an empty selection, a record mode or
a skip-printed value outside those named is refused BAD_REQUEST. Demand and claims go by the position of a run, also
where a jump back kept it before a punch-in point it had reached before, in REHEARSE or in RECORD (log 41). -/
def Obligations.StageSetTakesSettings : Prop :=
  (∀ (q : Request StageSetFields) (x : StageSetFields) (s : State) (i : Fin 4) (mode : Option RecordMode)
    (skip : Option Bool), s.Receives → readRequest (some 3) parseStageSet q = .ok x → x.stage = i.val →
    (x.recordMode.isSome ∨ x.skipPrinted.isSome ∨ x.blankingLength.isSome) →
    givenCode RecordMode.ofCode x.recordMode = .ok mode → givenCode flagOfCode x.skipPrinted = .ok skip →
    let r := s.floor.runner i
    let p := s.floor.path i
    let pos := (s.floor.tracker i).position
    let gap := p.guardGap * (s.floor.tracker i).rate.nominal / 64
    let open_ := if p.talkWanted = true then PathState.talk else PathState.free
    let newMode := mode.getD r.recordMode
    let newSkip := skip.getD r.skipPrinted
    let asked := x.blankingLength.getD r.blankingLength
    ∃ t, exec (.stageSet q) s = .next t ∧
      (t.floor.runner i).recordMode = newMode ∧ (t.floor.runner i).skipPrinted = newSkip ∧
      (t.floor.runner i).blankingLength = min asked 30 ∧ (t.floor.runner i).state = r.state ∧
      (t.floor.runner i).blankingCount = r.blankingCount ∧
      (t.floor.runner i).runs.map Run.handle = r.runs.map Run.handle ∧
      (t.floor.runner i).runs.map Run.phase = r.runs.map Run.phase ∧
      (newMode = r.recordMode → t.floor = s.floor.modRunner i fun r =>
        { r with skipPrinted := newSkip, blankingLength := min asked 30 }) ∧
      (newMode = .rehearse → r.recordMode = .record → (s.floor.stage i).PathTable → (r.runs.map Run.handle).Nodup →
        (t.floor.runner i).runs =
          r.runs.map (fun y => { y with punch := .unpunched, punchedAt := none, claim := none, lateGrant := none }) ∧
        (∀ y ∈ r.runs, ∀ c, s.floor.cue y.handle = some c → t.floor.cue y.handle = some
          (if y.punch = .punched then { c with
            takeCount := min (c.takeCount + 1) 999
            lastTake := some { stage := i, punchedAt := y.punchedAt.getD pos, endedAt := pos, outcome := .aborted } }
          else c)) ∧
        (∀ h, h ∉ r.runs.map Run.handle → t.floor.cue h = s.floor.cue h) ∧
        t.floor.path i =
          (match p.state with
           | .record => if gap = 0 then { p with state := open_, demand := false }
               else { p with state := .gap, gapExpiry := some (s.floor.now + gap), demand := false }
           | .protected_ => { p with state := if p.gapExpiry = none then open_ else .gap, demand := false }
           | _ => p)) ∧
      (newMode = .rehearse → r.recordMode = .record → (r.runs.map Run.handle).Nodup →
        t.floor.monitor = { s.floor.monitor with counters := t.floor.monitor.counters } ∧
        ∀ k : Fin 8,
          let c := s.floor.monitor.counters[k]
          let takes := (r.runs.filter fun y => y.punch == .punched).length
          t.floor.monitor.counters[k] =
            if c.stage = i ∧ c.source = .takesAborted ∧ takes ≠ 0 ∧ c.enabled = true ∧ s.floor.monitor.frozen = false
            then { c with value := min (c.value + takes) 4294967295 } else c) ∧
      (newMode = .record ∨ r.recordMode = .rehearse → t.floor.monitor = s.floor.monitor) ∧
      (newMode = .record → r.recordMode = .rehearse → (s.floor.stage i).PathTable →
        p.state ≠ .protected_ → p.state ≠ .record →
        let demands := ∃ y ∈ r.runs, ∃ c, s.floor.cue y.handle = some c ∧
          c.fields.preemptionPoint p.guardGap ≤ pos ∧ pos < c.fields.punchInPoint
        t.floor.cues = s.floor.cues ∧ (¬demands → t.floor.path i = p) ∧
        (demands → t.floor.path i = { p with
          state := .protected_, demand := true
          gapExpiry := if p.state = .talk ∧ gap ≠ 0 then some (s.floor.now + gap) else p.gapExpiry })) ∧
      (∀ j, j ≠ i → t.floor.stage j = s.floor.stage j) ∧
      t.link = (s.replied Code.stageSet (if asked ≤ 30 then .ok else .clamped)
        [byte newMode.code, if newSkip then 1 else 0, byte (min asked 30)]).link ∧
      t.floor.reels = s.floor.reels ∧ t.floor.chars = s.floor.chars ∧ t.floor.casts = s.floor.casts ∧
      t.floor.notices = s.floor.notices ∧ t.operation = s.operation ∧ t.closure = s.closure ∧
      t.banks = s.banks ∧ t.lines = s.lines ∧ t.pending = s.pending) ∧
  (∀ (q : Request StageSetFields) (x : StageSetFields) (s : State), s.Receives →
    readRequest (some 3) parseStageSet q = .ok x →
    (3 < x.stage ∨ (x.recordMode = none ∧ x.skipPrinted = none ∧ x.blankingLength = none) ∨
      (∃ n, x.recordMode = some n ∧ 1 < n) ∨ (∃ n, x.skipPrinted = some n ∧ 1 < n)) →
    exec (.stageSet q) s = .next (s.replied Code.stageSet .badRequest []))

/-- A forward move. By one position value, to p: every run whose punch-out point is p completes: it leaves the run list,
its cue's in-flight count falls by one, and a PUNCHED run reports a COMPLETE take, punched at p where a late grant of
this same count punched it, which the monitor unit counts, and one that is WAITING reports none. Every other run takes
the phase of p; at its punch-in point in RECORD mode an unpunched run claims: it is PUNCHED at p where the record gate
is asserted, where no gap runs in FREE or PROTECTED, or where the guard gap that the claim starts in TALK has length 0,
and WAITING while a gap runs; a WAITING run waits on. The path takes the claims and the demand as they stand after all
runs took p, once (log 30), and the transmitter the packet point, before or after a claim at the same value. By several
values: the one-value moves in ascending order. Across the day wrap: the move to DE, then every run left is aborted with
ended-at DE while the runner keeps its state, then the point at value 0 (log 33). A claim that waits notes its count and
value, a late grant its count (log 36), and a PUNCHED run that holds no position takes p (log 25). Demand and claims go
by the position of a run, also where a jump back kept it before a punch-in point it had reached before, in REHEARSE or
in RECORD (log 41). -/
def Obligations.RunsTakeTheirPoints : Prop :=
  (∀ (f : Floor) (i : Fin 4) (p : Nat), f.place i p = f.modStage i fun st => { st with
    tracker := { st.tracker with position := p }, runner := { st.runner with lastPosition := p } }) ∧
  (∀ (f : Floor) (c : Cue) (reel : Reel), f.reel c.reel = some reel →
    f.punchOut c = c.fields.punchOutPoint reel.rate) ∧
  (∀ (f : Floor) (i : Fin 4),
    let q := f.runner i
    let path := f.path i
    let p := (f.tracker i).position + 1
    let g := f.forwardMove i p
    let gap := path.guardGap * (f.tracker i).rate.nominal / 64
    let leaves := fun h => match f.cue h with
      | some c => f.punchOut c == p
      | none => false
    let granted := path.state = .record ∨ (path.state = .free ∨ path.state = .protected_) ∧ path.gapExpiry = none ∨
      path.state = .talk ∧ path.gapExpiry = none ∧ gap = 0
    let reachesIn := fun r : Run => r.punch = .unpunched ∧ q.recordMode = .record ∧
      ∃ c, f.cue r.handle = some c ∧ c.fields.punchInPoint = p
    let claims := ∃ r ∈ q.runs, reachesIn r ∧ leaves r.handle = false
    let unmarked := fun o : Overlay => { o with flashMarks := o.flashMarks.filter fun h =>
      !(q.runs.any fun r => r.handle == h && leaves h) }
    (q.runs.map Run.handle).Nodup → (∀ r ∈ q.runs, (f.cue r.handle).isSome = true) →
    (g.tracker i) = { f.tracker i with position := p } ∧ (g.runner i).state = q.state ∧
      (g.runner i).lastPosition = p ∧
      (g.runner i).runs.map Run.handle = (q.runs.map Run.handle).filter (fun h =>
        match f.cue h with
        | some c => f.punchOut c != p
        | none => true) ∧
      (∀ r ∈ q.runs, ∀ c, f.cue r.handle = some c →
        (f.punchOut c = p → g.cue r.handle = some { c with
          inFlight := c.inFlight - 1
          takeCount := if r.punch = .punched then min (c.takeCount + 1) 999 else c.takeCount
          lastTake := if r.punch = .punched
            then some { stage := i, punchedAt := if r.lateGrant = some f.now then p else r.punchedAt.getD p,
                        endedAt := p, outcome := .complete }
            else c.lastTake }) ∧
        (f.punchOut c ≠ p → g.cue r.handle = some c ∧
          ∃ x ∈ (g.runner i).runs, x.handle = r.handle ∧ x.phase = c.fields.phaseAt p ∧
            (r.punch = .punched → x.punch = .punched ∧ x.punchedAt = r.punchedAt) ∧
            (r.punch = .waiting → q.recordMode = .record → path.state = .protected_ → path.gapExpiry ≠ none →
              x = { r with phase := c.fields.phaseAt p }) ∧
            (r.punch = .unpunched → q.recordMode = .record → c.fields.punchInPoint = p →
              (granted → x.punch = .punched ∧ x.punchedAt = some p) ∧
              ((path.state = .gap ∨ path.state = .protected_) ∧ path.gapExpiry ≠ none ∨ path.state = .talk ∧ gap ≠ 0 →
                x.punch = .waiting ∧ x.claim = some { count := f.now, position := p })) ∧
            (r.punch = .unpunched → (q.recordMode = .rehearse ∨ c.fields.punchInPoint ≠ p) → x.punch = .unpunched))) ∧
      (∀ h, h ∉ q.runs.map Run.handle → g.cue h = f.cue h) ∧
      g.monitor = { f.monitor with counters := g.monitor.counters } ∧
      (∀ k : Fin 8,
        let c := f.monitor.counters[k]
        let takes := (q.runs.filter fun r => r.punch == .punched && leaves r.handle).length
        g.monitor.counters[k] =
          if c.stage = i ∧ c.source = .takesComplete ∧ takes ≠ 0 ∧ c.enabled = true ∧ f.monitor.frozen = false
          then { c with value := min (c.value + takes) 4294967295 } else c) ∧
      ((f.stage i).PathTable → (f.stage i).ClaimsStand →
        (¬claims → g.path i = path.settled f.now gap ((g.runner i).runs.any fun r => r.punch != .unpunched)
          ((f.place i p).demands i (g.runner i).runs)) ∧
        (claims → granted → g.path i = { path with state := .record, demand := true }) ∧
        (claims → ¬granted → g.path i = { path with
          state := .protected_, demand := true
          gapExpiry := if path.state = .talk then some (f.now + gap) else path.gapExpiry })) ∧
      ((∃ h : Floor, h.tracker i = g.tracker i ∧ h.runner i = g.runner i ∧ h.path i = g.path i ∧ h.cues = g.cues ∧
          h.now = f.now ∧ h.overlay i = unmarked (f.overlay i) ∧ g = h.packetPoint i p) ∨
        (p % 64 = (f.overlay i).phase ∧ (∃ r ∈ q.runs, reachesIn r) ∧
          g.overlay i = unmarked (((f.place i p).packetPoint i p).overlay i)))) ∧
  (∀ (f : Floor) (i : Fin 4) (m new : Nat), (f.tracker i).position < m → m < new →
    f.forwardMove i new = (f.forwardMove i m).forwardMove i new) ∧
  (∀ (f : Floor) (i : Fin 4) (new : Nat),
    let t := f.tracker i
    let e := f.forwardMove i t.rate.dayEnd
    let g := f.forwardMove i new
    t.position / 64 + 1 = t.rate.framesPerDay → new < 64 →
    e.LosesRuns g i t.rate.dayEnd ∧ g.tracker i = { t with position := new } ∧
      g.runner i = { e.runner i with runs := [], lastPosition := new } ∧
      ∃ h : Floor, e.LosesRuns h i t.rate.dayEnd ∧ h.tracker i = { t with position := 0 } ∧
        h.runner i = { e.runner i with runs := [], lastPosition := 0 } ∧ g = (h.packetPoint i 0).place i new)

/-- A boundary, in the steps of R107. The working cast is taken from the cast map, and in AUTO mode the OPEN reel of the
position's hours is chosen; a working runner whose choice changes, or whose OPEN reel is at another rate than the
tracker, aborts its runs at the tracker position and goes to STANDBY. A runner in CHASING, or one in STANDBY that meets
the chase conditions, arms the qualifying cues of its reel, in order-list order, into the free contexts: a cue is
enabled, not skipped as PRINTED, not locked, not in the run list, has a character in the working cast, and the position
lies in [A, P_in); a qualifying cue without a free context makes the boundary starved and sets CUE_STARVED. A newly
armed run has punch state NONE, no punched-at and no claim, and the path takes the demand of the new run list, which a
run armed at or past its pre-emption point raises at once (by its position, log 41). BLANKED counts
down without arming, HOLD counts a healthy boundary. Then the boundary is presented to the monitor unit, and in LOCKED a
RATE_MISMATCH and an OFF_SPEED occurrence are handed to the fault logic, in that order (log 28), where the rates
disagree and the tracker is not in-speed. A PUNCHED run that holds no position was punched where its take ends (log 25). -/
def Obligations.BoundaryArmsCues : Prop :=
  ∀ (f : Floor) (i : Fin 4) (chosen : Option Nat),
    let r := f.runner i
    let t := f.tracker i
    let g := f.boundary i
    let agrees := match chosen.bind f.reel with
      | some reel => decide (reel.state = .reelOpened → reel.rate = t.rate)
      | none => true
    let cast : Runner := { r with workingCast := f.casts[i], selected := chosen }
    let stands := chosen = r.selected ∧ agrees = true
    Table.WF 32 f.reels → r.runs.length ≤ 8 → (r.mode = .manual → chosen = r.selected) →
    (r.mode = .auto → ∀ slot, chosen = some slot ↔ ∃ reel, f.reel slot = some reel ∧ reel.state = .reelOpened ∧
      reel.number = (labelOf t.rate t.position).hours) →
    ∃ (h : Floor) (starved : Bool),
      let presented := h.presentBoundary i starved
      let tested := if t.state = .locked ∧ agrees = false then presented.occurrence i .rateMismatch else presented
      g = (if t.state = .locked ∧ t.inSpeed = false then tested.occurrence i .offSpeed else tested) ∧
      h.tracker i = t ∧ (∀ j, j ≠ i → h.stage j = f.stage j) ∧
      (r.state.working = true → ¬stands → starved = false ∧
        h.runner i = { cast with state := .standby, runs := [], blankingCount := 0 } ∧
        f.LosesRuns h i t.position) ∧
      (∀ slot reel, chosen = some slot → f.reel slot = some reel → reel.state = .reelOpened → agrees = true →
        reel.order.Nodup → (r.state = .chasing ∧ chosen = r.selected ∨
          r.state = .standby ∧ t.state = .locked ∧ t.direction = .forward) →
        let p := t.position
        let qualifies := fun x => match f.cue x with
          | some c => decide (c.enable = .enabled ∧ (c.approval = .printed → r.skipPrinted = false) ∧ c.lock = .unlocked ∧
              x ∉ r.runs.map Run.handle ∧ (∃ id ∈ c.fields.characters, ∃ k : Fin 6, f.casts[i][k] = some id) ∧
              c.fields.armPoint ≤ p ∧ p < c.fields.punchInPoint)
          | none => false
        let armed := (reel.order.filter qualifies).take (8 - r.runs.length)
        let fresh := armed.map fun x =>
          { handle := x, phase := ((f.cue x).map fun c => c.fields.phaseAt p).getD .armed, punch := .unpunched,
            punchedAt := none, claim := none, lateGrant := none : Run }
        let mark := (Notice.ofStage i .cueStarved).index
        starved = decide (8 - r.runs.length < (reel.order.filter qualifies).length) ∧ h.monitor = f.monitor ∧
        (h.runner i).state = .chasing ∧ (h.runner i).workingCast = f.casts[i] ∧ (h.runner i).selected = chosen ∧
        (h.runner i).runs.map Run.handle = r.runs.map Run.handle ++ armed ∧
        (h.runner i).runs.map Run.phase = r.runs.map Run.phase ++
          armed.map (fun x => ((f.cue x).map fun c => c.fields.phaseAt p).getD .armed) ∧
        (h.runner i).runs.drop r.runs.length = fresh ∧
        (∀ x, h.cue x = (f.cue x).map fun c => { c with inFlight := c.inFlight + armed.count x }) ∧
        ((f.stage i).PathTable → (f.stage i).ClaimsStand → (h.runner i).runs = r.runs ++ fresh ∧
          h.path i = (f.path i).settled f.now (f.gapCounts i) (r.runs.any fun x => x.punch != .unpunched)
            (f.demands i (r.runs ++ fresh))) ∧
        h.notices = (if starved then f.notices.set mark true else f.notices)) ∧
      (r.state = .standby → (t.state ≠ .locked ∨ t.direction = .reverse ∨ agrees = false ∨
          ∀ slot reel, chosen = some slot → f.reel slot = some reel → reel.state ≠ .reelOpened) →
        starved = false ∧ h.cues = f.cues ∧ h.path i = f.path i ∧ h.runner i = cast) ∧
      (r.state = .blanked → stands → starved = false ∧ h.cues = f.cues ∧ h.path i = f.path i ∧ h.runner i = { cast with
        blankingCount := r.blankingCount - 1, state := if r.blankingCount ≤ 1 then .chasing else .blanked }) ∧
      (r.state = .hold → starved = false ∧ h.cues = f.cues ∧ h.path i = f.path i ∧ h.runner i =
        (if t.state = .locked ∧ t.direction = .forward ∧ t.inSpeed = true ∧ agrees = true then
          { cast with holdOff := r.holdOff - 1, state := if r.holdOff ≤ 1 then .standby else .hold }
        else cast)) ∧
      (r.state = .halted → starved = false ∧ h.cues = f.cues ∧ h.path i = f.path i ∧ h.runner i = cast)

/-- An accepted jump to p. The monitor unit counts it in every runner state. At a CHASING or BLANKED runner a run that
is not PUNCHED and has A ≤ p < P_in is kept with the phase of p and no claim, every other run is aborted with ended-at
the last position, the path takes the claims and the demand of the kept runs at p, and the runner is BLANKED for the
blanking length (CHASING at length 0). Where a run was past its ARMED phase, that is a JUMP_IN_CUE: in mode REPORT its
notice is set, in mode IGNORE it has no effect, and in a mode HALT or RESUME its notice is set, the kept runs are
aborted too, the path takes the release after the demand of the kept runs, and the runner is HALTED, or in HOLD with the
hold-off of the mode. A PUNCHED run that holds no position reports the last one (log 25). No run keeps a flash mark, the
transmitter forgets the last frame sent, and the last position is p; the last two and the count of the jump are all that
a jump does at any other runner. Demand and claims go by the position of a run, also where a jump back kept it before a
punch-in point it had reached before, in REHEARSE or in RECORD (log 41). -/
def Obligations.JumpTreatsRuns : Prop :=
  ∀ (f : Floor) (i : Fin 4) (p : Nat),
    let r := f.runner i
    let g := f.jump i p
    let n := (Notice.ofStage i .jumpInCue).index
    let mode := (f.faults i).jumpInCue
    let past := r.runs.any fun x => x.phase != .armed
    let stops := past = true ∧ mode ≠ .report ∧ mode ≠ .ignore
    let kept := fun x : Run => match f.cue x.handle with
      | some c => decide (x.punch ≠ .punched ∧ c.fields.armPoint ≤ p ∧ p < c.fields.punchInPoint)
      | none => false
    let stay := (r.runs.filter kept).map fun x => { x with
      punch := .unpunched, claim := none, phase := ((f.cue x.handle).map fun c => c.fields.phaseAt p).getD x.phase }
    let settled := (f.path i).settled f.now (f.gapCounts i) false (f.demands i stay)
    (∀ k : Fin 8,
      let c := f.monitor.counters[k]
      c.source = .jumps → g.monitor.counters[k] =
        if c.stage = i ∧ c.enabled = true ∧ f.monitor.frozen = false
        then { c with value := min (c.value + 1) 4294967295 } else c) ∧
    (r.state.working = false → g = (f.countOccurrence i .jumps).modStage i fun st =>
      { st with runner := { st.runner with lastPosition := p }, overlay := { st.overlay with lastFrame := none } }) ∧
    (r.state.working = true → (r.runs.map Run.handle).Nodup →
      g.tracker i = f.tracker i ∧ (∀ j, j ≠ i → g.stage j = f.stage j) ∧
      g.overlay i = { f.overlay i with
        lastFrame := none, flashMarks := (f.overlay i).flashMarks.filter fun h => !(r.runs.map Run.handle).contains h } ∧
      (¬stops →
        g.runner i = { r with
          state := if r.blankingLength = 0 then .chasing else .blanked
          blankingCount := r.blankingLength, lastPosition := p, runs := stay } ∧
        (∀ x ∈ r.runs, kept x = true → g.cue x.handle = f.cue x.handle) ∧
        f.TakesAborted g (fun j x => j == i && !kept x) (fun _ => r.lastPosition) ∧
        ((f.stage i).PathTable → (f.tracker i).position = p → g.path i = settled) ∧
        g.notices = (if mode = .report ∧ past = true then f.notices.set n true else f.notices)) ∧
      (stops →
        g.runner i = { r with
          state := if mode = .halt then .halted else .hold
          holdOff := if mode = .halt then 0 else if mode = .resumeSlow then 120 else 12
          blankingCount := 0, lastPosition := p, runs := [] } ∧
        f.TakesAborted g (fun j _ => j == i) (fun _ => r.lastPosition) ∧
        ((f.stage i).PathTable → (f.tracker i).position = p →
          g.path i = settled.settled f.now (f.gapCounts i) false false) ∧
        g.notices = f.notices.set n true))

/-! ## The audio path interlock -/

/-- TALKBACK "on" asserts the talkback gate from FREE and is pending in GAP, PROTECTED and RECORD; "off" releases the gate
in TALK with a guard gap of floor(G x N / 64) counts, and else cancels. The request carries 1 for on and 0 for off, and the
answer the path state and two flags as the numbers of log 12. A stage above 3, or a value other than on and off, is refused
BAD_REQUEST. -/
def Obligations.TalkbackIsTaken : Prop :=
  (∀ (q : Request StageValueFields) (x : StageValueFields) (s : State) (i : Fin 4), s.Receives →
    readRequest none parseStageValue q = .ok x → x.stage = i.val → (s.floor.stage i).PathTable →
    let p := s.floor.path i
    let gap := p.guardGap * (s.floor.tracker i).rate.nominal / 64
    let state := match p.state with
      | .free => (0 : Byte)
      | .talk => 1
      | .protected_ => 2
      | .record => 3
      | .gap => 4
    (x.value = 1 →
      exec (.talkback q) s = .next (s.carriedOut
        (s.floor.modPath i fun p => { p with talkWanted := true, state := if p.state = .free then .talk else p.state })
        Code.talkback .ok
        (if p.state = .free ∨ p.state = .talk then [1, 1, 0] else [state, 0, 1]))) ∧
    (x.value = 0 → p.state ≠ .talk →
      exec (.talkback q) s = .next (s.carriedOut (s.floor.modPath i fun p => { p with talkWanted := false })
        Code.talkback .ok [state, 0, 0])) ∧
    (x.value = 0 → p.state = .talk → gap = 0 →
      exec (.talkback q) s = .next (s.carriedOut
        (s.floor.modPath i fun p => { p with talkWanted := false, state := .free }) Code.talkback .ok [0, 0, 0])) ∧
    (x.value = 0 → p.state = .talk → gap ≠ 0 →
      exec (.talkback q) s = .next (s.carriedOut
        (s.floor.modPath i fun p => { p with talkWanted := false, state := .gap, gapExpiry := some (s.floor.now + gap) })
        Code.talkback .ok [4, 0, 0]))) ∧
  (∀ (q : Request StageValueFields) (x : StageValueFields) (s : State), s.Receives →
    readRequest none parseStageValue q = .ok x → (3 < x.stage ∨ 1 < x.value) →
    exec (.talkback q) s = .next (s.replied Code.talkback .badRequest []))

/-- PATH_SET sets the guard gap, clamped to 255, and answers it with the gap length in one byte, free above 255 (logs
10, 14). Protection demand is worked out again with the new pre-emption points: it arises from FREE, TALK and GAP, and
ends from PROTECTED, as in the statement of STAGE_SET; a claim made stands. A stage above 3 is refused BAD_REQUEST. The
expiry of a gap takes GAP to TALK where talkback is wanted and else to FREE, leaves PROTECTED without a claim, and
grants a waiting claim late: RECORD, every WAITING run PUNCHED at the present position (at the position of its claim
where that was made on this very count), LATE_PUNCH set; the count of the claim and of the grant are held in fields of
the model's own (log 36). The reference counter becomes the count of the expiry where that is ahead of it (log 3).
Demand and claims go by the position of a run, also where a jump back kept it before a punch-in point it had reached
before, in REHEARSE or in RECORD (log 41). -/
def Obligations.GuardGapIsSetAndExpires : Prop :=
  (∀ (q : Request StageValueFields) (x : StageValueFields) (s : State) (i : Fin 4), s.Receives →
    readRequest none parseStageValue q = .ok x → x.stage = i.val →
    let gap := min x.value 255
    let r := s.floor.runner i
    let p := s.floor.path i
    let pos := (s.floor.tracker i).position
    let length := gap * (s.floor.tracker i).rate.nominal / 64
    let demands := ∃ y ∈ r.runs, ∃ c, s.floor.cue y.handle = some c ∧
      c.fields.preemptionPoint gap ≤ pos ∧ pos < c.fields.punchInPoint
    let unclaimed := ∀ y ∈ r.runs, y.punch = .unpunched
    let set := fun g : Path → Path =>
      exec (.pathSet q) s = .next (s.carriedOut (s.floor.modPath i fun p => g { p with guardGap := gap }) Code.pathSet
        (if x.value ≤ 255 then .ok else .clamped)
        [byte gap, if length ≤ 255 then byte length else Config.wideCountByte length])
    (∃ t, exec (.pathSet q) s = .next t ∧ (t.floor.path i).guardGap = gap ∧
      t.link = (s.replied Code.pathSet (if x.value ≤ 255 then .ok else .clamped)
        [byte gap, if length ≤ 255 then byte length else Config.wideCountByte length]).link ∧
      (∀ j, j ≠ i → t.floor.stage j = s.floor.stage j) ∧
      (t.floor.runner i).runs.map Run.handle = r.runs.map Run.handle ∧
      t.floor.cues = s.floor.cues ∧ t.floor.notices = s.floor.notices ∧ t.operation = s.operation ∧
      t.closure = s.closure ∧ t.banks = s.banks ∧ t.lines = s.lines ∧ t.pending = s.pending) ∧
    (r.recordMode = .rehearse → p.state ≠ .protected_ → p.state ≠ .record → set fun p => p) ∧
    (r.recordMode = .record → ¬unclaimed →
      p.state = .record ∧ p.demand = true ∨ p.state = .protected_ ∧ p.gapExpiry ≠ none → set fun p => p) ∧
    (r.recordMode = .record → unclaimed → p.state ≠ .record → (demands ↔ p.state = .protected_) → set fun p => p) ∧
    (r.recordMode = .record → unclaimed → p.state = .protected_ → ¬demands → set fun p => { p with
      state := if p.gapExpiry ≠ none then .gap else if p.talkWanted then .talk else .free, demand := false }) ∧
    (r.recordMode = .record → unclaimed → p.state ≠ .protected_ → p.state ≠ .record → demands → set fun p => { p with
      state := .protected_, demand := true
      gapExpiry := if p.state = .talk ∧ length ≠ 0 then some (s.floor.now + length) else p.gapExpiry })) ∧
  (∀ (s : State) (i : Fin 4) (e : Nat), (s.floor.path i).gapExpiry = some e →
    let f : Floor := { s.floor with now := max s.floor.now e }
    ((s.floor.path i).state = .gap →
      exec (.gapExpiry i) s = .next { s with floor := f.modPath i fun p =>
        { p with gapExpiry := none, state := if p.talkWanted then .talk else .free } }) ∧
    ((s.floor.path i).state = .protected_ → (∀ r ∈ (s.floor.runner i).runs, r.punch = .unpunched) →
      exec (.gapExpiry i) s = .next { s with floor := f.modPath i fun p => { p with gapExpiry := none } }) ∧
    ((s.floor.path i).state = .protected_ → (∃ r ∈ (s.floor.runner i).runs, r.punch ≠ .unpunched) →
      exec (.gapExpiry i) s = .next { s with floor := { f.modStage i fun st => { st with
          path := { st.path with gapExpiry := none, state := .record }
          runner := { st.runner with runs := st.runner.runs.map fun r =>
            if r.punch = .waiting then
              { r with
                punch := .punched, claim := none, lateGrant := some f.now
                punchedAt := some (match r.claim with
                  | some c => if c.count = f.now then c.position else st.tracker.position
                  | none => st.tracker.position) }
            else r } }
        with notices := s.floor.notices.set (Notice.ofStage i .latePunch).index true } })) ∧
  (∀ (q : Request StageValueFields) (x : StageValueFields) (s : State), s.Receives →
    readRequest none parseStageValue q = .ok x → 3 < x.stage →
    exec (.pathSet q) s = .next (s.replied Code.pathSet .badRequest []))

/-! ## Faults and notices -/

/-- FAULT_CLEAR takes a runner in HOLD or HALTED to STANDBY with hold-off count 0 and answers the state it left, and
refuses any other; FAULT_SET replaces the modes given and answers all four. The numbers of the states (HOLD 4, HALTED 5)
and of the modes are log 12's reading of R201. A stage above 3, an empty selection or a mode outside the five named is
refused BAD_REQUEST. -/
def Obligations.FaultRequestsAreTaken : Prop :=
  ∀ (s : State) (i : Fin 4), s.Receives →
    (∀ q, readRequest none parse1 q = .ok i.val →
      ((s.floor.runner i).state = .hold ∨ (s.floor.runner i).state = .halted →
        exec (.faultClear q) s = .next (s.carriedOut
          (s.floor.modRunner i fun r => { r with state := .standby, holdOff := 0 }) Code.faultClear .ok
          [if (s.floor.runner i).state = .hold then 4 else 5])) ∧
      ((s.floor.runner i).state ≠ .hold → (s.floor.runner i).state ≠ .halted →
        exec (.faultClear q) s = .next (s.replied Code.faultClear .stageState []))) ∧
    (∀ (q : Request FaultSetFields) (x : FaultSetFields) (a b c d : Option ResponseMode),
      readRequest (some 4) parseFaultSet q = .ok x → x.stage = i.val →
      (x.dropout.isSome ∨ x.offSpeed.isSome ∨ x.rateMismatch.isSome ∨ x.jumpInCue.isSome) →
      givenCode ResponseMode.ofCode x.dropout = .ok a → givenCode ResponseMode.ofCode x.offSpeed = .ok b →
      givenCode ResponseMode.ofCode x.rateMismatch = .ok c → givenCode ResponseMode.ofCode x.jumpInCue = .ok d →
      let m := s.floor.faults i
      exec (.faultSet q) s = .next (s.carriedOut
        (s.floor.modFaults i fun _ => { dropout := a.getD m.dropout, offSpeed := b.getD m.offSpeed,
                                        rateMismatch := c.getD m.rateMismatch, jumpInCue := d.getD m.jumpInCue })
        Code.faultSet .ok
        [byte (a.getD m.dropout).code, byte (b.getD m.offSpeed).code, byte (c.getD m.rateMismatch).code,
         byte (d.getD m.jumpInCue).code])) ∧
    (∀ (q : Request Nat) (n : Nat), readRequest none parse1 q = .ok n → 3 < n →
      exec (.faultClear q) s = .next (s.replied Code.faultClear .badRequest [])) ∧
    (∀ (q : Request FaultSetFields) (x : FaultSetFields), readRequest (some 4) parseFaultSet q = .ok x →
      (3 < x.stage ∨ (x.dropout = none ∧ x.offSpeed = none ∧ x.rateMismatch = none ∧ x.jumpInCue = none) ∨
        (∃ n, 4 < n ∧ (x.dropout = some n ∨ x.offSpeed = some n ∨ x.rateMismatch = some n ∨ x.jumpInCue = some n))) →
      exec (.faultSet q) s = .next (s.replied Code.faultSet .badRequest []))

/-- NOTICE_MASK gives its value to the mask bit of each notice named and keeps the others; NOTICE_CLEAR makes each notice
named clear and keeps the others. Each answers all 26 bits, in the order of log 23, with 1 for set (log 12); the names come
as a list with a count byte (log 38), DEVICE notices at places 6 and 7 (log 23), and the mask value 1 stands for set (log
12). An empty selection, one above 26, a notice named twice, a stage above 3, a name that is none of its scope, or a mask
value above 1 (log 17) is refused BAD_REQUEST. -/
def Obligations.NoticeRequestsAreTaken : Prop :=
  (∀ (s : State) (names : List NoticeName) (named : List Notice), s.Receives → names ≠ [] → names.length ≤ 26 →
    names.Nodup → names.mapM noticeOfName = some named →
    (∀ (q : Request NoticeMaskFields) (x : NoticeMaskFields), readRequest none parseNoticeMask q = .ok x →
      x.notices = names → x.value ≤ 1 →
      ∃ t, exec (.noticeMask q) s = .next t ∧
        (∀ n : Notice, t.floor.mask[n.index] = if n ∈ named then x.value == 1 else s.floor.mask[n.index]) ∧
        t = s.carriedOut { s.floor with mask := t.floor.mask } Code.noticeMask .ok
          (t.floor.mask.toList.map fun b => if b then 1 else 0)) ∧
    (∀ (q : Request (List NoticeName)), readRequest none parseNotices q = .ok names →
      ∃ t, exec (.noticeClear q) s = .next t ∧
        (∀ n : Notice, t.floor.notices[n.index] = if n ∈ named then false else s.floor.notices[n.index]) ∧
        t = s.carriedOut { s.floor with notices := t.floor.notices } Code.noticeClear .ok
          (t.floor.notices.toList.map fun b => if b then 1 else 0))) ∧
  (∀ s : State, s.Receives →
    let known := fun n : NoticeName => n.scope ≤ 3 ∧ n.place ≤ 5 ∨ n.scope = 15 ∧ (n.place = 6 ∨ n.place = 7)
    let refused := fun names : List NoticeName =>
      names = [] ∨ 26 < names.length ∨ ¬names.Nodup ∨ ∃ n ∈ names, ¬known n
    (∀ q x, readRequest none parseNoticeMask q = .ok x → (refused x.notices ∨ 1 < x.value) →
      exec (.noticeMask q) s = .next (s.replied Code.noticeMask .badRequest [])) ∧
    (∀ q names, readRequest none parseNotices q = .ok names → refused names →
      exec (.noticeClear q) s = .next (s.replied Code.noticeClear .badRequest [])))

/-- An occurrence is taken by the table of R146: IGNORE has no effect, REPORT sets the notice, HALT takes every runner
that is not OFFLINE to HALTED, RESUME takes STANDBY, CHASING and BLANKED to HOLD, lengthens a HOLD and leaves HALTED;
CHASING and BLANKED lose their runs, each take of a PUNCHED one ABORTED at the tracker position, of a DROPOUT at the
runner's last position. A RATE_MISMATCH reaches the monitor unit in every mode. A PUNCHED run that holds no position was
punched where its take ends (log 25). -/
def Obligations.OccurrenceFollowsMode : Prop :=
  ∀ (f : Floor) (i : Fin 4) (c : Condition),
    let r := f.runner i
    let g := f.occurrence i c
    let m := f.faults i
    let notice : StageNotice := match c with
      | .dropout => .dropout
      | .offSpeed => .offSpeed
      | .rateMismatch => .rateMismatch
      | .jumpInCue => .jumpInCue
    let mode := match c with
      | .dropout => m.dropout
      | .offSpeed => m.offSpeed
      | .rateMismatch => m.rateMismatch
      | .jumpInCue => m.jumpInCue
    let n := (Notice.ofStage i notice).index
    (r.state.working = true ↔ r.state = .chasing ∨ r.state = .blanked) ∧
    (r.state = .offline → g = f) ∧
    (r.state ≠ .offline → mode = .ignore → g.stages = f.stages ∧ g.notices = f.notices) ∧
    (r.state ≠ .offline → mode ≠ .ignore → g.notices = f.notices.set n true) ∧
    (r.state ≠ .offline → mode = .report → g.stages = f.stages) ∧
    (r.state ≠ .offline → mode = .halt → (g.runner i).state = .halted ∧ (g.runner i).holdOff = 0 ∧
      (r.state.working = true → (g.runner i).runs = [] ∧ (g.runner i).blankingCount = 0)) ∧
    (∀ h, (mode = .resumeSlow ∧ h = 120 ∨ mode = .resumeFast ∧ h = 12) →
      (r.state = .standby → (g.runner i) = { r with state := .hold, holdOff := h }) ∧
      (r.state = .hold → (g.runner i) = { r with holdOff := max r.holdOff h }) ∧
      (r.state = .halted → g.runner i = r) ∧
      (r.state.working = true → (g.runner i).state = .hold ∧ (g.runner i).holdOff = h ∧ (g.runner i).runs = [] ∧
        (g.runner i).blankingCount = 0)) ∧
    (r.state.working = true → mode ≠ .ignore → mode ≠ .report →
      f.LosesRuns g i (if c = .dropout then r.lastPosition else (f.tracker i).position)) ∧
    (r.state ≠ .offline → (mode = .ignore ∨ mode = .report ∨ r.state.working = false) →
      g.cues = f.cues ∧
      g.monitor = (if c = .rateMismatch then f.countOccurrence i .rateMismatches else f).monitor) ∧
    (∀ j, j ≠ i → g.stage j = f.stage j)

/-! ## The line matrix and the overlay feed -/

/-- LINE_BANK_SET gives the bank its mode and stage and answers the six levels as they then stand, 1 for active (log
12); LINE_SET replaces the values given of a line, and answers its source with the parameters the source has (log 15),
drive, polarity, pairing and levels, as the numbers of log 12. Nothing else changes. A bank, a mode or a stage outside
its range, a line above 23, an empty selection, a drive, a polarity or a source not of its table, a stage above 3 or a
podium above 5 of a source that has one, and podium bicolour on an odd line are refused BAD_REQUEST. -/
def Obligations.LineRequestsAreTaken : Prop :=
  (∀ b : Fin 4, (bankLines b).map Fin.val = List.range' (6 * b.val) 6) ∧
  (∀ (l : Fin 24) (source : LineSource),
    sourceFits l source = true ↔ (∃ i k, source = .podiumBicolour i k) → l.val % 2 = 0) ∧
  ∀ s : State, s.Receives →
    (∀ (q : Request BankSetFields) (x : BankSetFields) (b i : Fin 4) (mode : BankMode),
      readRequest none parseBankSet q = .ok x → x.bank = b.val → BankMode.ofCode x.mode = some mode →
      x.stage = i.val →
      let t : State := { s with banks := s.banks.set b { mode := mode, stage := i } }
      exec (.lineBankSet q) s = .next (t.replied Code.lineBankSet .ok
        ([if mode = .dedicated then 0 else 1, byte i.val] ++
          (bankLines b).map fun l => if t.logicalLevel l then 1 else 0))) ∧
    (∀ (q : Request LineSetFields) (x : LineSetFields) (l : Fin 24) (source : Option LineSource)
      (drive : Option Drive) (polarity : Option Polarity),
      readRequest (some 3) parseLineSet q = .ok x → x.line = l.val →
      (x.source.isSome ∨ x.drive.isSome ∨ x.polarity.isSome) →
      x.source.map lineSourceOf = source.map some →
      givenCode Drive.ofCode x.drive = .ok drive → givenCode Polarity.ofCode x.polarity = .ok polarity →
      sourceFits l (source.getD s.lines[l].source) = true →
      let t : State := { s with lines := s.lines.set l
                                  { source := source.getD s.lines[l].source, drive := drive.getD s.lines[l].drive,
                                    polarity := polarity.getD s.lines[l].polarity } }
      exec (.lineSet q) s = .next (t.replied Code.lineSet .ok
        (t.lines[l].source.bytes ++
          [match t.lines[l].drive with | .pushPull => (0 : Byte) | .openDrain => 1,
           match t.lines[l].polarity with | .normal => (0 : Byte) | .inverted => 1,
           match t.pairing l with | .even => (0 : Byte) | .odd => 1 | .unpaired => 2,
           if t.logicalLevel l then 1 else 0,
           match t.electricalLevel l with | .drivenLow => (0 : Byte) | .drivenHigh => 1 | .released => 2]))) ∧
    (∀ q x, readRequest none parseBankSet q = .ok x → (3 < x.bank ∨ 1 < x.mode ∨ 3 < x.stage) →
      exec (.lineBankSet q) s = .next (s.replied Code.lineBankSet .badRequest [])) ∧
    (∀ q x, readRequest (some 3) parseLineSet q = .ok x →
      (23 < x.line ∨ (x.source = none ∧ x.drive = none ∧ x.polarity = none) ∨
        (∃ n, x.drive = some n ∧ 1 < n) ∨ (∃ n, x.polarity = some n ∧ 1 < n) ∨
        (∃ y, x.source = some y ∧ (12 < y.source ∨ 2 ≤ y.source ∧ y.source ≤ 11 ∧ 3 < y.stage ∨
          9 ≤ y.source ∧ y.source ≤ 11 ∧ 5 < y.podium ∨ y.source = 11 ∧ x.line % 2 = 1))) →
      exec (.lineSet q) s = .next (s.replied Code.lineSet .badRequest []))

/-- The electrical level of a line is that of the table of R159, and released while RESET_N is low. A line of a DEDICATED
bank shows its place in the bank, an unpaired line of a ROUTED bank its source of the table of R163, and a bicolour pair of
a ROUTED bank the lamp state of its podium, never with both lines active. The gates, outputs, lamps, the blink and the
attention state that they show are formed from the runs, the working cast, the path, the position and the notices. -/
def Obligations.LineLevelsFollowSources : Prop :=
  ∀ (s : State) (l : Fin 24),
    let runs := fun i => (s.floor.runner i).runs
    let pos := fun i => (s.floor.tracker i).position
    let some_ := fun (i : Fin 4) (p : Run → Prop) => ∃ r ∈ runs i, p r
    let beeps := fun i => some_ i fun r => ∃ c k, s.floor.cue r.handle = some c ∧ 1 ≤ k ∧ k ≤ c.fields.timing.beepCount ∧
      64 * k * c.fields.timing.beepSpacing ≤ c.fields.inPoint ∧
      c.fields.inPoint - 64 * k * c.fields.timing.beepSpacing ≤ pos i ∧
      pos i < c.fields.inPoint - 64 * k * c.fields.timing.beepSpacing + 64 * c.fields.timing.beepLength
    let lit := fun (i : Fin 4) (k : Fin 6) (phase : Phase) => ∃ id, (s.floor.runner i).workingCast[k] = some id ∧
      some_ i fun r => r.phase = phase ∧ ∃ c, s.floor.cue r.handle = some c ∧ id ∈ c.fields.characters
    let speaks := fun i k => lit i k .speaking
    let waits := fun i k => ¬lit i k .speaking ∧ lit i k .sweep
    let faulted := fun i => (s.floor.runner i).state = .hold ∨ (s.floor.runner i).state = .halted
    let blinks := fun i => 2 * (labelOf (s.floor.tracker i).rate (pos i)).frames < (s.floor.tracker i).rate.base
    let attends := ∃ n : Fin 26, s.floor.notices[n] = true ∧ s.floor.mask[n] = true
    (lineBank l).val = l.val / 6 ∧ (s.floor.attention = true ↔ attends) ∧
    (∀ i, (s.floor.beepGate i = true ↔ beeps i) ∧ (s.floor.streamerActive i = true ↔ some_ i fun r => r.phase = .sweep) ∧
      (s.floor.armedOutput i = true ↔ some_ i fun r => r.phase = .armed) ∧
      (s.floor.recordRequest i = true ↔ some_ i fun r => r.punch ≠ .unpunched) ∧
      (s.floor.anySpeak i = true ↔ ∃ k, speaks i k) ∧ (s.floor.stageFault i = true ↔ faulted i) ∧
      ∀ k, (s.floor.lamp i k = .speak ↔ speaks i k) ∧ (s.floor.lamp i k = .standby ↔ waits i k)) ∧
    (s.resetHeld = true → s.electricalLevel l = .released) ∧
    (s.resetHeld = false → s.electricalLevel l =
      (match s.lines[l].polarity, s.lines[l].drive, s.logicalLevel l with
       | .normal, _, true => .drivenLow
       | .normal, .pushPull, false => .drivenHigh
       | .normal, .openDrain, false => .released
       | .inverted, .pushPull, true => .drivenHigh
       | .inverted, .openDrain, true => .released
       | .inverted, _, false => .drivenLow)) ∧
    (∀ i : Fin 4, s.banks[lineBank l] = { mode := .dedicated, stage := i } →
      s.pairing l = .unpaired ∧
      (s.logicalLevel l = true ↔
        (match l.val % 6 with
         | 0 => (s.floor.path i).state = .record
         | 1 => (s.floor.path i).state = .talk
         | 2 => beeps i
         | 3 => some_ i fun r => r.phase = .sweep
         | 4 => ∃ k, speaks i k
         | _ => faulted i))) ∧
    (∀ even : Fin 24, even.val = l.val - l.val % 2 → s.banks[lineBank l].mode = .routed →
      (∀ i k, s.lines[even].source ≠ .podiumBicolour i k) → (∀ i k, s.lines[l].source ≠ .podiumBicolour i k) →
      s.pairing l = .unpaired ∧
      (s.logicalLevel l = true ↔
        (match s.lines[l].source with
         | .constantInactive => False
         | .constantActive => True
         | .record i => (s.floor.path i).state = .record
         | .talkback i => (s.floor.path i).state = .talk
         | .beep i => beeps i
         | .streamerActive i => some_ i fun r => r.phase = .sweep
         | .armed i => some_ i fun r => r.phase = .armed
         | .anySpeak i => ∃ k, speaks i k
         | .stageFault i => faulted i
         | .podiumSpeak i k => speaks i k
         | .podiumStandby i k => waits i k ∧ blinks i
         | .podiumBicolour _ _ => False
         | .attention => attends))) ∧
    (∀ (i : Fin 4) (k : Fin 6) (odd : Fin 24), l.val % 2 = 0 → odd.val = l.val + 1 →
      s.banks[lineBank l].mode = .routed → s.lines[l].source = .podiumBicolour i k →
      s.pairing l = .even ∧ s.pairing odd = .odd ∧ ¬(s.logicalLevel l = true ∧ s.logicalLevel odd = true) ∧
      (s.logicalLevel l = true ↔ waits i k ∧ blinks i) ∧ (s.logicalLevel odd = true ↔ speaks i k))

/-- OVERLAY_SET sets the phase, clamped to 63, and nothing else, and refuses a stage above 3 BAD_REQUEST. A position
value that is the packet point of a frame composes a packet for it, unless that frame was sent last: the frame becomes
the last sent, and the packet starts at once at an IDLE transmitter, with the handles it flashes marked, or is the
pending packet of a SENDING one, in place of an older one. Any other value changes nothing; at the end of a packet, 120
counts a byte after its start, the pending packet follows at once, or the transmitter is IDLE. The start count is held
with a packet (log 22), the handles the packet flashes are marked as it starts, whatever became of their runs while it
was pending: ended, kept by a jump, or their cue armed again (log 19), and the reference counter becomes the end count
where that is ahead of it (log 3). While a packet is sent the overlay line carries its bytes from the start count on,
each a low start bit, eight data bits with the least significant first and a high stop bit, 12 counts a bit; the line is
high before the packet starts, from its end on, and with no packet. -/
def Obligations.OverlayPhaseAndPacketEnd : Prop :=
  (∀ (s : State) (i : Fin 4),
    ((s.floor.overlay i).inProgress = none → s.overlayLine i = true) ∧
    (∀ p, (s.floor.overlay i).inProgress = some p →
      (s.floor.now < p.start ∨ p.start + 120 * p.bytes.length ≤ s.floor.now → s.overlayLine i = true) ∧
      (∀ (j k m : Nat) (b : Byte), p.bytes[j]? = some b → k < 10 → m < 12 →
        s.floor.now = p.start + 120 * j + 12 * k + m →
        s.overlayLine i = (if k = 0 then false else if k = 9 then true else b.getLsbD (k - 1))))) ∧
  (∀ (q : Request StageValueFields) (x : StageValueFields) (s : State) (i : Fin 4), s.Receives →
    readRequest none parseStageValue q = .ok x → x.stage = i.val →
    exec (.overlaySet q) s = .next (s.carriedOut (s.floor.modOverlay i fun o => { o with phase := min x.value 63 })
      Code.overlaySet (if x.value ≤ 63 then .ok else .clamped) [byte (min x.value 63)])) ∧
  (∀ (s : State) (i : Fin 4) (p : Sending), (s.floor.overlay i).inProgress = some p →
    let e := p.start + 120 * p.bytes.length
    let f : Floor := { s.floor with now := max s.floor.now e }
    ((s.floor.overlay i).waiting = none →
      exec (.packetEnd i) s = .next { s with floor := f.modOverlay i fun o => { o with inProgress := none } }) ∧
    (∀ w, (s.floor.overlay i).waiting = some w →
      exec (.packetEnd i) s = .next { s with floor := f.modOverlay i fun o => { o with
        waiting := none, inProgress := some { bytes := w.bytes, start := e }
        flashMarks := o.flashMarks ++ w.flash.filter fun h => !o.flashMarks.contains h } })) ∧
  (∀ (q : Request StageValueFields) (x : StageValueFields) (s : State), s.Receives →
    readRequest none parseStageValue q = .ok x → 3 < x.stage →
    exec (.overlaySet q) s = .next (s.replied Code.overlaySet .badRequest [])) ∧
  (∀ (f : Floor) (i : Fin 4) (frame subframe : Nat), subframe < 64 →
    let o := f.overlay i
    let g := f.packetPoint i (64 * frame + subframe)
    let p := f.composePacket i frame
    ((subframe ≠ o.phase ∨ o.lastFrame = some frame) → g = f) ∧
    (subframe = o.phase → o.lastFrame ≠ some frame → o.inProgress = none →
      g = f.modOverlay i fun o => { o with
        lastFrame := some frame, inProgress := some { bytes := p.bytes, start := f.now }
        flashMarks := o.flashMarks ++ p.flash.filter fun h => !o.flashMarks.contains h }) ∧
    (subframe = o.phase → o.lastFrame ≠ some frame → o.inProgress ≠ none →
      g = f.modOverlay i fun o => { o with lastFrame := some frame, waiting := some p }))

/-- A composed packet begins with 0xC7 and its length, names the stage, the rate, the frame's label, the speed and the
runner state, carries one entry for each run with A ≤ v < P_out at the packet's position value v, and ends with the byte
that makes the bytes from offset 1 on sum to 0 modulo 256. An entry carries number, suffix, the phase of v, the punched
flag, the flash flag (v at or past I, no mark held), in SWEEP the streamer position, and the characters with their cast
flags. The handles the packet flashes are those of its entries with the flash flag. -/
def Obligations.PacketIsFramed : Prop :=
  ∀ (f : Floor) (i : Fin 4) (n : Nat),
    let b := (f.composePacket i n).bytes
    let l := Label.ofFrame (f.tracker i).rate n
    let r := f.runner i
    let v := 64 * n + (f.overlay i).phase
    let marks := (f.overlay i).flashMarks
    let carried := fun x : Run => match f.cue x.handle with
      | some c => decide (c.fields.armPoint ≤ v ∧ v < f.punchOut c)
      | none => false
    let flashes := fun x : Run => match f.cue x.handle with
      | some c => decide (c.fields.inPoint ≤ v ∧ x.handle ∉ marks)
      | none => false
    let entry := fun x : Run => match f.cue x.handle with
      | some c =>
        let start := c.fields.inPoint - 64 * c.fields.timing.lead
        let phase := if v < start then 0 else if v < c.fields.inPoint then 1 else if v < c.fields.outPoint then 2 else 3
        let streamer := min 1023 ((v - start) * 1024 / (c.fields.inPoint - start))
        [byte (c.fields.number / 256), byte c.fields.number,
          match c.fields.suffix with
          | some letter => byte letter
          | none => 0,
          byte phase, byte ((if x.punch = .punched then 1 else 0) + (if flashes x then 2 else 0))] ++
        (if phase = 1 then [byte (streamer / 256), byte streamer] else []) ++ [byte c.fields.characters.length] ++
        c.fields.characters.map fun id => byte (id % 64 + if ∃ k : Fin 6, r.workingCast[k] = some id then 128 else 0)
      | none => []
    13 ≤ b.length ∧ (b.drop 1).sum = 0 ∧
    b.take 12 = [0xC7, byte (b.length - 2), byte i.val, byte (f.tracker i).rate.code, byte l.hours, byte l.minutes,
      byte l.seconds, byte l.frames, byte ((f.tracker i).speed / 256), byte (f.tracker i).speed,
      match r.state with
      | .offline => 0
      | .standby => 1
      | .chasing => 2
      | .blanked => 3
      | .hold => 4
      | .halted => 5,
      byte (r.runs.filter carried).length] ∧
    (b.drop 12).dropLast = (r.runs.filter carried).flatMap entry ∧
    (f.composePacket i n).flash = (r.runs.filter fun x => carried x && flashes x).map Run.handle

/-! ## The monitor unit -/

/-- MON_CONFIG replaces a counter's configuration, keeps its value and makes its edge memory UNKNOWN; MON_CLEAR makes
the values named 0; MON_FREEZE sets the freeze state; MON_SET_BANDS sets the bounds named, clamped to 20,001. Nothing
else changes. Enable, invert and edge are given and answered as 1 for set (log 12), the freeze state as 0 FROZEN and 1
RUNNING, and the counters of a MON_CLEAR come as a list with a count byte (log 38). A counter, stage, source, band,
filter or flag outside its range, an empty selection, a counter or a band named twice, and a freeze state above 1 are
refused BAD_REQUEST; for a flag above 1 that is log 17. -/
def Obligations.MonitorRequestsAreTaken : Prop :=
  ∀ s : State, s.Receives →
    let m := s.floor.monitor
    (∀ (q : Request MonConfigFields) (x : MonConfigFields) (k : Fin 8) (i b : Fin 4) (src : CounterSource)
      (flt : PhaseFilter), readRequest none parseMonConfig q = .ok x → x.counter = k.val → x.stage = i.val →
      CounterSource.ofCode x.source = some src → x.band = b.val → filterOfCode x.filter = some flt →
      x.enable ≤ 1 → x.invert ≤ 1 → x.edge ≤ 1 →
      let c : Counter :=
        { value := m.counters[k].value, enabled := x.enable == 1, stage := i, source := src, band := b, filter := flt,
          threshold := min x.threshold 8, invert := x.invert == 1, edge := x.edge == 1, memory := .unknown }
      exec (.monConfig q) s = .next (s.carriedOut
        { s.floor with monitor := { m with counters := m.counters.set k c } } Code.monConfig
        (if x.threshold ≤ 8 then .ok else .clamped)
        ([byte x.enable, byte x.stage, byte x.source, byte x.band, byte x.filter, byte (min x.threshold 8), byte x.invert,
          byte x.edge] ++ bytes4 c.value))) ∧
    (∀ (q : Request (List Nat)) (names : List Nat), readRequest none parseCounters q = .ok names → names ≠ [] →
      names.Nodup → (∀ k ∈ names, k < 8) →
      ∃ t, exec (.monClear q) s = .next t ∧
        (∀ k : Fin 8, t.floor.monitor.counters[k] =
          if k.val ∈ names then { m.counters[k] with value := 0 } else m.counters[k]) ∧
        t = s.carriedOut { s.floor with monitor := { m with counters := t.floor.monitor.counters } } Code.monClear .ok
          (t.floor.monitor.counters.toList.flatMap fun c => bytes4 c.value)) ∧
    (∀ (q : Request Nat) (v : Nat), readRequest none parse1 q = .ok v → v ≤ 1 →
      exec (.monFreeze q) s = .next (s.carriedOut { s.floor with monitor := { m with frozen := v == 0 } }
        Code.monFreeze .ok (byte v :: m.counters.toList.flatMap fun c => bytes4 c.value))) ∧
    (∀ (q : Request (List (Nat × Nat))) (pairs : List (Nat × Nat)), readRequest (some 4) parseBands q = .ok pairs →
      pairs ≠ [] → (pairs.map (·.1)).Nodup → (∀ e ∈ pairs, e.1 < 4) →
      ∃ t, exec (.monSetBands q) s = .next t ∧
        (∀ e ∈ pairs, ∀ b : Fin 4, b.val = e.1 → t.floor.monitor.bounds[b] = min e.2 20001) ∧
        (∀ b : Fin 4, b.val ∉ pairs.map (·.1) → t.floor.monitor.bounds[b] = m.bounds[b]) ∧
        t = s.carriedOut { s.floor with monitor := { m with bounds := t.floor.monitor.bounds } } Code.monSetBands
          (if ∃ e ∈ pairs, 20001 < e.2 then .clamped else .ok) (t.floor.monitor.bounds.toList.flatMap bytes2)) ∧
    (∀ q x, readRequest none parseMonConfig q = .ok x →
      (7 < x.counter ∨ 3 < x.stage ∨ 10 < x.source ∨ 3 < x.band ∨ 4 < x.filter ∨ 1 < x.enable ∨ 1 < x.invert ∨
        1 < x.edge) → exec (.monConfig q) s = .next (s.replied Code.monConfig .badRequest [])) ∧
    (∀ q names, readRequest none parseCounters q = .ok names →
      (names = [] ∨ ¬names.Nodup ∨ ∃ k ∈ names, 7 < k) →
      exec (.monClear q) s = .next (s.replied Code.monClear .badRequest [])) ∧
    (∀ q v, readRequest none parse1 q = .ok v → 1 < v →
      exec (.monFreeze q) s = .next (s.replied Code.monFreeze .badRequest [])) ∧
    (∀ q pairs, readRequest (some 4) parseBands q = .ok pairs →
      (pairs = [] ∨ ¬(pairs.map (·.1)).Nodup ∨ ∃ e ∈ pairs, 3 < e.1) →
      exec (.monSetBands q) s = .next (s.replied Code.monSetBands .badRequest []))

/-- A counter at a boundary of its stage. Each per-frame source gives its condition, and RUN_OCCUPANCY at threshold 0 the
number of runs in the phases of its filter as an amount; an occurrence source gives nothing. The inverted condition decides;
with edge set only a change from FALSE counts; the edge memory takes the condition in every case; a disabled counter and a
FROZEN unit add nothing; the value saturates. An occurrence adds one to each enabled counter of its stage and source while
the unit is RUNNING. The other counters stand. -/
def Obligations.CountersAtBoundary : Prop :=
  ∀ (f : Floor) (i : Fin 4) (k : Fin 8),
    let c := f.monitor.counters[k]
    let runs := (f.runner i).runs
    let inUse := (match c.filter with
      | none => runs
      | some p => runs.filter fun r => r.phase == p).length
    let perFrame := fun starved => match c.source with
      | .frames => some true
      | .lockedFrames => some (decide ((f.tracker i).state = .locked))
      | .speedBand => some (decide (f.monitor.bounds[c.band] ≤ (f.tracker i).speed))
      | .recordFrames => some (decide ((f.path i).state = .record))
      | .starvedFrames => some starved
      | .runOccupancy => some (decide (c.threshold ≤ inUse))
      | _ => none
    let adds := c.enabled = true ∧ f.monitor.frozen = false
    (∀ starved,
      let g := f.presentBoundary i starved
      let d := g.monitor.counters[k]
      g = { f with monitor := { f.monitor with counters := g.monitor.counters } } ∧
      (c.stage ≠ i → d = c) ∧
      (c.stage = i → perFrame starved = none → d = c) ∧
      (∀ cond, c.stage = i → perFrame starved = some cond → (c.source = .runOccupancy → c.threshold ≠ 0) →
        let held := cond != c.invert
        d = { c with
              memory := if held then .wasTrue else .wasFalse
              value := if held = true ∧ (c.edge = true → c.memory = .wasFalse) ∧ adds
                then min (c.value + 1) 4294967295 else c.value }) ∧
      (c.stage = i → c.source = .runOccupancy → c.threshold = 0 →
        d = { c with memory := .wasTrue, value := if adds then min (c.value + inUse) 4294967295 else c.value })) ∧
    (∀ source,
      let g := f.countOccurrence i source
      g = { f with monitor := { f.monitor with counters := g.monitor.counters } } ∧
      g.monitor.counters[k] =
        if c.stage = i ∧ c.source = source ∧ adds then { c with value := min (c.value + 1) 4294967295 } else c)
end

