-- ==== Sys2Proof/Laws/State.lean ====
section
/-! SUPPORT. One lemma per field per update of the state: what each named operation leaves and sets. -/

namespace Sys2Proof.Machine

variable (f : Floor) (s : State)

/-! ## One stage -/

@[simp] theorem Floor.modStage_stage (i : Fin 4) (g : Stage → Stage) : (f.modStage i g).stage i = g (f.stage i) := by
  simp [Floor.modStage, Floor.stage]

theorem Floor.modStage_stage_ne (i j : Fin 4) (g : Stage → Stage) (h : j ≠ i) :
    (f.modStage i g).stage j = f.stage j := by
  have h' : (i : Nat) ≠ j := fun e => h (Fin.ext e.symm)
  simp only [Floor.modStage, Floor.stage, Fin.getElem_fin]
  exact Vector.getElem_set_ne _ _ h'

@[simp] theorem Floor.modStage_now (i : Fin 4) (g : Stage → Stage) : (f.modStage i g).now = f.now := rfl
@[simp] theorem Floor.modStage_draws (i : Fin 4) (g : Stage → Stage) : (f.modStage i g).draws = f.draws := rfl
@[simp] theorem Floor.modStage_cues (i : Fin 4) (g : Stage → Stage) : (f.modStage i g).cues = f.cues := rfl
@[simp] theorem Floor.modStage_reels (i : Fin 4) (g : Stage → Stage) : (f.modStage i g).reels = f.reels := rfl
@[simp] theorem Floor.modStage_chars (i : Fin 4) (g : Stage → Stage) : (f.modStage i g).chars = f.chars := rfl
@[simp] theorem Floor.modStage_casts (i : Fin 4) (g : Stage → Stage) : (f.modStage i g).casts = f.casts := rfl
@[simp] theorem Floor.modStage_notices (i : Fin 4) (g : Stage → Stage) : (f.modStage i g).notices = f.notices := rfl
@[simp] theorem Floor.modStage_mask (i : Fin 4) (g : Stage → Stage) : (f.modStage i g).mask = f.mask := rfl
@[simp] theorem Floor.modStage_monitor (i : Fin 4) (g : Stage → Stage) : (f.modStage i g).monitor = f.monitor := rfl

@[simp] theorem Floor.modTracker_stage (i : Fin 4) (g : Tracker → Tracker) :
    (f.modTracker i g).stage i = { f.stage i with tracker := g (f.stage i).tracker } := by simp [Floor.modTracker]
theorem Floor.modTracker_stage_ne (i j : Fin 4) (g : Tracker → Tracker) (h : j ≠ i) :
    (f.modTracker i g).stage j = f.stage j := f.modStage_stage_ne i j _ h
@[simp] theorem Floor.modTracker_tracker (i : Fin 4) (g : Tracker → Tracker) : (f.modTracker i g).tracker i = g (f.tracker i) := by
  simp [Floor.tracker]
@[simp] theorem Floor.modTracker_runner (i : Fin 4) (g : Tracker → Tracker) : (f.modTracker i g).runner i = f.runner i := by
  simp [Floor.runner]
@[simp] theorem Floor.modTracker_path (i : Fin 4) (g : Tracker → Tracker) : (f.modTracker i g).path i = f.path i := by
  simp [Floor.path]
@[simp] theorem Floor.modTracker_overlay (i : Fin 4) (g : Tracker → Tracker) : (f.modTracker i g).overlay i = f.overlay i := by
  simp [Floor.overlay]
@[simp] theorem Floor.modTracker_faults (i : Fin 4) (g : Tracker → Tracker) : (f.modTracker i g).faults i = f.faults i := by
  simp [Floor.faults]
@[simp] theorem Floor.modTracker_now (i : Fin 4) (g : Tracker → Tracker) : (f.modTracker i g).now = f.now := rfl
@[simp] theorem Floor.modTracker_draws (i : Fin 4) (g : Tracker → Tracker) : (f.modTracker i g).draws = f.draws := rfl
@[simp] theorem Floor.modTracker_cues (i : Fin 4) (g : Tracker → Tracker) : (f.modTracker i g).cues = f.cues := rfl
@[simp] theorem Floor.modTracker_reels (i : Fin 4) (g : Tracker → Tracker) : (f.modTracker i g).reels = f.reels := rfl
@[simp] theorem Floor.modTracker_chars (i : Fin 4) (g : Tracker → Tracker) : (f.modTracker i g).chars = f.chars := rfl
@[simp] theorem Floor.modTracker_casts (i : Fin 4) (g : Tracker → Tracker) : (f.modTracker i g).casts = f.casts := rfl
@[simp] theorem Floor.modTracker_notices (i : Fin 4) (g : Tracker → Tracker) : (f.modTracker i g).notices = f.notices := rfl
@[simp] theorem Floor.modTracker_mask (i : Fin 4) (g : Tracker → Tracker) : (f.modTracker i g).mask = f.mask := rfl
@[simp] theorem Floor.modTracker_monitor (i : Fin 4) (g : Tracker → Tracker) : (f.modTracker i g).monitor = f.monitor := rfl

@[simp] theorem Floor.modRunner_stage (i : Fin 4) (g : Runner → Runner) :
    (f.modRunner i g).stage i = { f.stage i with runner := g (f.stage i).runner } := by simp [Floor.modRunner]
theorem Floor.modRunner_stage_ne (i j : Fin 4) (g : Runner → Runner) (h : j ≠ i) :
    (f.modRunner i g).stage j = f.stage j := f.modStage_stage_ne i j _ h
@[simp] theorem Floor.modRunner_tracker (i : Fin 4) (g : Runner → Runner) : (f.modRunner i g).tracker i = f.tracker i := by
  simp [Floor.tracker]
@[simp] theorem Floor.modRunner_runner (i : Fin 4) (g : Runner → Runner) : (f.modRunner i g).runner i = g (f.runner i) := by
  simp [Floor.runner]
@[simp] theorem Floor.modRunner_path (i : Fin 4) (g : Runner → Runner) : (f.modRunner i g).path i = f.path i := by
  simp [Floor.path]
@[simp] theorem Floor.modRunner_overlay (i : Fin 4) (g : Runner → Runner) : (f.modRunner i g).overlay i = f.overlay i := by
  simp [Floor.overlay]
@[simp] theorem Floor.modRunner_faults (i : Fin 4) (g : Runner → Runner) : (f.modRunner i g).faults i = f.faults i := by
  simp [Floor.faults]
@[simp] theorem Floor.modRunner_now (i : Fin 4) (g : Runner → Runner) : (f.modRunner i g).now = f.now := rfl
@[simp] theorem Floor.modRunner_draws (i : Fin 4) (g : Runner → Runner) : (f.modRunner i g).draws = f.draws := rfl
@[simp] theorem Floor.modRunner_cues (i : Fin 4) (g : Runner → Runner) : (f.modRunner i g).cues = f.cues := rfl
@[simp] theorem Floor.modRunner_reels (i : Fin 4) (g : Runner → Runner) : (f.modRunner i g).reels = f.reels := rfl
@[simp] theorem Floor.modRunner_chars (i : Fin 4) (g : Runner → Runner) : (f.modRunner i g).chars = f.chars := rfl
@[simp] theorem Floor.modRunner_casts (i : Fin 4) (g : Runner → Runner) : (f.modRunner i g).casts = f.casts := rfl
@[simp] theorem Floor.modRunner_notices (i : Fin 4) (g : Runner → Runner) : (f.modRunner i g).notices = f.notices := rfl
@[simp] theorem Floor.modRunner_mask (i : Fin 4) (g : Runner → Runner) : (f.modRunner i g).mask = f.mask := rfl
@[simp] theorem Floor.modRunner_monitor (i : Fin 4) (g : Runner → Runner) : (f.modRunner i g).monitor = f.monitor := rfl

@[simp] theorem Floor.modPath_stage (i : Fin 4) (g : Path → Path) :
    (f.modPath i g).stage i = { f.stage i with path := g (f.stage i).path } := by simp [Floor.modPath]
theorem Floor.modPath_stage_ne (i j : Fin 4) (g : Path → Path) (h : j ≠ i) :
    (f.modPath i g).stage j = f.stage j := f.modStage_stage_ne i j _ h
@[simp] theorem Floor.modPath_tracker (i : Fin 4) (g : Path → Path) : (f.modPath i g).tracker i = f.tracker i := by
  simp [Floor.tracker]
@[simp] theorem Floor.modPath_runner (i : Fin 4) (g : Path → Path) : (f.modPath i g).runner i = f.runner i := by
  simp [Floor.runner]
@[simp] theorem Floor.modPath_path (i : Fin 4) (g : Path → Path) : (f.modPath i g).path i = g (f.path i) := by
  simp [Floor.path]
@[simp] theorem Floor.modPath_overlay (i : Fin 4) (g : Path → Path) : (f.modPath i g).overlay i = f.overlay i := by
  simp [Floor.overlay]
@[simp] theorem Floor.modPath_faults (i : Fin 4) (g : Path → Path) : (f.modPath i g).faults i = f.faults i := by
  simp [Floor.faults]
@[simp] theorem Floor.modPath_now (i : Fin 4) (g : Path → Path) : (f.modPath i g).now = f.now := rfl
@[simp] theorem Floor.modPath_draws (i : Fin 4) (g : Path → Path) : (f.modPath i g).draws = f.draws := rfl
@[simp] theorem Floor.modPath_cues (i : Fin 4) (g : Path → Path) : (f.modPath i g).cues = f.cues := rfl
@[simp] theorem Floor.modPath_reels (i : Fin 4) (g : Path → Path) : (f.modPath i g).reels = f.reels := rfl
@[simp] theorem Floor.modPath_chars (i : Fin 4) (g : Path → Path) : (f.modPath i g).chars = f.chars := rfl
@[simp] theorem Floor.modPath_casts (i : Fin 4) (g : Path → Path) : (f.modPath i g).casts = f.casts := rfl
@[simp] theorem Floor.modPath_notices (i : Fin 4) (g : Path → Path) : (f.modPath i g).notices = f.notices := rfl
@[simp] theorem Floor.modPath_mask (i : Fin 4) (g : Path → Path) : (f.modPath i g).mask = f.mask := rfl
@[simp] theorem Floor.modPath_monitor (i : Fin 4) (g : Path → Path) : (f.modPath i g).monitor = f.monitor := rfl

@[simp] theorem Floor.modOverlay_stage (i : Fin 4) (g : Overlay → Overlay) :
    (f.modOverlay i g).stage i = { f.stage i with overlay := g (f.stage i).overlay } := by simp [Floor.modOverlay]
theorem Floor.modOverlay_stage_ne (i j : Fin 4) (g : Overlay → Overlay) (h : j ≠ i) :
    (f.modOverlay i g).stage j = f.stage j := f.modStage_stage_ne i j _ h
@[simp] theorem Floor.modOverlay_tracker (i : Fin 4) (g : Overlay → Overlay) : (f.modOverlay i g).tracker i = f.tracker i := by
  simp [Floor.tracker]
@[simp] theorem Floor.modOverlay_runner (i : Fin 4) (g : Overlay → Overlay) : (f.modOverlay i g).runner i = f.runner i := by
  simp [Floor.runner]
@[simp] theorem Floor.modOverlay_path (i : Fin 4) (g : Overlay → Overlay) : (f.modOverlay i g).path i = f.path i := by
  simp [Floor.path]
@[simp] theorem Floor.modOverlay_overlay (i : Fin 4) (g : Overlay → Overlay) : (f.modOverlay i g).overlay i = g (f.overlay i) := by
  simp [Floor.overlay]
@[simp] theorem Floor.modOverlay_faults (i : Fin 4) (g : Overlay → Overlay) : (f.modOverlay i g).faults i = f.faults i := by
  simp [Floor.faults]
@[simp] theorem Floor.modOverlay_now (i : Fin 4) (g : Overlay → Overlay) : (f.modOverlay i g).now = f.now := rfl
@[simp] theorem Floor.modOverlay_draws (i : Fin 4) (g : Overlay → Overlay) : (f.modOverlay i g).draws = f.draws := rfl
@[simp] theorem Floor.modOverlay_cues (i : Fin 4) (g : Overlay → Overlay) : (f.modOverlay i g).cues = f.cues := rfl
@[simp] theorem Floor.modOverlay_reels (i : Fin 4) (g : Overlay → Overlay) : (f.modOverlay i g).reels = f.reels := rfl
@[simp] theorem Floor.modOverlay_chars (i : Fin 4) (g : Overlay → Overlay) : (f.modOverlay i g).chars = f.chars := rfl
@[simp] theorem Floor.modOverlay_casts (i : Fin 4) (g : Overlay → Overlay) : (f.modOverlay i g).casts = f.casts := rfl
@[simp] theorem Floor.modOverlay_notices (i : Fin 4) (g : Overlay → Overlay) : (f.modOverlay i g).notices = f.notices := rfl
@[simp] theorem Floor.modOverlay_mask (i : Fin 4) (g : Overlay → Overlay) : (f.modOverlay i g).mask = f.mask := rfl
@[simp] theorem Floor.modOverlay_monitor (i : Fin 4) (g : Overlay → Overlay) : (f.modOverlay i g).monitor = f.monitor := rfl

@[simp] theorem Floor.modFaults_stage (i : Fin 4) (g : FaultModes → FaultModes) :
    (f.modFaults i g).stage i = { f.stage i with faults := g (f.stage i).faults } := by simp [Floor.modFaults]
theorem Floor.modFaults_stage_ne (i j : Fin 4) (g : FaultModes → FaultModes) (h : j ≠ i) :
    (f.modFaults i g).stage j = f.stage j := f.modStage_stage_ne i j _ h
@[simp] theorem Floor.modFaults_tracker (i : Fin 4) (g : FaultModes → FaultModes) : (f.modFaults i g).tracker i = f.tracker i := by
  simp [Floor.tracker]
@[simp] theorem Floor.modFaults_runner (i : Fin 4) (g : FaultModes → FaultModes) : (f.modFaults i g).runner i = f.runner i := by
  simp [Floor.runner]
@[simp] theorem Floor.modFaults_path (i : Fin 4) (g : FaultModes → FaultModes) : (f.modFaults i g).path i = f.path i := by
  simp [Floor.path]
@[simp] theorem Floor.modFaults_overlay (i : Fin 4) (g : FaultModes → FaultModes) : (f.modFaults i g).overlay i = f.overlay i := by
  simp [Floor.overlay]
@[simp] theorem Floor.modFaults_faults (i : Fin 4) (g : FaultModes → FaultModes) : (f.modFaults i g).faults i = g (f.faults i) := by
  simp [Floor.faults]
@[simp] theorem Floor.modFaults_now (i : Fin 4) (g : FaultModes → FaultModes) : (f.modFaults i g).now = f.now := rfl
@[simp] theorem Floor.modFaults_draws (i : Fin 4) (g : FaultModes → FaultModes) : (f.modFaults i g).draws = f.draws := rfl
@[simp] theorem Floor.modFaults_cues (i : Fin 4) (g : FaultModes → FaultModes) : (f.modFaults i g).cues = f.cues := rfl
@[simp] theorem Floor.modFaults_reels (i : Fin 4) (g : FaultModes → FaultModes) : (f.modFaults i g).reels = f.reels := rfl
@[simp] theorem Floor.modFaults_chars (i : Fin 4) (g : FaultModes → FaultModes) : (f.modFaults i g).chars = f.chars := rfl
@[simp] theorem Floor.modFaults_casts (i : Fin 4) (g : FaultModes → FaultModes) : (f.modFaults i g).casts = f.casts := rfl
@[simp] theorem Floor.modFaults_notices (i : Fin 4) (g : FaultModes → FaultModes) : (f.modFaults i g).notices = f.notices := rfl
@[simp] theorem Floor.modFaults_mask (i : Fin 4) (g : FaultModes → FaultModes) : (f.modFaults i g).mask = f.mask := rfl
@[simp] theorem Floor.modFaults_monitor (i : Fin 4) (g : FaultModes → FaultModes) : (f.modFaults i g).monitor = f.monitor := rfl

/-! ## The stores, the notices, the counters -/

@[simp] theorem Floor.modCue_now (h : Nat) (g : Cue → Cue) : (f.modCue h g).now = f.now := rfl
@[simp] theorem Floor.modCue_draws (h : Nat) (g : Cue → Cue) : (f.modCue h g).draws = f.draws := rfl
@[simp] theorem Floor.modCue_reels (h : Nat) (g : Cue → Cue) : (f.modCue h g).reels = f.reels := rfl
@[simp] theorem Floor.modCue_chars (h : Nat) (g : Cue → Cue) : (f.modCue h g).chars = f.chars := rfl
@[simp] theorem Floor.modCue_casts (h : Nat) (g : Cue → Cue) : (f.modCue h g).casts = f.casts := rfl
@[simp] theorem Floor.modCue_stages (h : Nat) (g : Cue → Cue) : (f.modCue h g).stages = f.stages := rfl
@[simp] theorem Floor.modCue_notices (h : Nat) (g : Cue → Cue) : (f.modCue h g).notices = f.notices := rfl
@[simp] theorem Floor.modCue_mask (h : Nat) (g : Cue → Cue) : (f.modCue h g).mask = f.mask := rfl
@[simp] theorem Floor.modCue_monitor (h : Nat) (g : Cue → Cue) : (f.modCue h g).monitor = f.monitor := rfl

@[simp] theorem Floor.modReel_now (k : Nat) (g : Reel → Reel) : (f.modReel k g).now = f.now := rfl
@[simp] theorem Floor.modReel_draws (k : Nat) (g : Reel → Reel) : (f.modReel k g).draws = f.draws := rfl
@[simp] theorem Floor.modReel_cues (k : Nat) (g : Reel → Reel) : (f.modReel k g).cues = f.cues := rfl
@[simp] theorem Floor.modReel_chars (k : Nat) (g : Reel → Reel) : (f.modReel k g).chars = f.chars := rfl
@[simp] theorem Floor.modReel_casts (k : Nat) (g : Reel → Reel) : (f.modReel k g).casts = f.casts := rfl
@[simp] theorem Floor.modReel_stages (k : Nat) (g : Reel → Reel) : (f.modReel k g).stages = f.stages := rfl
@[simp] theorem Floor.modReel_notices (k : Nat) (g : Reel → Reel) : (f.modReel k g).notices = f.notices := rfl
@[simp] theorem Floor.modReel_mask (k : Nat) (g : Reel → Reel) : (f.modReel k g).mask = f.mask := rfl
@[simp] theorem Floor.modReel_monitor (k : Nat) (g : Reel → Reel) : (f.modReel k g).monitor = f.monitor := rfl

@[simp] theorem Floor.raiseUse_now (l : List Nat) : (f.raiseUse l).now = f.now := rfl
@[simp] theorem Floor.raiseUse_draws (l : List Nat) : (f.raiseUse l).draws = f.draws := rfl
@[simp] theorem Floor.raiseUse_cues (l : List Nat) : (f.raiseUse l).cues = f.cues := rfl
@[simp] theorem Floor.raiseUse_reels (l : List Nat) : (f.raiseUse l).reels = f.reels := rfl
@[simp] theorem Floor.raiseUse_casts (l : List Nat) : (f.raiseUse l).casts = f.casts := rfl
@[simp] theorem Floor.raiseUse_stages (l : List Nat) : (f.raiseUse l).stages = f.stages := rfl
@[simp] theorem Floor.raiseUse_notices (l : List Nat) : (f.raiseUse l).notices = f.notices := rfl
@[simp] theorem Floor.raiseUse_mask (l : List Nat) : (f.raiseUse l).mask = f.mask := rfl
@[simp] theorem Floor.raiseUse_monitor (l : List Nat) : (f.raiseUse l).monitor = f.monitor := rfl

@[simp] theorem Floor.lowerUse_now (l : List Nat) : (f.lowerUse l).now = f.now := rfl
@[simp] theorem Floor.lowerUse_draws (l : List Nat) : (f.lowerUse l).draws = f.draws := rfl
@[simp] theorem Floor.lowerUse_cues (l : List Nat) : (f.lowerUse l).cues = f.cues := rfl
@[simp] theorem Floor.lowerUse_reels (l : List Nat) : (f.lowerUse l).reels = f.reels := rfl
@[simp] theorem Floor.lowerUse_casts (l : List Nat) : (f.lowerUse l).casts = f.casts := rfl
@[simp] theorem Floor.lowerUse_stages (l : List Nat) : (f.lowerUse l).stages = f.stages := rfl
@[simp] theorem Floor.lowerUse_notices (l : List Nat) : (f.lowerUse l).notices = f.notices := rfl
@[simp] theorem Floor.lowerUse_mask (l : List Nat) : (f.lowerUse l).mask = f.mask := rfl
@[simp] theorem Floor.lowerUse_monitor (l : List Nat) : (f.lowerUse l).monitor = f.monitor := rfl

@[simp] theorem Floor.setPodium_now (i : Fin 4) (k : Fin 6) (x : Option Nat) : (f.setPodium i k x).now = f.now := rfl
@[simp] theorem Floor.setPodium_draws (i : Fin 4) (k : Fin 6) (x : Option Nat) : (f.setPodium i k x).draws = f.draws := rfl
@[simp] theorem Floor.setPodium_cues (i : Fin 4) (k : Fin 6) (x : Option Nat) : (f.setPodium i k x).cues = f.cues := rfl
@[simp] theorem Floor.setPodium_reels (i : Fin 4) (k : Fin 6) (x : Option Nat) : (f.setPodium i k x).reels = f.reels := rfl
@[simp] theorem Floor.setPodium_chars (i : Fin 4) (k : Fin 6) (x : Option Nat) : (f.setPodium i k x).chars = f.chars := rfl
@[simp] theorem Floor.setPodium_stages (i : Fin 4) (k : Fin 6) (x : Option Nat) : (f.setPodium i k x).stages = f.stages := rfl
@[simp] theorem Floor.setPodium_notices (i : Fin 4) (k : Fin 6) (x : Option Nat) : (f.setPodium i k x).notices = f.notices := rfl
@[simp] theorem Floor.setPodium_mask (i : Fin 4) (k : Fin 6) (x : Option Nat) : (f.setPodium i k x).mask = f.mask := rfl
@[simp] theorem Floor.setPodium_monitor (i : Fin 4) (k : Fin 6) (x : Option Nat) : (f.setPodium i k x).monitor = f.monitor := rfl

@[simp] theorem Floor.setNotice_now (n : Notice) : (f.setNotice n).now = f.now := rfl
@[simp] theorem Floor.setNotice_draws (n : Notice) : (f.setNotice n).draws = f.draws := rfl
@[simp] theorem Floor.setNotice_cues (n : Notice) : (f.setNotice n).cues = f.cues := rfl
@[simp] theorem Floor.setNotice_reels (n : Notice) : (f.setNotice n).reels = f.reels := rfl
@[simp] theorem Floor.setNotice_chars (n : Notice) : (f.setNotice n).chars = f.chars := rfl
@[simp] theorem Floor.setNotice_casts (n : Notice) : (f.setNotice n).casts = f.casts := rfl
@[simp] theorem Floor.setNotice_stages (n : Notice) : (f.setNotice n).stages = f.stages := rfl
@[simp] theorem Floor.setNotice_mask (n : Notice) : (f.setNotice n).mask = f.mask := rfl
@[simp] theorem Floor.setNotice_monitor (n : Notice) : (f.setNotice n).monitor = f.monitor := rfl

@[simp] theorem Floor.clearNotice_now (n : Notice) : (f.clearNotice n).now = f.now := rfl
@[simp] theorem Floor.clearNotice_draws (n : Notice) : (f.clearNotice n).draws = f.draws := rfl
@[simp] theorem Floor.clearNotice_cues (n : Notice) : (f.clearNotice n).cues = f.cues := rfl
@[simp] theorem Floor.clearNotice_reels (n : Notice) : (f.clearNotice n).reels = f.reels := rfl
@[simp] theorem Floor.clearNotice_chars (n : Notice) : (f.clearNotice n).chars = f.chars := rfl
@[simp] theorem Floor.clearNotice_casts (n : Notice) : (f.clearNotice n).casts = f.casts := rfl
@[simp] theorem Floor.clearNotice_stages (n : Notice) : (f.clearNotice n).stages = f.stages := rfl
@[simp] theorem Floor.clearNotice_mask (n : Notice) : (f.clearNotice n).mask = f.mask := rfl
@[simp] theorem Floor.clearNotice_monitor (n : Notice) : (f.clearNotice n).monitor = f.monitor := rfl

@[simp] theorem Floor.modCounters_now (g : Counter → Counter) : (f.modCounters g).now = f.now := rfl
@[simp] theorem Floor.modCounters_draws (g : Counter → Counter) : (f.modCounters g).draws = f.draws := rfl
@[simp] theorem Floor.modCounters_cues (g : Counter → Counter) : (f.modCounters g).cues = f.cues := rfl
@[simp] theorem Floor.modCounters_reels (g : Counter → Counter) : (f.modCounters g).reels = f.reels := rfl
@[simp] theorem Floor.modCounters_chars (g : Counter → Counter) : (f.modCounters g).chars = f.chars := rfl
@[simp] theorem Floor.modCounters_casts (g : Counter → Counter) : (f.modCounters g).casts = f.casts := rfl
@[simp] theorem Floor.modCounters_stages (g : Counter → Counter) : (f.modCounters g).stages = f.stages := rfl
@[simp] theorem Floor.modCounters_notices (g : Counter → Counter) : (f.modCounters g).notices = f.notices := rfl
@[simp] theorem Floor.modCounters_mask (g : Counter → Counter) : (f.modCounters g).mask = f.mask := rfl

@[simp] theorem Floor.countOccurrence_now (i : Fin 4) (c : CounterSource) : (f.countOccurrence i c).now = f.now := rfl
@[simp] theorem Floor.countOccurrence_draws (i : Fin 4) (c : CounterSource) : (f.countOccurrence i c).draws = f.draws := rfl
@[simp] theorem Floor.countOccurrence_cues (i : Fin 4) (c : CounterSource) : (f.countOccurrence i c).cues = f.cues := rfl
@[simp] theorem Floor.countOccurrence_reels (i : Fin 4) (c : CounterSource) : (f.countOccurrence i c).reels = f.reels := rfl
@[simp] theorem Floor.countOccurrence_chars (i : Fin 4) (c : CounterSource) : (f.countOccurrence i c).chars = f.chars := rfl
@[simp] theorem Floor.countOccurrence_casts (i : Fin 4) (c : CounterSource) : (f.countOccurrence i c).casts = f.casts := rfl
@[simp] theorem Floor.countOccurrence_stages (i : Fin 4) (c : CounterSource) : (f.countOccurrence i c).stages = f.stages := rfl
@[simp] theorem Floor.countOccurrence_notices (i : Fin 4) (c : CounterSource) : (f.countOccurrence i c).notices = f.notices := rfl
@[simp] theorem Floor.countOccurrence_mask (i : Fin 4) (c : CounterSource) : (f.countOccurrence i c).mask = f.mask := rfl

@[simp] theorem Floor.atCount_draws (n : Nat) : (f.atCount n).draws = f.draws := rfl
@[simp] theorem Floor.atCount_cues (n : Nat) : (f.atCount n).cues = f.cues := rfl
@[simp] theorem Floor.atCount_reels (n : Nat) : (f.atCount n).reels = f.reels := rfl
@[simp] theorem Floor.atCount_chars (n : Nat) : (f.atCount n).chars = f.chars := rfl
@[simp] theorem Floor.atCount_casts (n : Nat) : (f.atCount n).casts = f.casts := rfl
@[simp] theorem Floor.atCount_stages (n : Nat) : (f.atCount n).stages = f.stages := rfl
@[simp] theorem Floor.atCount_notices (n : Nat) : (f.atCount n).notices = f.notices := rfl
@[simp] theorem Floor.atCount_mask (n : Nat) : (f.atCount n).mask = f.mask := rfl
@[simp] theorem Floor.atCount_monitor (n : Nat) : (f.atCount n).monitor = f.monitor := rfl

@[simp] theorem Floor.setNotice_self (n : Notice) : (f.setNotice n).notices[n.index] = true := by
  simp [Floor.setNotice]

@[simp] theorem Floor.clearNotice_self (n : Notice) : (f.clearNotice n).notices[n.index] = false := by
  simp [Floor.clearNotice]

/-! ## The whole state -/

@[simp] theorem State.modFloor_link (g : Floor → Floor) : (s.modFloor g).link = s.link := rfl
@[simp] theorem State.modFloor_operation (g : Floor → Floor) : (s.modFloor g).operation = s.operation := rfl
@[simp] theorem State.modFloor_closure (g : Floor → Floor) : (s.modFloor g).closure = s.closure := rfl
@[simp] theorem State.modFloor_banks (g : Floor → Floor) : (s.modFloor g).banks = s.banks := rfl
@[simp] theorem State.modFloor_lines (g : Floor → Floor) : (s.modFloor g).lines = s.lines := rfl
@[simp] theorem State.modFloor_strap (g : Floor → Floor) : (s.modFloor g).strap = s.strap := rfl
@[simp] theorem State.modFloor_resetHeld (g : Floor → Floor) : (s.modFloor g).resetHeld = s.resetHeld := rfl
@[simp] theorem State.modFloor_pending (g : Floor → Floor) : (s.modFloor g).pending = s.pending := rfl

@[simp] theorem State.modFloor_floor (g : Floor → Floor) : (s.modFloor g).floor = g s.floor := rfl

@[simp] theorem State.respond_floor (c : Byte) (st : Status) (p : List Byte) : (s.respond c st p).floor = s.floor := rfl
@[simp] theorem State.respond_operation (c : Byte) (st : Status) (p : List Byte) : (s.respond c st p).operation = s.operation := rfl
@[simp] theorem State.respond_closure (c : Byte) (st : Status) (p : List Byte) : (s.respond c st p).closure = s.closure := rfl
@[simp] theorem State.respond_banks (c : Byte) (st : Status) (p : List Byte) : (s.respond c st p).banks = s.banks := rfl
@[simp] theorem State.respond_lines (c : Byte) (st : Status) (p : List Byte) : (s.respond c st p).lines = s.lines := rfl
@[simp] theorem State.respond_strap (c : Byte) (st : Status) (p : List Byte) : (s.respond c st p).strap = s.strap := rfl
@[simp] theorem State.respond_resetHeld (c : Byte) (st : Status) (p : List Byte) : (s.respond c st p).resetHeld = s.resetHeld := rfl
@[simp] theorem State.respond_pending (c : Byte) (st : Status) (p : List Byte) : (s.respond c st p).pending = s.pending := rfl

@[simp] theorem State.refuse_floor (c : Byte) (st : Status) : (s.refuse c st).floor = s.floor := rfl
@[simp] theorem State.refuse_operation (c : Byte) (st : Status) : (s.refuse c st).operation = s.operation := rfl
@[simp] theorem State.refuse_closure (c : Byte) (st : Status) : (s.refuse c st).closure = s.closure := rfl
@[simp] theorem State.refuse_banks (c : Byte) (st : Status) : (s.refuse c st).banks = s.banks := rfl
@[simp] theorem State.refuse_lines (c : Byte) (st : Status) : (s.refuse c st).lines = s.lines := rfl
@[simp] theorem State.refuse_strap (c : Byte) (st : Status) : (s.refuse c st).strap = s.strap := rfl
@[simp] theorem State.refuse_resetHeld (c : Byte) (st : Status) : (s.refuse c st).resetHeld = s.resetHeld := rfl
@[simp] theorem State.refuse_pending (c : Byte) (st : Status) : (s.refuse c st).pending = s.pending := rfl

@[simp] theorem State.beginOperation_floor (op : StoreOp) : (s.beginOperation op).floor = s.floor := rfl
@[simp] theorem State.beginOperation_closure (op : StoreOp) : (s.beginOperation op).closure = s.closure := rfl
@[simp] theorem State.beginOperation_banks (op : StoreOp) : (s.beginOperation op).banks = s.banks := rfl
@[simp] theorem State.beginOperation_lines (op : StoreOp) : (s.beginOperation op).lines = s.lines := rfl
@[simp] theorem State.beginOperation_strap (op : StoreOp) : (s.beginOperation op).strap = s.strap := rfl
@[simp] theorem State.beginOperation_resetHeld (op : StoreOp) : (s.beginOperation op).resetHeld = s.resetHeld := rfl
@[simp] theorem State.beginOperation_pending (op : StoreOp) : (s.beginOperation op).pending = s.pending := rfl

@[simp] theorem State.endOperation_floor (c : Byte) (st : Status) (p : List Byte) : (s.endOperation c st p).floor = s.floor := rfl
@[simp] theorem State.endOperation_closure (c : Byte) (st : Status) (p : List Byte) : (s.endOperation c st p).closure = s.closure := rfl
@[simp] theorem State.endOperation_banks (c : Byte) (st : Status) (p : List Byte) : (s.endOperation c st p).banks = s.banks := rfl
@[simp] theorem State.endOperation_lines (c : Byte) (st : Status) (p : List Byte) : (s.endOperation c st p).lines = s.lines := rfl
@[simp] theorem State.endOperation_strap (c : Byte) (st : Status) (p : List Byte) : (s.endOperation c st p).strap = s.strap := rfl
@[simp] theorem State.endOperation_resetHeld (c : Byte) (st : Status) (p : List Byte) : (s.endOperation c st p).resetHeld = s.resetHeld := rfl
@[simp] theorem State.endOperation_pending (c : Byte) (st : Status) (p : List Byte) : (s.endOperation c st p).pending = s.pending := rfl

@[simp] theorem State.closeWindow_floor : (s.closeWindow).floor = s.floor := rfl
@[simp] theorem State.closeWindow_operation : (s.closeWindow).operation = s.operation := rfl
@[simp] theorem State.closeWindow_closure : (s.closeWindow).closure = s.closure := rfl
@[simp] theorem State.closeWindow_banks : (s.closeWindow).banks = s.banks := rfl
@[simp] theorem State.closeWindow_lines : (s.closeWindow).lines = s.lines := rfl
@[simp] theorem State.closeWindow_strap : (s.closeWindow).strap = s.strap := rfl
@[simp] theorem State.closeWindow_resetHeld : (s.closeWindow).resetHeld = s.resetHeld := rfl
@[simp] theorem State.closeWindow_pending : (s.closeWindow).pending = s.pending := rfl

@[simp] theorem State.replied_floor (c : Byte) (st : Status) (p : List Byte) : (s.replied c st p).floor = s.floor := rfl
@[simp] theorem State.replied_operation (c : Byte) (st : Status) (p : List Byte) : (s.replied c st p).operation = s.operation := rfl
@[simp] theorem State.replied_closure (c : Byte) (st : Status) (p : List Byte) : (s.replied c st p).closure = s.closure := rfl
@[simp] theorem State.replied_banks (c : Byte) (st : Status) (p : List Byte) : (s.replied c st p).banks = s.banks := rfl
@[simp] theorem State.replied_lines (c : Byte) (st : Status) (p : List Byte) : (s.replied c st p).lines = s.lines := rfl
@[simp] theorem State.replied_strap (c : Byte) (st : Status) (p : List Byte) : (s.replied c st p).strap = s.strap := rfl
@[simp] theorem State.replied_resetHeld (c : Byte) (st : Status) (p : List Byte) : (s.replied c st p).resetHeld = s.resetHeld := rfl
@[simp] theorem State.replied_pending (c : Byte) (st : Status) (p : List Byte) : (s.replied c st p).pending = s.pending := rfl

@[simp] theorem State.accepted_floor (op : StoreOp) : (s.accepted op).floor = s.floor := rfl
@[simp] theorem State.accepted_closure (op : StoreOp) : (s.accepted op).closure = s.closure := rfl
@[simp] theorem State.accepted_banks (op : StoreOp) : (s.accepted op).banks = s.banks := rfl
@[simp] theorem State.accepted_lines (op : StoreOp) : (s.accepted op).lines = s.lines := rfl
@[simp] theorem State.accepted_strap (op : StoreOp) : (s.accepted op).strap = s.strap := rfl
@[simp] theorem State.accepted_resetHeld (op : StoreOp) : (s.accepted op).resetHeld = s.resetHeld := rfl
@[simp] theorem State.accepted_pending (op : StoreOp) : (s.accepted op).pending = s.pending := rfl

@[simp] theorem State.fillSlot_floor (code : Byte) (bytes : List Byte) : (s.fillSlot code bytes).floor = s.floor := rfl
@[simp] theorem State.fillSlot_operation (code : Byte) (bytes : List Byte) : (s.fillSlot code bytes).operation = s.operation := rfl
@[simp] theorem State.fillSlot_closure (code : Byte) (bytes : List Byte) : (s.fillSlot code bytes).closure = s.closure := rfl
@[simp] theorem State.fillSlot_banks (code : Byte) (bytes : List Byte) : (s.fillSlot code bytes).banks = s.banks := rfl
@[simp] theorem State.fillSlot_lines (code : Byte) (bytes : List Byte) : (s.fillSlot code bytes).lines = s.lines := rfl
@[simp] theorem State.fillSlot_strap (code : Byte) (bytes : List Byte) : (s.fillSlot code bytes).strap = s.strap := rfl
@[simp] theorem State.fillSlot_resetHeld (code : Byte) (bytes : List Byte) : (s.fillSlot code bytes).resetHeld = s.resetHeld := rfl
@[simp] theorem State.fillSlot_pending (code : Byte) (bytes : List Byte) : (s.fillSlot code bytes).pending = s.pending := rfl

@[simp] theorem State.beginFetch_floor : (s.beginFetch).floor = s.floor := rfl
@[simp] theorem State.beginFetch_operation : (s.beginFetch).operation = s.operation := rfl
@[simp] theorem State.beginFetch_closure : (s.beginFetch).closure = s.closure := rfl
@[simp] theorem State.beginFetch_banks : (s.beginFetch).banks = s.banks := rfl
@[simp] theorem State.beginFetch_lines : (s.beginFetch).lines = s.lines := rfl
@[simp] theorem State.beginFetch_strap : (s.beginFetch).strap = s.strap := rfl
@[simp] theorem State.beginFetch_resetHeld : (s.beginFetch).resetHeld = s.resetHeld := rfl
@[simp] theorem State.beginFetch_pending : (s.beginFetch).pending = s.pending := rfl

@[simp] theorem State.ignoreWindow_floor : (s.ignoreWindow).floor = s.floor := rfl
@[simp] theorem State.ignoreWindow_operation : (s.ignoreWindow).operation = s.operation := rfl
@[simp] theorem State.ignoreWindow_closure : (s.ignoreWindow).closure = s.closure := rfl
@[simp] theorem State.ignoreWindow_banks : (s.ignoreWindow).banks = s.banks := rfl
@[simp] theorem State.ignoreWindow_lines : (s.ignoreWindow).lines = s.lines := rfl
@[simp] theorem State.ignoreWindow_strap : (s.ignoreWindow).strap = s.strap := rfl
@[simp] theorem State.ignoreWindow_resetHeld : (s.ignoreWindow).resetHeld = s.resetHeld := rfl
@[simp] theorem State.ignoreWindow_pending : (s.ignoreWindow).pending = s.pending := rfl

@[simp] theorem Run.granted_handle (late : Option Nat) (p : Nat) (x : Run) : (x.granted late p).handle = x.handle := by
  unfold Run.granted; split <;> rfl
@[simp] theorem Run.granted_phase (late : Option Nat) (p : Nat) (x : Run) : (x.granted late p).phase = x.phase := by
  unfold Run.granted; split <;> rfl
theorem Run.granted_not_waiting (late : Option Nat) (p : Nat) (x : Run) : (x.granted late p).punch ≠ .waiting := by
  unfold Run.granted; split <;> simp_all
theorem Run.granted_of_not_waiting (late : Option Nat) (p : Nat) (x : Run) (h : x.punch ≠ .waiting) :
    x.granted late p = x := by simp [Run.granted, h]

@[simp] theorem Floor.place_tracker (i : Fin 4) (t : Nat) :
    (f.place i t).tracker i = { f.tracker i with position := t } := by simp [Floor.place]
@[simp] theorem Floor.place_runner (i : Fin 4) (t : Nat) :
    (f.place i t).runner i = { f.runner i with lastPosition := t } := by simp [Floor.place]
@[simp] theorem Floor.place_path (i : Fin 4) (t : Nat) : (f.place i t).path i = f.path i := by simp [Floor.place]
@[simp] theorem Floor.place_cues (i : Fin 4) (t : Nat) : (f.place i t).cues = f.cues := rfl
@[simp] theorem Floor.place_now (i : Fin 4) (t : Nat) : (f.place i t).now = f.now := rfl

end Sys2Proof.Machine
end

