-- ==== Sys2Proof/Laws/Link.lean ====
section
/-! SUPPORT. What the link port's shared operations do: a request window by the state it meets, and the answer. -/

namespace Sys2Proof.Machine

variable {α : Type} (s : State) (code : Byte) (fieldCount : Option Nat) (parse : List Byte → Option α)
  (q : Request α) (owner : α → State → State)

/-- The state in which the owner of a request finds the part: the window ended, and where its first byte comes with the
whole window, the waiting response discarded and the link EMPTY (R195, R196). -/
def State.handover (s : State) : State :=
  match s.link.window with
  | .noWindow => { s with link := { s.link with state := .empty, response := none, requestSlot := [] } }
  | _ => s.windowEnded

@[simp] theorem State.handover_floor : s.handover.floor = s.floor := by unfold State.handover; split <;> rfl
@[simp] theorem State.handover_operation : s.handover.operation = s.operation := by
  unfold State.handover; split <;> rfl
@[simp] theorem State.handover_closure : s.handover.closure = s.closure := by unfold State.handover; split <;> rfl
@[simp] theorem State.handover_banks : s.handover.banks = s.banks := by unfold State.handover; split <;> rfl
@[simp] theorem State.handover_lines : s.handover.lines = s.lines := by unfold State.handover; split <;> rfl
@[simp] theorem State.handover_strap : s.handover.strap = s.strap := by unfold State.handover; split <;> rfl
@[simp] theorem State.handover_resetHeld : s.handover.resetHeld = s.resetHeld := by
  unfold State.handover; split <;> rfl
@[simp] theorem State.handover_pending : s.handover.pending = s.pending := by unfold State.handover; split <;> rfl

theorem State.handover_window (h : s.Receives) : s.handover.link.window = .noWindow := by
  rcases h with h | h
  · simp [State.handover, h, State.windowEnded]
  · simp [State.handover, h.1]

/-- A response placed at handover gives the state `replied`, whatever the window was. -/
@[simp] theorem State.handover_respond (h : s.Receives) (st : Status) (p : List Byte) :
    s.handover.respond code st p = s.replied code st p := by
  rcases h with h | h
  · simp [State.handover, h, State.windowEnded, State.respond, State.replied]
  · simp [State.handover, h.1, State.respond, State.replied]

/-- What the request slot has room for is enough: the checks of a longer window have the same outcome (R193, R196). -/
theorem checkWindow_take (received : Nat) (bytes : List Byte) (hr : received = 1 + bytes.length) :
    checkWindow fieldCount parse received (bytes.take 251) = checkWindow fieldCount parse received bytes := by
  by_cases hl : bytes.length ≤ 251
  · rw [List.take_of_length_le hl]
  · obtain ⟨d, m, n, p, rfl⟩ : ∃ d m n p, bytes = d :: m :: n :: p := by
      match bytes, hl with
      | d :: m :: n :: p, _ => exact ⟨d, m, n, p, rfl⟩
      | [_, _], hl | [_], hl | [], hl => simp at hl
    have hp : presenceBad fieldCount (m :: n :: p.take 248) = presenceBad fieldCount (m :: n :: p) := by
      cases fieldCount <;> rfl
    have hd : (250 < d.toNat || received != 2 + d.toNat) = true := by
      simp only [List.length_cons, Bool.or_eq_true, decide_eq_true_eq, bne_iff_ne, ne_eq] at hl hr ⊢
      omega
    simp only [List.take_succ_cons, checkWindow, hp, hd, ↓reduceIte]

/-- The checks read the request slot, and find there what the window carried (R193, R196). -/
theorem State.readSlot_fillSlot :
    (s.fillSlot code (laterBytes q)).readSlot fieldCount parse q = readRequest fieldCount parse q := by
  cases q with
  | fields x => rfl
  | window bytes => exact checkWindow_take fieldCount parse _ bytes rfl

/-- A request that the port takes reaches its owner at handover, or is refused with the status of the port's checks. -/
theorem State.request_received (h : s.Receives) :
    s.request code fieldCount parse q owner =
      match readRequest fieldCount parse q with
      | .ok x => owner x s.handover
      | .error st => s.replied code st [] := by
  rcases h with h | ⟨h, hr, hb⟩
  · have hh : s.handover = s.windowEnded := by simp [State.handover, h]
    simp only [State.request, h, reduceCtorEq, ↓reduceIte, State.readSlot_fillSlot]
    cases readRequest fieldCount parse q with
    | ok x => rw [hh]; rfl
    | error st => rfl
  · have hf : s.firstByte code = { s with link := { s.link with
        state := .empty, response := none, window := .assembling, requestSlot := [code] } } := by
      unfold State.firstByte
      rw [if_neg (by simp [hr])]
      split
      · contradiction
      · rfl
    simp only [State.request, h, ↓reduceIte, hf, State.readSlot_fillSlot]
    cases readRequest fieldCount parse q with
    | ok x => simp [State.handover, h, State.closeWindow, State.fillSlot]
    | error st => rfl

/-- A request whose window is read to its fields reaches its owner. -/
theorem State.request_read (h : s.Receives) {x : α} (hx : readRequest fieldCount parse q = .ok x) :
    s.request code fieldCount parse q owner = owner x s.handover := by
  rw [State.request_received _ _ _ _ _ _ h, hx]

/-- A request that the port drops sets LINK_DROPPED and ends its window (R195). -/
theorem State.request_dropped (h : s.Drops) :
    s.request code fieldCount parse q owner = s.windowEnded.modFloor fun f => f.setNotice .linkDropped := by
  rcases h with h | ⟨h, hr, hb⟩
  · simp [State.request, h, State.dropWindow, State.closeWindow, State.windowEnded]
  · simp [State.request, h, State.firstByte, hr, hb, State.dropWindow, State.closeWindow, State.windowEnded]

/-- A request that the port ignores ends its window and does nothing else (R194). -/
theorem State.request_ignored (h : s.Ignores) : s.request code fieldCount parse q owner = s.windowEnded := by
  rcases h with h | ⟨h, hr⟩
  · simp [State.request, h, State.closeWindow, State.windowEnded]
  · simp [State.request, h, State.firstByte, hr, State.closeWindow, State.windowEnded]

/-- The first byte of a window changes the link port and nothing else (R195). -/
theorem State.firstByte_link_only : s.firstByte code = { s with link := (s.firstByte code).link } := by
  unfold State.firstByte; split
  · rfl
  · split <;> rfl

/-- A fetch changes the link port and nothing else (R198). -/
theorem State.fetchWindow_link_only (n : Nat) (across : Bool) :
    s.fetchWindow n across = { s with link := (s.fetchWindow n across).link } := by
  unfold State.fetchWindow State.readOut
  repeat' split
  all_goals rfl

/-- A request window leaves no trace in the port: at its handover the slot is empty and no window is in progress (R193). -/
theorem State.closeWindow_fillSlot (bytes : List Byte) : (s.fillSlot code bytes).closeWindow = s.closeWindow := rfl

@[simp] theorem State.answer_ok (t : State) (st : Status) (p : List Byte) :
    s.answer code (.ok (t, st, p)) = t.respond code st p := rfl

@[simp] theorem State.answer_error (st : Status) : s.answer code (.error st) = s.refuse code st := rfl

@[simp] theorem require_true (st : Status) : require true st = .ok () := rfl
@[simp] theorem require_false (st : Status) : require false st = .error st := rfl
@[simp] theorem orElse_some {β : Type} (x : β) (st : Status) : orElse (some x) st = .ok x := rfl
@[simp] theorem orElse_none {β : Type} (st : Status) : orElse (none : Option β) st = .error st := rfl

end Sys2Proof.Machine
end

