-- ==== Sys2Proof/Laws/Path.lean ====
section
/-! SUPPORT. What an interlock operation can do, said once: it leaves everything but its stage's path and the punch
states of its stage's waiting runs (R120, R133 to R138). -/

namespace Sys2Proof.Machine

variable (f : Floor) (i : Fin 4)

/-- Two changes of one stage are one change of it. -/
theorem Floor.modStage_modStage (g h : Stage → Stage) :
    (f.modStage i g).modStage i h = f.modStage i fun s => h (g s) := by
  simp [Floor.modStage]

/-- Changing a stage to itself changes nothing. -/
theorem Floor.modStage_self (g : Stage → Stage) (hg : g (f.stage i) = f.stage i) : f.modStage i g = f := by
  have hg' : g f.stages[i] = f.stages[i] := hg
  have : f.stages.set i.val (g f.stages[i]) i.isLt = f.stages := by
    rw [hg']; simp
  unfold Floor.modStage
  exact congrArg (fun v => { f with stages := v }) this

/-- A change of a stage depends on the stage alone. -/
theorem Floor.modStage_congr (g h : Stage → Stage) (hg : g (f.stage i) = h (f.stage i)) :
    f.modStage i g = f.modStage i h := by
  have hg' : g f.stages[i] = h f.stages[i] := hg
  simp only [Floor.modStage]
  rw [hg']

/-- What a path operation may do to a run at a position: nothing, or punch one that waits (R120, R136). -/
abbrev Run.PunchedFrom (at_ : Nat) (x y : Run) : Prop :=
  y = x ∨ (x.punch = .waiting ∧ ∃ late, y = x.granted late at_)

/-- One floor comes from another by an interlock operation of a stage: only the path, and punch states of waiting
runs, change. -/
def Floor.PathOnly (i : Fin 4) (f g : Floor) : Prop :=
  ∃ (p : Path) (c : Run → Run), (∀ x, Run.PunchedFrom (f.tracker i).position x (c x)) ∧
    g = f.modStage i fun s => { s with path := p, runner := { s.runner with runs := s.runner.runs.map c } }

theorem Floor.PathOnly.modPath (h : Path → Path) : Floor.PathOnly i f (f.modPath i h) :=
  ⟨h (f.path i), id, fun _ => .inl rfl, by
    refine Floor.modStage_congr _ _ _ _ ?_
    simp [Floor.path]⟩

theorem Floor.PathOnly.rfl' : Floor.PathOnly i f f :=
  ⟨f.path i, id, fun _ => .inl rfl, by
    symm
    exact Floor.modStage_self _ _ _ (by simp [Floor.path])⟩

/-- Interlock operations compose. -/
theorem Floor.PathOnly.trans {f g h : Floor} {i : Fin 4} (a : Floor.PathOnly i f g) (b : Floor.PathOnly i g h) :
    Floor.PathOnly i f h := by
  obtain ⟨p, c, hc, rfl⟩ := a
  obtain ⟨q, d, hd, rfl⟩ := b
  refine ⟨q, fun x => d (c x), fun x => ?_, ?_⟩
  · have hd' := hd (c x)
    simp only [Floor.tracker, Floor.modStage_stage] at hd' hc ⊢
    rcases hc x with hx | ⟨hx, hx'⟩
    · rw [hx] at hd' ⊢
      exact hd'
    · obtain ⟨late, hx'⟩ := hx'
      rcases hd' with hy | ⟨hy, _⟩
      · exact .inr ⟨hx, late, by rw [hy, hx']⟩
      · rw [hx'] at hy; exact absurd hy (Run.granted_not_waiting _ _ _)
  · rw [Floor.modStage_modStage]
    refine Floor.modStage_congr _ _ _ _ ?_
    simp [Function.comp_def]

theorem Floor.startGap_pathOnly : Floor.PathOnly i f (f.startGap i) := by
  unfold Floor.startGap
  split
  · exact .rfl' f i
  · exact .modPath f i _

theorem Floor.grant_pathOnly (late : Option Nat) : Floor.PathOnly i f (f.grant i late) :=
  ⟨{ f.path i with state := .record },
    Run.granted late (f.tracker i).position,
    fun x => by
      by_cases h : x.punch = .waiting
      · exact .inr ⟨h, late, rfl⟩
      · exact .inl (x.granted_of_not_waiting _ _ h), by
    simp only [Floor.grant, Floor.modPath, Floor.modRunner]
    rw [Floor.modStage_modStage]
    refine Floor.modStage_congr _ _ _ _ ?_
    simp [Floor.path, Floor.tracker]⟩

theorem Floor.raiseDemand_pathOnly : Floor.PathOnly i f (f.raiseDemand i) := by
  unfold Floor.raiseDemand
  dsimp only
  split
  · exact (f.startGap_pathOnly i).trans (.modPath _ i _)
  · exact .modPath f i _

theorem Floor.releaseRecord_pathOnly (demand : Bool) : Floor.PathOnly i f (f.releaseRecord i demand) := by
  unfold Floor.releaseRecord
  exact (f.startGap_pathOnly i).trans (.modPath _ i _)

/-- Settling a path changes its path record, and punches waiting runs at the position, at most (R134 to R137). -/
theorem Floor.settlePath_pathOnly : Floor.PathOnly i f (f.settlePath i) := by
  unfold Floor.settlePath
  dsimp only
  split
  · split
    · exact .modPath f i _
    · exact f.releaseRecord_pathOnly i _
  · split
    · split
      · exact f.grant_pathOnly i _
      · exact .rfl' f i
    · exact .modPath f i _
  · split
    · split
      · exact (f.raiseDemand_pathOnly i).trans (Floor.grant_pathOnly _ i _)
      · exact f.raiseDemand_pathOnly i
    · exact .rfl' f i

theorem Floor.talkbackOn_pathOnly : Floor.PathOnly i f (f.talkbackOn i) := .modPath f i _

theorem Floor.talkbackOff_pathOnly : Floor.PathOnly i f (f.talkbackOff i) := by
  unfold Floor.talkbackOff
  dsimp only
  split
  · exact (Floor.PathOnly.modPath f i _).trans ((Floor.startGap_pathOnly _ i).trans (.modPath _ i _))
  · exact .modPath f i _

theorem Floor.freePath_pathOnly : Floor.PathOnly i f (f.freePath i) := .modPath f i _

/-- The end of a gap: an interlock operation, after which LATE_PUNCH may be set (R136, R138). -/
theorem Floor.endGap_pathOnly :
    ∃ g, Floor.PathOnly i f g ∧ (f.endGap i = g ∨ f.endGap i = g.setNotice (.ofStage i .latePunch)) := by
  unfold Floor.endGap
  dsimp only
  split
  · exact ⟨_, (Floor.PathOnly.modPath f i _).trans (.modPath _ i _), .inl rfl⟩
  · split
    · exact ⟨_, (Floor.PathOnly.modPath f i _).trans (Floor.grant_pathOnly _ i _), .inr rfl⟩
    · exact ⟨_, .modPath f i _, .inl rfl⟩
  · exact ⟨_, .modPath f i _, .inl rfl⟩

/-- A run list keeps its handles and phases under an interlock operation. -/
theorem Floor.PathOnly.handles {f g : Floor} {i : Fin 4} (a : Floor.PathOnly i f g) :
    (g.runner i).runs.map (·.handle) = (f.runner i).runs.map (·.handle) ∧
    (g.runner i).runs.map (·.phase) = (f.runner i).runs.map (·.phase) := by
  obtain ⟨p, c, hc, rfl⟩ := a
  have hh : ∀ x, (c x).handle = x.handle ∧ (c x).phase = x.phase := fun x => by
    rcases hc x with h | ⟨_, _, h⟩ <;> simp [h]
  simp [Floor.runner, Function.comp_def, hh]

/-- An interlock operation leaves the tracker, the fault modes and the transmitter of its stage, and every other
stage. -/
theorem Floor.PathOnly.frame {f g : Floor} {i : Fin 4} (a : Floor.PathOnly i f g) :
    g.tracker i = f.tracker i ∧ g.faults i = f.faults i ∧ g.overlay i = f.overlay i ∧
      ∀ j, j ≠ i → g.stage j = f.stage j := by
  obtain ⟨p, c, _, rfl⟩ := a
  exact ⟨by simp [Floor.tracker], by simp [Floor.faults], by simp [Floor.overlay],
    fun j hj => Floor.modStage_stage_ne _ _ _ _ hj⟩

end Sys2Proof.Machine
end

