-- ==== Sys2Proof/Laws/Table.lean ====
section
/-! SUPPORT. The laws of the slot tables: reading after a change, the canonical form, the lowest free slot. -/

namespace Sys2Proof.Machine

variable {α : Type}

@[simp] theorem Table.find_nil (k : Nat) : Table.find k ([] : List (Nat × α)) = none := rfl

theorem Table.find_cons (k : Nat) (e : Nat × α) (t : List (Nat × α)) :
    Table.find k (e :: t) = if e.1 = k then some e.2 else Table.find k t := rfl

/-- Reading the slot just written. -/
@[simp] theorem Table.find_put_self (k : Nat) (v : α) (t : List (Nat × α)) :
    Table.find k (Table.put k v t) = some v := by
  induction t with
  | nil => simp [Table.put, Table.find_cons]
  | cons e t ih =>
    simp only [Table.put]
    split
    · simp [Table.find_cons]
    · split
      · simp [Table.find_cons]
      · simp [Table.find_cons, *]

/-- Reading another slot. -/
theorem Table.find_put_other {j k : Nat} (h : j ≠ k) (v : α) (t : List (Nat × α)) :
    Table.find j (Table.put k v t) = Table.find j t := by
  induction t with
  | nil => simp [Table.put, Table.find_cons, Ne.symm h]
  | cons e t ih =>
    simp only [Table.put]
    split
    · simp [Table.find_cons, Ne.symm h]
    · split
      · rename_i h1 h2
        simp [Table.find_cons, h2, Ne.symm h]
      · simp [Table.find_cons, ih]

@[simp] theorem Table.find_erase_self (k : Nat) (t : List (Nat × α)) : Table.find k (Table.erase k t) = none := by
  induction t with
  | nil => rfl
  | cons e t ih =>
    by_cases h : e.1 = k
    · simpa [Table.erase, h] using ih
    · simpa [Table.erase, h, Table.find_cons] using ih

theorem Table.find_erase_other {j k : Nat} (h : j ≠ k) (t : List (Nat × α)) :
    Table.find j (Table.erase k t) = Table.find j t := by
  induction t with
  | nil => rfl
  | cons e t ih =>
    by_cases hk : e.1 = k
    · have hj : e.1 ≠ j := fun e' => h (e'.symm.trans hk)
      simpa [Table.erase, hk, Table.find_cons, hj, Ne.symm h] using ih
    · simp only [Table.erase, List.filter_cons, bne_iff_ne, ne_eq, hk, not_false_eq_true, ↓reduceIte,
        Table.find_cons] at ih ⊢
      rw [ih]

/-- Changing an entry changes what its slot reads as, and nothing else. -/
theorem Table.find_modify (j k : Nat) (g : α → α) (t : List (Nat × α)) :
    Table.find j (Table.modify k g t) = if j = k then (Table.find j t).map g else Table.find j t := by
  induction t with
  | nil => simp [Table.modify]
  | cons e t ih =>
    simp only [Table.modify, List.map_cons, Table.find_cons] at ih ⊢
    obtain ⟨a, v⟩ := e
    by_cases h : a = j
    · subst h
      by_cases hk : a = k <;> simp [hk]
    · by_cases hk : a = k
      · subst hk
        simpa [h, Ne.symm h] using ih
      · simpa [h, hk] using ih

@[simp] theorem Table.modify_keys (k : Nat) (g : α → α) (t : List (Nat × α)) :
    (Table.modify k g t).map (·.1) = t.map (·.1) := by
  simp only [Table.modify, List.map_map]
  apply List.map_congr_left
  intro e _
  simp only [Function.comp_apply]
  split <;> rfl

/-- The canonical form, said of the keys alone. -/
theorem Table.WF_iff (n : Nat) (t : List (Nat × α)) :
    Table.WF n t ↔ (t.map (·.1)).Pairwise (· < ·) ∧ ∀ k ∈ t.map (·.1), k < n := by
  simp [Table.WF, List.pairwise_map]

theorem Table.WF_nil (n : Nat) : Table.WF n ([] : List (Nat × α)) := by simp [Table.WF]

theorem Table.WF_modify {n : Nat} {t : List (Nat × α)} (k : Nat) (g : α → α) (h : Table.WF n t) :
    Table.WF n (Table.modify k g t) := by
  rw [Table.WF_iff, Table.modify_keys, ← Table.WF_iff]; exact h

theorem Table.WF_erase {n : Nat} {t : List (Nat × α)} (k : Nat) (h : Table.WF n t) : Table.WF n (Table.erase k t) :=
  ⟨h.1.filter _, fun e he => h.2 e (List.mem_of_mem_filter he)⟩

theorem Table.mem_put {k : Nat} {v : α} {t : List (Nat × α)} {e : Nat × α} (h : e ∈ Table.put k v t) :
    e = (k, v) ∨ e ∈ t := by
  induction t with
  | nil => simpa [Table.put] using h
  | cons w t ih =>
    simp only [Table.put] at h
    split at h
    · simpa using h
    · split at h
      · simp only [List.mem_cons] at h ⊢
        tauto
      · simp only [List.mem_cons] at h ⊢
        rcases h with h | h
        · exact .inr (.inl h)
        · exact (ih h).imp_right .inr

theorem Table.WF_put {n : Nat} {t : List (Nat × α)} {k : Nat} (v : α) (hk : k < n) (h : Table.WF n t) :
    Table.WF n (Table.put k v t) := by
  refine ⟨?_, fun e he => (Table.mem_put he).elim (fun e' => e' ▸ hk) (h.2 e)⟩
  have hs := h.1
  clear h
  induction t with
  | nil => simp [Table.put]
  | cons w t ih =>
    obtain ⟨hw, ht⟩ := List.pairwise_cons.1 hs
    simp only [Table.put]
    split
    · rename_i hlt
      refine List.pairwise_cons.2 ⟨fun e he => ?_, hs⟩
      rcases List.mem_cons.1 he with he | he
      · exact he ▸ hlt
      · exact Nat.lt_trans hlt (hw e he)
    · split
      · rename_i heq
        refine List.pairwise_cons.2 ⟨fun e he => ?_, ht⟩
        exact heq ▸ hw e he
      · refine List.pairwise_cons.2 ⟨fun e he => ?_, ih ht⟩
        rcases Table.mem_put he with he | he
        · subst he; simp only; omega
        · exact hw e he

theorem Table.put_length_le (k : Nat) (v : α) (t : List (Nat × α)) :
    (Table.put k v t).length ≤ t.length + 1 := by
  induction t with
  | nil => simp [Table.put]
  | cons w t ih =>
    simp only [Table.put]
    split
    · simp
    · split
      · simp
      · simpa using ih

/-! ## The lowest free slot (R32) -/

/-- In a canonical table with every key at or above n, the lowest free slot at or above n is free, it is at most n and the
number of entries, and every slot from n up to it holds an entry. -/
theorem Table.lowestFreeFrom_spec (n : Nat) (t : List (Nat × α)) (hs : t.Pairwise (fun a b => a.1 < b.1))
    (hn : ∀ e ∈ t, n ≤ e.1) :
    Table.find (Table.lowestFreeFrom n t) t = none ∧ n ≤ Table.lowestFreeFrom n t ∧
      Table.lowestFreeFrom n t ≤ n + t.length ∧
      ∀ j, n ≤ j → j < Table.lowestFreeFrom n t → (Table.find j t).isSome = true := by
  induction t generalizing n with
  | nil => simp only [lowestFreeFrom, find_nil, List.length_nil]; exact ⟨trivial, by omega, by omega, by omega⟩
  | cons e t ih =>
    obtain ⟨he, ht⟩ := List.pairwise_cons.1 hs
    simp only [Table.lowestFreeFrom]
    split
    · rename_i h
      obtain ⟨h1, h2, h3, h4⟩ := ih (n + 1) ht (fun x hx => by have := he x hx; omega)
      refine ⟨?_, by omega, by simp only [List.length_cons]; omega, fun j hj hlt => ?_⟩
      · rw [Table.find_cons, if_neg (by omega)]; exact h1
      · rw [Table.find_cons]
        split
        · rfl
        · exact h4 j (by omega) hlt
    · rename_i h
      refine ⟨?_, by omega, by simp only [List.length_cons]; omega, fun j hj hlt => by omega⟩
      have hne : ∀ x ∈ e :: t, x.1 ≠ n := by
        intro x hx
        rcases List.mem_cons.1 hx with hx | hx
        · exact hx ▸ h
        · have := he x hx; have := hn e (by simp); omega
      clear ih he ht hs hn h
      revert hne
      generalize e :: t = u
      intro hne
      induction u with
      | nil => rfl
      | cons w u ihu =>
        rw [Table.find_cons, if_neg (hne w (by simp))]
        exact ihu fun x hx => hne x (by simp [hx])

/-- The lowest free slot of a canonical table is free, and every slot below it holds an entry (R32). -/
theorem Table.lowestFree_spec {n : Nat} {t : List (Nat × α)} (h : Table.WF n t) :
    Table.find (Table.lowestFree t) t = none ∧ Table.lowestFree t ≤ t.length ∧
      ∀ j, j < Table.lowestFree t → (Table.find j t).isSome = true := by
  obtain ⟨h1, _, h3, h4⟩ := Table.lowestFreeFrom_spec 0 t h.1 (fun _ _ => Nat.zero_le _)
  exact ⟨h1, by simpa [Table.lowestFree] using h3, fun j hj => h4 j (Nat.zero_le _) hj⟩

end Sys2Proof.Machine
end

