-- ==== Sys2Proof/Laws/StageEvent.lean ====
section
/-! SUPPORT. What an event of one stage can reach, said once for every operation of the tracker, the runner, the fault
logic, the interlock and the transmitter: its own stage, take counts and in-flight counts of cues, notices, counters. -/

namespace Sys2Proof.Machine

/-- What of a cue record no event of a stage changes: everything but the takes and the in-flight count. -/
def Cue.settled (c : Cue) : Nat × CueFields × Enable × Approval × Lock := (c.reel, c.fields, c.enable, c.approval, c.lock)

/-- g comes from f by an event of stage i: the tables, the cast map, the mask, the reference counter, the other stages
and the settled part of every cue are as before. -/
structure Floor.StageEvent (i : Fin 4) (f g : Floor) : Prop where
  now : g.now = f.now
  reels : g.reels = f.reels
  chars : g.chars = f.chars
  casts : g.casts = f.casts
  mask : g.mask = f.mask
  stages : ∀ j, j ≠ i → g.stage j = f.stage j
  cues : g.cues.map (fun e => (e.1, e.2.settled)) = f.cues.map (fun e => (e.1, e.2.settled))

variable (f : Floor) (i : Fin 4)

theorem Floor.StageEvent.refl : Floor.StageEvent i f f := ⟨rfl, rfl, rfl, rfl, rfl, fun _ _ => rfl, rfl⟩

theorem Floor.StageEvent.trans {f g h : Floor} {i : Fin 4} (a : Floor.StageEvent i f g) (b : Floor.StageEvent i g h) :
    Floor.StageEvent i f h where
  now := b.now.trans a.now
  reels := b.reels.trans a.reels
  chars := b.chars.trans a.chars
  casts := b.casts.trans a.casts
  mask := b.mask.trans a.mask
  stages := fun j hj => (b.stages j hj).trans (a.stages j hj)
  cues := b.cues.trans a.cues

/-- The settled part of a cue, found by its handle, is as before. -/
theorem Floor.StageEvent.cue {f g : Floor} {i : Fin 4} (a : Floor.StageEvent i f g) (h : Nat) :
    (g.cue h).map Cue.settled = (f.cue h).map Cue.settled := by
  have key : ∀ t : List (Nat × Cue), (Table.find h t).map Cue.settled =
      Table.find h (t.map fun e => (e.1, e.2.settled)) := by
    intro t
    induction t with
    | nil => rfl
    | cons e t ih =>
      simp only [List.map_cons, Table.find_cons]
      split
      · rfl
      · exact ih
  rw [Floor.cue, Floor.cue, key, key, a.cues]

theorem Floor.StageEvent.modStage (h : Stage → Stage) : Floor.StageEvent i f (f.modStage i h) :=
  ⟨rfl, rfl, rfl, rfl, rfl, fun j hj => f.modStage_stage_ne i j h hj, rfl⟩

theorem Floor.StageEvent.modTracker (h : Tracker → Tracker) : Floor.StageEvent i f (f.modTracker i h) := .modStage f i _
theorem Floor.StageEvent.modRunner (h : Runner → Runner) : Floor.StageEvent i f (f.modRunner i h) := .modStage f i _
theorem Floor.StageEvent.modOverlay (h : Overlay → Overlay) : Floor.StageEvent i f (f.modOverlay i h) := .modStage f i _

theorem Floor.StageEvent.setNotice (n : Notice) : Floor.StageEvent i f (f.setNotice n) :=
  ⟨rfl, rfl, rfl, rfl, rfl, fun _ _ => rfl, rfl⟩

theorem Floor.StageEvent.modCounters (h : Counter → Counter) : Floor.StageEvent i f (f.modCounters h) :=
  ⟨rfl, rfl, rfl, rfl, rfl, fun _ _ => rfl, rfl⟩

theorem Floor.StageEvent.countOccurrence (j : Fin 4) (c : CounterSource) :
    Floor.StageEvent i f (f.countOccurrence j c) := .modCounters f i _

theorem Floor.StageEvent.draws (n : Nat) : Floor.StageEvent i f { f with draws := n } :=
  ⟨rfl, rfl, rfl, rfl, rfl, fun _ _ => rfl, rfl⟩

/-- A change of a cue that leaves its settled part. -/
theorem Floor.StageEvent.modCue (h : Nat) (g : Cue → Cue) (hg : ∀ c, (g c).settled = c.settled) :
    Floor.StageEvent i f (f.modCue h g) where
  now := rfl
  reels := rfl
  chars := rfl
  casts := rfl
  mask := rfl
  stages := fun _ _ => rfl
  cues := by
    simp only [Floor.modCue, Table.modify, List.map_map]
    apply List.map_congr_left
    intro e _
    simp only [Function.comp_apply]
    split <;> simp [hg]

theorem Floor.PathOnly.stageEvent {f g : Floor} {i : Fin 4} (a : Floor.PathOnly i f g) : Floor.StageEvent i f g := by
  obtain ⟨p, c, _, rfl⟩ := a
  exact .modStage f i _

theorem Floor.settlePath_stageEvent : Floor.StageEvent i f (f.settlePath i) := (f.settlePath_pathOnly i).stageEvent

/-! ## The end of a run, and the fault logic -/

theorem Floor.takeReport_stageEvent (h : Nat) (t : Take) : Floor.StageEvent i f (f.takeReport h t) := by
  unfold Floor.takeReport
  refine .trans ?_ (.countOccurrence _ i _ _)
  exact .modCue f i h _ fun _ => rfl

theorem Floor.dropRun_stageEvent (h : Nat) : Floor.StageEvent i f (f.dropRun i h) := by
  unfold Floor.dropRun Floor.dropMark
  dsimp only
  refine .trans (.trans (.modRunner f i _) (.modCue _ i h _ ?_)) (.modOverlay _ i _)
  exact fun _ => rfl

theorem Floor.reportRun_stageEvent (r : Run) (e : Nat) (o : TakeOutcome) :
    Floor.StageEvent i f (f.reportRun i r e o) := by
  unfold Floor.reportRun
  split
  · exact f.takeReport_stageEvent i _ _
  · exact .refl f i

theorem Floor.abortRun_stageEvent (r : Run) (e : Nat) : Floor.StageEvent i f (f.abortRun i r e) :=
  (f.reportRun_stageEvent i r e _).trans (Floor.dropRun_stageEvent _ i _)

theorem Floor.completeRun_stageEvent (r : Run) (e : Nat) : Floor.StageEvent i f (f.completeRun i r e) :=
  (f.reportRun_stageEvent i _ e _).trans (Floor.dropRun_stageEvent _ i _)

/-- A fold of stage events is a stage event. -/
theorem Floor.StageEvent.foldl {α : Type} (l : List α) (op : Floor → α → Floor)
    (h : ∀ g x, Floor.StageEvent i g (op g x)) : Floor.StageEvent i f (l.foldl op f) := by
  induction l generalizing f with
  | nil => exact .refl f i
  | cons x l ih => exact (h f x).trans (ih (op f x))

theorem Floor.abortRuns_stageEvent (w : Run → Bool) (e : Nat) : Floor.StageEvent i f (f.abortRuns i w e) :=
  (Floor.StageEvent.foldl f i _ _ fun g r => g.abortRun_stageEvent i r e).trans (Floor.settlePath_stageEvent _ i)

theorem Floor.leaveWork_stageEvent (n : RunnerState) (e : Nat) : Floor.StageEvent i f (f.leaveWork i n e) := by
  unfold Floor.leaveWork
  exact .trans (f.abortRuns_stageEvent i _ e) (.modRunner _ i _)

theorem Floor.stopChase_stageEvent : Floor.StageEvent i f (f.stopChase i) := by
  unfold Floor.stopChase
  split
  · exact f.leaveWork_stageEvent i _ _
  · exact .refl f i

theorem Floor.enterHalted_stageEvent (e : Nat) : Floor.StageEvent i f (f.enterHalted i e) := by
  unfold Floor.enterHalted
  dsimp only
  split
  · exact (f.leaveWork_stageEvent i _ _).trans (.modStage _ i _)
  · exact .modStage f i _

theorem Floor.enterHold_stageEvent (h e : Nat) : Floor.StageEvent i f (f.enterHold i h e) := by
  unfold Floor.enterHold
  split
  · exact .refl f i
  · exact .modStage f i _
  · exact .refl f i
  · exact .modStage f i _
  · exact (f.leaveWork_stageEvent i _ _).trans (.modStage _ i _)

theorem Floor.occurrence_stageEvent (c : Condition) : Floor.StageEvent i f (f.occurrence i c) := by
  unfold Floor.occurrence
  dsimp only
  split
  · exact .refl f i
  · have h : Floor.StageEvent i f (if c = .rateMismatch then f.countOccurrence i .rateMismatches else f) := by
      split
      · exact .countOccurrence f i _ _
      · exact .refl f i
    refine h.trans ?_
    generalize (if c = .rateMismatch then f.countOccurrence i .rateMismatches else f) = g
    split
    · exact (Floor.StageEvent.setNotice g i _).trans (Floor.enterHalted_stageEvent _ i _)
    · exact (Floor.StageEvent.setNotice g i _).trans (Floor.enterHold_stageEvent _ i _ _)
    · exact (Floor.StageEvent.setNotice g i _).trans (Floor.enterHold_stageEvent _ i _ _)
    · exact .setNotice g i _
    · exact .refl g i

/-! ## Points -/

theorem Floor.runAtPoint_stageEvent (t : Nat) (r : Run) : Floor.StageEvent i f (f.runAtPoint i t r) := by
  unfold Floor.runAtPoint
  split
  · exact .refl f i
  · split
    · exact f.completeRun_stageEvent i r t
    · exact .modStage f i _

theorem Floor.runsAtPoint_stageEvent (t : Nat) : Floor.StageEvent i f (f.runsAtPoint i t) :=
  (Floor.StageEvent.foldl f i _ _ fun g r => g.runAtPoint_stageEvent i t r).trans (Floor.settlePath_stageEvent _ i)

theorem Floor.packetPoint_stageEvent (t : Nat) : Floor.StageEvent i f (f.packetPoint i t) := by
  unfold Floor.packetPoint
  dsimp only
  split
  · exact .modStage f i _
  · exact .refl f i

theorem Floor.reach_stageEvent (t : Nat) : Floor.StageEvent i f (f.reach i t) := by
  unfold Floor.reach
  dsimp only
  have h : Floor.StageEvent i f (f.place i t) := .trans (.modTracker f i _) (.modRunner _ i _)
  refine h.trans ?_
  generalize f.place i t = g
  split
  · refine (Floor.StageEvent.draws g i (g.draws + 1)).trans ?_
    split
    · exact (Floor.packetPoint_stageEvent _ i t).trans (Floor.runsAtPoint_stageEvent _ i t)
    · exact (Floor.runsAtPoint_stageEvent _ i t).trans (Floor.packetPoint_stageEvent _ i t)
  · exact (Floor.runsAtPoint_stageEvent _ i t).trans (Floor.packetPoint_stageEvent _ i t)

theorem Floor.reachThrough_stageEvent (old n : Nat) : Floor.StageEvent i f (f.reachThrough i old n) := by
  induction n with
  | zero => exact .refl f i
  | succ n ih => exact ih.trans (Floor.reach_stageEvent _ i _)

theorem Floor.forgetFrame_stageEvent : Floor.StageEvent i f (f.forgetFrame i) := by
  unfold Floor.forgetFrame
  exact .modOverlay f i _

theorem Floor.blank_stageEvent : Floor.StageEvent i f (f.blank i) := by
  unfold Floor.blank
  exact .modRunner f i _

theorem Floor.place_stageEvent (p : Nat) : Floor.StageEvent i f (f.place i p) := by
  unfold Floor.place
  exact .trans (.modTracker f i _) (.modRunner _ i _)

/-- A forward move is an event of its stage (R98). -/
theorem Floor.forwardMove_stageEvent (new : Nat) : Floor.StageEvent i f (f.forwardMove i new) := by
  unfold Floor.forwardMove
  dsimp only
  split
  · exact (f.reachThrough_stageEvent i _ _).trans ((Floor.abortRuns_stageEvent _ i _ _).trans
      ((Floor.reach_stageEvent _ i _).trans (Floor.place_stageEvent _ i _)))
  · exact (f.reachThrough_stageEvent i _ _).trans (Floor.place_stageEvent _ i _)

/-! ## Changes of tracker state, boundaries, jumps -/

theorem Floor.trackerChanged_stageEvent : Floor.StageEvent i f (f.trackerChanged i) := by
  unfold Floor.trackerChanged
  dsimp only
  refine (Floor.StageEvent.modRunner f i fun r => { r with lastPosition := (f.tracker i).position }).trans ?_
  split
  · exact .refl _ i
  · split
    · exact Floor.occurrence_stageEvent _ i _
    · exact .refl _ i
  · exact (Floor.StageEvent.modOverlay _ i _).trans (Floor.stopChase_stageEvent _ i)

theorem Floor.armCue_stageEvent (p h : Nat) (c : Cue) : Floor.StageEvent i f (f.armCue i p h c) := by
  unfold Floor.armCue Floor.dropMark
  dsimp only
  refine .trans (.trans (.modRunner f i _) (.modCue _ i h _ ?_)) (.modOverlay _ i _)
  exact fun _ => rfl

theorem armOne_stageEvent (p : Nat) (acc : Floor × Bool) (h : Nat) :
    Floor.StageEvent i acc.1 (armOne i p acc h).1 := by
  unfold armOne
  split
  · exact .refl _ i
  · split
    · split
      · exact Floor.armCue_stageEvent _ i _ _ _
      · exact .refl _ i
    · exact .refl _ i

/-- Arming is an event of its stage (R115 to R117). -/
theorem Floor.arm_stageEvent : Floor.StageEvent i f (f.arm i).1 := by
  unfold Floor.arm
  split
  · exact .refl f i
  · rename_i reel _
    have h : ∀ (l : List Nat) (acc : Floor × Bool),
        Floor.StageEvent i acc.1 (l.foldl (armOne i (f.tracker i).position) acc).1 := by
      intro l
      induction l with
      | nil => exact fun acc => .refl _ i
      | cons x l ih => exact fun acc => (armOne_stageEvent i _ acc x).trans (ih _)
    refine (h reel.order (f, false)).trans ?_
    dsimp only
    split
    · exact (Floor.settlePath_stageEvent _ i).trans (.setNotice _ i _)
    · exact Floor.settlePath_stageEvent _ i

theorem Floor.selectAuto_stageEvent : Floor.StageEvent i f (f.selectAuto i) := by
  unfold Floor.selectAuto
  split
  · exact (Floor.StageEvent.modStage f i _).trans (Floor.stopChase_stageEvent _ i)
  · exact .refl f i

theorem Floor.chaseTest_stageEvent (b : Bool) : Floor.StageEvent i f (f.chaseTest i b) := by
  unfold Floor.chaseTest
  split
  · split
    · exact .modStage f i _
    · exact .refl f i
  · split
    · exact f.stopChase_stageEvent i
    · exact .refl f i

theorem Floor.countBlanking_stageEvent : Floor.StageEvent i f (f.countBlanking i) := by
  unfold Floor.countBlanking
  split
  · exact .modStage f i _
  · exact .refl f i

theorem Floor.countHold_stageEvent : Floor.StageEvent i f (f.countHold i) := by
  unfold Floor.countHold
  split
  · exact .modStage f i _
  · exact .refl f i

theorem Floor.boundaryOccurrences_stageEvent : Floor.StageEvent i f (f.boundaryOccurrences i) := by
  unfold Floor.boundaryOccurrences
  split
  · have h : Floor.StageEvent i f (if f.ratesDisagree i then f.occurrence i .rateMismatch else f) := by
      split
      · exact f.occurrence_stageEvent i _
      · exact .refl f i
    refine h.trans ?_
    dsimp only
    generalize (if f.ratesDisagree i then f.occurrence i .rateMismatch else f) = g
    split
    · exact .refl _ i
    · exact Floor.occurrence_stageEvent _ i _
  · exact .refl f i

theorem Floor.takeCast_stageEvent : Floor.StageEvent i f (f.takeCast i) := by
  unfold Floor.takeCast
  exact .modRunner f i _

theorem Floor.presentBoundary_stageEvent (b : Bool) : Floor.StageEvent i f (f.presentBoundary i b) := by
  unfold Floor.presentBoundary
  exact .modCounters f i _

/-- A boundary is an event of its stage (R107). -/
theorem Floor.boundary_stageEvent : Floor.StageEvent i f (f.boundary i) := by
  unfold Floor.boundary
  dsimp only
  refine .trans ?_ (Floor.boundaryOccurrences_stageEvent _ i)
  refine .trans ?_ (Floor.presentBoundary_stageEvent _ i _)
  refine .trans ?_ (Floor.countHold_stageEvent _ i)
  refine .trans (.trans (.trans (.trans (f.takeCast_stageEvent i) (Floor.selectAuto_stageEvent _ i))
    (Floor.chaseTest_stageEvent _ i ((f.runner i).state == .standby))) (Floor.countBlanking_stageEvent _ i)) ?_
  split
  · exact Floor.arm_stageEvent _ i
  · exact .refl _ i

theorem Floor.runAtJump_stageEvent (p : Nat) (r : Run) : Floor.StageEvent i f (f.runAtJump i p r) := by
  unfold Floor.runAtJump
  dsimp only
  split_ifs
  · exact (Floor.StageEvent.modRunner f i _).trans (.modOverlay _ i _)
  · exact f.abortRun_stageEvent i _ _

/-- A jump is an event of its stage (R127). -/
theorem Floor.jump_stageEvent (p : Nat) : Floor.StageEvent i f (f.jump i p) := by
  unfold Floor.jump
  dsimp only
  have h1 : Floor.StageEvent i f ((f.countOccurrence i .jumps).forgetFrame i) :=
    .trans (.countOccurrence f i i .jumps) (Floor.forgetFrame_stageEvent _ i)
  refine h1.trans ?_
  generalize (f.countOccurrence i .jumps).forgetFrame i = g
  split
  · have h2 : Floor.StageEvent i g ((((((g.runner i).runs.foldl (fun f r => f.runAtJump i p r) g).modRunner i
        fun r => { r with lastPosition := p }).settlePath i).blank i)) :=
      (Floor.StageEvent.foldl g i _ _ fun g r => g.runAtJump_stageEvent i p r).trans
        (.trans (.modRunner _ i _) (.trans (Floor.settlePath_stageEvent _ i) (Floor.blank_stageEvent _ i)))
    split
    · exact h2.trans (Floor.occurrence_stageEvent _ i _)
    · exact h2
  · exact .modStage g i _

/-! ## The tracker -/

theorem Floor.markBoundary_stageEvent (p : Nat) : Floor.StageEvent i f (f.markBoundary i p) := by
  unfold Floor.markBoundary
  split
  · exact (f.forwardMove_stageEvent i p).trans (Floor.boundary_stageEvent _ i)
  · exact (f.place_stageEvent i p).trans (Floor.boundary_stageEvent _ i)

theorem Floor.wordBoundary_stageEvent (a : Nat) : Floor.StageEvent i f (f.wordBoundary i a) :=
  (Floor.StageEvent.modStage f i _).trans (Floor.markBoundary_stageEvent _ i _)

theorem Floor.acceptJump_stageEvent (w : TimecodeWord) : Floor.StageEvent i f (f.acceptJump i w) :=
  (Floor.StageEvent.modStage f i _).trans ((Floor.jump_stageEvent _ i _).trans (Floor.boundary_stageEvent _ i))

theorem Floor.holdCandidate_stageEvent (w : TimecodeWord) (n : Nat) :
    Floor.StageEvent i f (f.holdCandidate i w n) := by
  unfold Floor.holdCandidate
  split
  · exact f.acceptJump_stageEvent i w
  · exact (Floor.StageEvent.modStage f i _).trans (Floor.wordBoundary_stageEvent _ i _)

/-- A change of the tracker, handed on as a change of its state. -/
theorem Floor.changed_stageEvent (g : Tracker → Tracker) : Floor.StageEvent i f ((f.modTracker i g).trackerChanged i) :=
  (Floor.StageEvent.modStage f i _).trans (Floor.trackerChanged_stageEvent _ i)

theorem Floor.lock_stageEvent (w : TimecodeWord) : Floor.StageEvent i f (f.lock i w) :=
  (f.changed_stageEvent i _).trans ((Floor.place_stageEvent _ i _).trans (Floor.boundary_stageEvent _ i))

theorem Floor.wordAcquiring_stageEvent (w : TimecodeWord) : Floor.StageEvent i f (f.wordAcquiring i w) := by
  unfold Floor.wordAcquiring
  dsimp only
  split
  · exact .modStage f i _
  · split
    · split
      · exact (Floor.StageEvent.modStage f i _).trans (Floor.lock_stageEvent _ i w)
      · exact .modStage f i _
    · exact .modStage f i _

theorem Floor.wordLocked_stageEvent (w : TimecodeWord) : Floor.StageEvent i f (f.wordLocked i w) := by
  unfold Floor.wordLocked
  dsimp only
  split
  · exact f.changed_stageEvent i _
  · split
    · have h : Floor.StageEvent i f
          (if (f.tracker i).candidate.isSome then f.countOccurrence i .glitches else f) := by
        split
        · exact .countOccurrence f i _ _
        · exact .refl f i
      exact h.trans ((Floor.StageEvent.modStage _ i _).trans (Floor.wordBoundary_stageEvent _ i _))
    · split
      · split <;> exact f.holdCandidate_stageEvent i w _
      · exact f.holdCandidate_stageEvent i w _

theorem Floor.wordFreewheel_stageEvent (w : TimecodeWord) : Floor.StageEvent i f (f.wordFreewheel i w) := by
  unfold Floor.wordFreewheel
  dsimp only
  split
  · exact (f.changed_stageEvent i _).trans (Floor.markBoundary_stageEvent _ i _)
  · exact f.changed_stageEvent i _

/-- A word at a tracker is an event of its stage (R79 to R93). -/
theorem Floor.trackerWord_stageEvent (w : TimecodeWord) : Floor.StageEvent i f (f.trackerWord i w) := by
  unfold Floor.trackerWord
  dsimp only
  split
  · exact .refl f i
  · split
    · exact .countOccurrence f i _ _
    · exact f.occurrence_stageEvent i _
    · split
      · exact .refl f i
      · exact f.changed_stageEvent i _
      · exact f.wordAcquiring_stageEvent i w
      · exact f.wordLocked_stageEvent i w
      · exact f.wordFreewheel_stageEvent i w

/-! ## Deadlines: an event of the stage at the count it falls due -/

theorem Floor.acquisitionExpires_stageEvent :
    ∃ d, Floor.StageEvent i (f.atCount d) (f.acquisitionExpires i) ∨ f.acquisitionExpires i = f := by
  unfold Floor.acquisitionExpires
  split
  · exact ⟨0, .inr rfl⟩
  · exact ⟨_, .inl (Floor.changed_stageEvent _ i _)⟩

theorem Floor.lockedExpires_stageEvent :
    ∃ d, Floor.StageEvent i (f.atCount d) (f.lockedExpires i) ∨ f.lockedExpires i = f := by
  unfold Floor.lockedExpires
  split
  · exact ⟨0, .inr rfl⟩
  · rename_i d _
    refine ⟨d, .inl ?_⟩
    dsimp only
    split
    · exact Floor.changed_stageEvent _ i _
    · exact (Floor.changed_stageEvent _ i _).trans (Floor.markBoundary_stageEvent _ i _)

theorem Floor.syntheticFallsDue_stageEvent :
    ∃ d, Floor.StageEvent i (f.atCount d) (f.syntheticFallsDue i) ∨ f.syntheticFallsDue i = f := by
  unfold Floor.syntheticFallsDue
  split
  · exact ⟨0, .inr rfl⟩
  · rename_i d _
    refine ⟨d, .inl ?_⟩
    dsimp only
    split
    · exact (Floor.StageEvent.modStage _ i _).trans (Floor.markBoundary_stageEvent _ i _)
    · exact Floor.changed_stageEvent _ i _

theorem Floor.subframeIncreases_stageEvent :
    ∃ d, Floor.StageEvent i (f.atCount d) (f.subframeIncreases i) ∨ f.subframeIncreases i = f := by
  unfold Floor.subframeIncreases
  split
  · exact ⟨0, .inr rfl⟩
  · exact ⟨_, .inl (Floor.forwardMove_stageEvent _ i _)⟩

end Sys2Proof.Machine
end

