-- ==== Sys2Proof/WellFormed.lean ====
section
/-! DEFINITION. Well-formed commands: the checks that a command is the one its row names. `exec` does not need them: it
answers every command, and the checks of values are the owning block's (R196). -/

namespace Sys2Proof

open Machine

/-- The force flag of a retire in either form, where the window is long enough to carry one (R37, R38, R201). -/
def retireForce : Request RetireFields → Option Nat
  | .fields x => some x.force
  | .window bytes => (bytes[3]?).map BitVec.toNat

/-- The digits a word arrival can carry (R76). DEDUCED (log 32): R76 bounds every number by 39, yet minutes and seconds
run to 59 in valid labels (R3) and beyond in malformed words (R79); they are bounded by 79 here. -/
def TimecodeWord.digitsOk (w : TimecodeWord) : Bool :=
  decide (w.hours ≤ 39) && decide (w.minutes ≤ 79) && decide (w.seconds ≤ 79) && decide (w.frames ≤ 39)

/-- Well-formedness: CUE_RETIRE carries the force flag clear and FORCED_RETIRE carries it set (R37, R38), UNKNOWN_REQUEST
a code outside the index (R196), and a word's digits are digits (R76). -/
def Instr.wellFormed : Instr → Bool
  | .cueRetire q => retireForce q != some 1
  | .forcedRetire q => retireForce q == some 1
  | .unknownRequest code _ => !knownCode code
  | .wordArrival _ w => w.digitsOk
  | .cueCreate _ | .cueEdit _ | .cueCreateCompletion | .cueEditCompletion | .cueRetireCompletion | .cueRead _
  | .cueMark _ | .reelOpen _ | .reelSetDefaults _ | .reelSetRate _ | .reelRead _ | .reelClose _ | .cueFind _
  | .cueNext _ | .cueList _ | .charDefine _ | .charRetire _ | .charRead _ | .castAssign _ | .castRelease _
  | .castRead _ | .trackerSet _ | .trackerRead _ | .stageEnable _ | .stageDisable _ | .stageReset _
  | .stageSelectReel _ | .stageSet _ | .stageRead _ | .talkback _ | .pathSet _ | .pathRead _ | .faultClear _
  | .faultSet _ | .faultRead _ | .noticeRead _ | .noticeMask _ | .noticeClear _ | .lineBankSet _ | .lineSet _
  | .lineRead _ | .overlaySet _ | .overlayRead _ | .monConfig _ | .monClear _ | .monFreeze _ | .monSetBands _
  | .monRead _ | .deviceReset _ | .droppedRequest | .fetch _ | .windowFirstByte _ | .pinReset | .resetRelease _ | .subframeAdvance _
  | .acquisitionDeadlineExpiry _ | .lockedDeadlineExpiry _ | .syntheticBoundaryDue _ | .gapExpiry _ | .closureStep
  | .packetEnd _ => true

end Sys2Proof
end

