-- ==== Sys2Proof/Tests/Slice0.lean ====
section
/-! SUPPORT. Tests: the well-formedness checks, the manual's worked values (the comment names the section), one step per
command on small states, and for every statement a witness that meets its hypotheses. -/

namespace Sys2Proof.Tests

open Machine

-- One kernel evaluation at a time: side by side they would each hold a thread and its stack.
set_option Elab.async false

/-! ## Small states -/

/-- Cue 1043A of section 1.8.1. -/
def cueA : CueFields where
  number := 1043
  suffix := some 0x41
  characters := [3, 7]
  inPoint := 5544960
  outPoint := 5550336
  timing := derivedDefaults 24

/-- Reel 12 at rate code 1. -/
def reel12 (state : ReelState) (order : List Nat) : Reel :=
  { state := state, number := 12, rate := .fps24, defaults := derivedDefaults 24, order := order }

/-- Reel 12 in slot 0 with cue 1043A at handle 0; characters 3, 7 and 9 DEFINED, 3 cast on stage 2, podium 0. -/
def desk : State :=
  { State.reset with floor := { Floor.reset with
      cues := [(0, newCue 0 cueA)]
      reels := [(0, reel12 .reelOpened [0])]
      chars := [(3, ⟨[0x41], 1⟩), (7, ⟨[0x42], 1⟩), (9, ⟨[0x43], 0⟩)]
      casts := Floor.reset.casts.set 2 (Podiums.none.set 0 (some 3)) } }

/-- Changes stage 2 of the desk. -/
def deskWith (g : Stage → Stage) : State := { desk with floor := desk.floor.modStage 2 g }

/-- A request window that carries its fields has been assembled. -/
def assembling (s : State) : State := { s with link := { s.link with window := .assembling } }

/-- A tracker LOCKED forward at nominal speed, with a position value. -/
def lockedAt (p : Nat) : Tracker :=
  { Tracker.reset with state := .locked, position := p, lastBoundary := some 1000000, timingRef := some 1000000 }

/-- A runner in a state that has reel 12 selected. -/
def chasing (state : RunnerState) (runs : List Run) : Runner :=
  { Runner.reset with state := state, manualReel := some 12, selected := some 0, recordMode := .record, runs := runs }

/-- Stage 2 locked at p with one run of cue 1043A, its path in a state. -/
def rolling (p : Nat) (punch : Punch) (path : Path) : State :=
  { desk with floor := { desk.floor.modStage 2 fun st => { st with
        tracker := lockedAt p, runner := chasing .chasing [⟨0, .sweep, punch, none, none, none⟩], path := path } with
      now := 1000000, cues := [(0, { newCue 0 cueA with inFlight := 1 })] } }

/-- The state an outcome goes on to; the state before where there is none. -/
def goesTo (r : Host.Outcome State Fault Refusal) : State :=
  match r with
  | .next t => t
  | _ => State.reset

/-- The response an outcome leaves waiting. -/
def responseOf (r : Host.Outcome State Fault Refusal) : Option Response := (goesTo r).link.response

theorem desk_receives : desk.Receives := .inr ⟨rfl, rfl, by decide⟩
theorem reset_receives : State.reset.Receives := .inr ⟨rfl, rfl, by decide⟩

/-! ## Well-formedness -/

theorem test_wf_retire : (Instr.cueRetire (.fields ⟨5, 1⟩)).wellFormed = false := by decide +kernel
theorem test_wf_retireWindow : (Instr.cueRetire (.window [3, 0, 5, 1])).wellFormed = false := by decide +kernel
theorem test_wf_forced : (Instr.forcedRetire (.fields ⟨5, 0⟩)).wellFormed = false := by decide +kernel
theorem test_wf_unknown : (Instr.unknownRequest 0x10 []).wellFormed = false := by decide +kernel
theorem test_wf_hours : (Instr.wordArrival 0 ⟨40, 0, 0, 0, false, .forward, 0⟩).wellFormed = false := by decide +kernel
theorem test_wf_minutes : (Instr.wordArrival 0 ⟨0, 80, 0, 0, false, .forward, 0⟩).wellFormed = false := by decide +kernel
theorem test_wf_seconds : (Instr.wordArrival 0 ⟨0, 0, 80, 0, false, .forward, 0⟩).wellFormed = false := by decide +kernel
theorem test_wf_frames : (Instr.wordArrival 0 ⟨0, 0, 0, 40, false, .forward, 0⟩).wellFormed = false := by decide +kernel
theorem test_wf_good : (Instr.forcedRetire (.window [3, 0, 5, 1])).wellFormed = true := by decide +kernel

/-- No row of the table gives bits, so no word spells a command, and none is put in the queue. -/
theorem test_decodeTableWord : decodeTableWord 8 0x10 = none ∧ State.reset.withFetchWord 8 0x10 = State.reset := ⟨rfl, rfl⟩

/-! ## Labels and timelines (sections 1.2.1 and 1.8) -/

theorem test_drop_label :
    Label.frameIndex .fps2997drop ⟨1, 23, 45, 12⟩ = 150612 ∧ Label.ofFrame .fps2997drop 150612 = ⟨1, 23, 45, 12⟩ := by
  decide +kernel

theorem test_drop_edges :
    Label.ofFrame .fps2997drop 1799 = ⟨0, 0, 59, 29⟩ ∧ Label.ofFrame .fps2997drop 1800 = ⟨0, 1, 0, 2⟩ ∧
    Label.ofFrame .fps2997drop 17981 = ⟨0, 9, 59, 29⟩ ∧ Label.ofFrame .fps2997drop 17982 = ⟨0, 10, 0, 0⟩ ∧
    Label.ofFrame .fps2997drop 2589407 = ⟨23, 59, 59, 29⟩ := by decide +kernel

/-- Section 1.8.1. -/
theorem test_timeline :
    cueA.streamerStart = 5541888 ∧ cueA.beepStart 1 = some 5543424 ∧ cueA.beepStart 3 = some 5540352 ∧
    cueA.firstSound = 5540352 ∧ cueA.armPoint = 5538816 ∧ cueA.punchInPoint = 5544576 ∧
    cueA.preemptionPoint 32 = 5544540 ∧ cueA.punchOutPoint .fps24 = 5551104 ∧ cueA.streamerPosition 5544224 = 778 ∧
    cueA.streamerPosition 5544959 = 1023 := by decide +kernel

/-- Section 1.8.2: the same settings at the start of the day. -/
theorem test_timeline_start :
    let f := { cueA with inPoint := 1536, outPoint := 5376 }
    f.streamerStart = 0 ∧ f.beepStart 1 = some 0 ∧ f.beepStart 2 = none ∧ f.firstSound = 0 ∧ f.armPoint = 0 ∧
    f.punchInPoint = 1152 ∧ f.preemptionPoint 32 = 1116 ∧ f.punchOutPoint .fps24 = 6144 ∧
    f.streamerPosition 768 = 512 := by decide +kernel

/-- Section 2.10.1: the fitting of lead 300, beep spacing 4 and beep length 9 over the defaults of base 25 (log 16). -/
theorem test_fitting :
    (askedTiming ⟨some 300, none, some 4, some 9, none, none, none⟩ (derivedDefaults 25)).fitted =
      ⟨240, 3, 6, 5, 25, 6, 12⟩ := by decide +kernel

/-! ## The cue store -/

/-- A creation whose 7,500-frame span is clamped to 7,200 frames (section 2.10.1, at rate code 1 here). -/
theorem test_cueCreate :
    (goesTo (exec (.cueCreate (.fields ⟨12, 88, 0, [9, 7], ⟨0, 10, 0, 0, 0⟩, ⟨0, 15, 12, 12, 0⟩,
      ⟨none, none, none, none, none, none, none⟩⟩)) desk)).operation =
    some (.create 0 ⟨88, none, [9, 7], 921600, 921600 + 460800, derivedDefaults 24⟩ .clamped) := by decide +kernel

/-- The same window as bytes: presence field, reel, number, suffix, characters, in, out (R201, R202). -/
theorem test_cueCreate_window :
    (readRequest (some 7) parseCueCreate
      (.window [19, 0, 0x01, 12, 0, 88, 0x41, 1, 9, 0, 10, 0, 0, 0, 0, 12, 0, 0, 0, 240])).toOption =
      some ⟨12, 88, 0x41, [9], ⟨0, 10, 0, 0, 0⟩, ⟨0, 12, 0, 0, 0⟩, ⟨some 240, none, none, none, none, none, none⟩⟩ ∧
    refusal (readRequest (some 7) parseCueCreate (.window [2, 0, 0x80])) = some .badRequest ∧
    refusal (readRequest (some 7) parseCueCreate (.window [3, 0, 0x01])) = some .badLength := by decide +kernel

theorem test_cueCreateCompletion :
    let t := goesTo (exec .cueCreateCompletion { desk with operation := some (.create 0 { cueA with number := 9 } .ok) })
    t.link.response = some ⟨.ok, 0x10, [0, 1]⟩ ∧ (t.floor.reel 0).map Reel.order = some [1, 0] ∧
    (t.floor.character 3).map Character.useCount = some 2 := by decide +kernel

theorem test_cueEdit :
    let t := goesTo (exec (.cueEdit (.fields ⟨0, none, some 0, none, none, none, ⟨none, none, none, none, none, none, none⟩⟩)) desk)
    t.operation = some (.edit 0 { cueA with suffix := none } .ok) ∧ (t.floor.cue 0).map Cue.lock = some .editing ∧
    t.link.state = .busy := by decide +kernel

/-- R56 and section 3.7.1: an edited in-point moves the cue to the head of the order list. -/
theorem test_cueEditCompletion :
    let f : CueFields := { cueA with number := 100 }
    let s : State := { desk with
      floor := { desk.floor with cues := [(0, newCue 0 f), (1, newCue 0 cueA)], reels := [(0, reel12 .reelOpened [0, 1])] }
      operation := some (.edit 1 { cueA with inPoint := 64 } .ok) }
    (((goesTo (exec .cueEditCompletion s)).floor.reel 0).map Reel.order) = some [1, 0] := by decide +kernel

theorem test_cueRetire_inFlight :
    responseOf (exec (.cueRetire (.fields ⟨0, 0⟩)) (rolling 5544000 .punched Path.reset)) =
      some ⟨.cueInFlight, 0x12, []⟩ := by decide +kernel

/-- R38 and section 2.10.2: the punched run is aborted with a take at the tracker position. -/
theorem test_forcedRetire :
    let t := goesTo (exec (.forcedRetire (.fields ⟨0, 1⟩)) (rolling 5545000 .punched { Path.reset with state := .record, demand := true }))
    (t.floor.cue 0).map (fun c => (c.inFlight, c.takeCount, c.lock)) = some (0, 1, .retiring) ∧
    (t.floor.runner 2).runs = [] ∧ (t.floor.runner 2).state = .chasing ∧ (t.floor.path 2).state = .gap := by decide +kernel

theorem test_cueRetireCompletion :
    let t := goesTo (exec .cueRetireCompletion { desk with operation := some (.retire 0 .ok) })
    t.floor.cues = [] ∧ (t.floor.reel 0).map Reel.order = some [] ∧
    (t.floor.character 7).map Character.useCount = some 0 := by decide +kernel

/-- R43 and R201: the first bytes of the payload, and an absent last take. -/
theorem test_cueRead :
    (responseOf (exec (.cueRead (.fields 0)) desk)).map Response.payload =
      some ([0, 0, 12, 4, 19, 65, 2, 3, 7, 1, 0, 10, 0, 0, 1, 0, 13, 12, 0, 48, 3, 24, 2, 24, 6, 12, 0, 0, 0, 0] ++
        List.replicate 12 0xFF ++ [0, 0]) := by decide +kernel

theorem test_cueMark :
    ((goesTo (exec (.cueMark (.fields ⟨0, some 1, some 2⟩)) desk)).floor.cue 0).map (fun c => (c.enable, c.approval)) =
      some (.muted, .printed) := by decide +kernel

/-! ## Reels -/

/-- R48 at base 25. -/
theorem test_reelOpen :
    responseOf (exec (.reelOpen (.fields ⟨3, 2⟩)) desk) = some ⟨.ok, 0x20, [50, 3, 25, 2, 25, 6, 12]⟩ ∧
    responseOf (exec (.reelOpen (.fields ⟨12, 2⟩)) desk) = some ⟨.duplicateLabel, 0x20, []⟩ := by decide +kernel

theorem test_reelSetDefaults :
    responseOf (exec (.reelSetDefaults (.fields ⟨12, ⟨some 10, none, none, none, none, some 48, none⟩⟩)) desk) =
      some ⟨.clamped, 0x21, [12, 3, 24, 2, 24, 12, 12]⟩ := by decide +kernel

theorem test_reelSetRate : responseOf (exec (.reelSetRate (.fields ⟨12, 2⟩)) desk) = some ⟨.reelNotEmpty, 0x22, []⟩ := by
  decide +kernel

theorem test_reelRead :
    responseOf (exec (.reelRead (.fields 12)) desk) = some ⟨.ok, 0x23, [12, 1, 48, 3, 24, 2, 24, 6, 12, 1]⟩ := by decide +kernel

/-- R58, R59: the chasing stage aborts its run and keeps the selection until the closure completes. -/
theorem test_reelClose :
    let t := goesTo (exec (.reelClose (.fields 12)) (rolling 5545000 .unpunched Path.reset))
    t.closure = some 0 ∧ (t.floor.runner 2).state = .standby ∧ (t.floor.runner 2).runs = [] ∧
    (t.floor.runner 2).selected = some 0 ∧ t.link.response = some ⟨.accepted, 0x24, []⟩ := by decide +kernel

/-- R60, R61: the last closure step completes the closure. -/
theorem test_closureStep :
    let s := { deskWith fun st => { st with runner := chasing .standby [] } with closure := some 0 }
    let t := goesTo (exec .closureStep s)
    t.floor.cues = [] ∧ t.floor.reels = [] ∧ t.closure = none ∧ (t.floor.runner 2).selected = none ∧
    t.floor.noticeSet .reelClosed = true := by decide +kernel

theorem test_cueFind :
    responseOf (exec (.cueFind (.fields ⟨12, 1043, 0x41⟩)) desk) = some ⟨.ok, 0x25, [0, 0, 0, 0]⟩ ∧
    responseOf (exec (.cueFind (.fields ⟨12, 1043, 0⟩)) desk) = some ⟨.ok, 0x25, [255, 255, 255, 255]⟩ := by decide +kernel

/-- Section 3.7.1: a position one subframe past the last in-point finds nothing. -/
theorem test_cueNext :
    responseOf (exec (.cueNext (.fields ⟨12, ⟨1, 0, 10, 0, 0⟩⟩)) desk) =
      some ⟨.ok, 0x26, [0, 0, 0, 0, 1, 0, 10, 0, 0]⟩ ∧
    responseOf (exec (.cueNext (.fields ⟨12, ⟨1, 0, 10, 0, 1⟩⟩)) desk) = some ⟨.ok, 0x26, List.replicate 9 0xFF⟩ := by
  decide +kernel

theorem test_cueList :
    responseOf (exec (.cueList (.fields ⟨12, 0, 32⟩)) desk) = some ⟨.ok, 0x27, [1, 0, 0, 1, 0, 0]⟩ ∧
    responseOf (exec (.cueList (.fields ⟨12, 1, 32⟩)) desk) = some ⟨.ok, 0x27, [1, 0, 1, 0]⟩ := by decide +kernel

/-! ## Characters and casts (section 4.5) -/

theorem test_charDefine :
    responseOf (exec (.charDefine (.fields ⟨5, [0x41, 0x2D, 0x39]⟩)) desk) = some ⟨.ok, 0x30, [0]⟩ ∧
    responseOf (exec (.charDefine (.fields ⟨5, [0x61]⟩)) desk) = some ⟨.badRequest, 0x30, []⟩ := by decide +kernel

theorem test_charRetire :
    responseOf (exec (.charRetire (.fields 9)) desk) = some ⟨.ok, 0x31, []⟩ ∧
    responseOf (exec (.charRetire (.fields 3)) desk) = some ⟨.characterInUse, 0x31, []⟩ := by decide +kernel

theorem test_charRead :
    responseOf (exec (.charRead (.fields 3)) desk) = some ⟨.ok, 0x32, [1, 1, 0x41, 1, 2, 0]⟩ ∧
    responseOf (exec (.charRead (.fields 5)) desk) = some ⟨.ok, 0x32, [0]⟩ := by decide +kernel

/-- Section 4.5, steps 1 to 3. -/
theorem test_castAssign :
    responseOf (exec (.castAssign (.fields ⟨3, 1, 1, 0⟩)) desk) = some ⟨.castConflict, 0x33, []⟩ ∧
    responseOf (exec (.castAssign (.fields ⟨9, 2, 0, 1⟩)) desk) = some ⟨.podiumTaken, 0x33, []⟩ := by decide +kernel

theorem test_castAssign_move :
    let t := goesTo (exec (.castAssign (.fields ⟨3, 1, 1, 1⟩)) desk)
    t.link.response = some ⟨.ok, 0x33, [2, 0]⟩ ∧ t.floor.castPlace 3 = some (1, 1) := by decide +kernel

theorem test_castRelease :
    responseOf (exec (.castRelease (.fields 3)) desk) = some ⟨.ok, 0x34, [2, 0]⟩ ∧
    responseOf (exec (.castRelease (.fields 9)) desk) = some ⟨.ok, 0x34, [255, 255]⟩ := by decide +kernel

theorem test_castRead :
    responseOf (exec (.castRead (.fields 2)) desk) = some ⟨.ok, 0x35, [3, 1, 0x41, 255, 255, 255, 255, 255, 1]⟩ := by decide +kernel

/-! ## Trackers (chapter 5) -/

/-- R94 to R97, R91: section 5.9.1. -/
theorem test_periods :
    updateE8 8000000 1000800 = 8000800 ∧ speedOf 1000000 1000800 = 9992 ∧ firstStepSubframe 1000800 = 16 ∧
    clampPeriod .fps24 3000000 = 2000000 ∧ clampPeriod .fps24 1 = 500000 := by decide +kernel

/-- R79: the classes of words. -/
theorem test_classify :
    classify .fps25 ⟨0, 0, 0, 30, false, .forward, 0⟩ = .malformed ∧
    classify .fps25 ⟨0, 0, 0, 27, false, .forward, 0⟩ = .rateMismatch ∧
    classify .fps2997 ⟨0, 1, 0, 2, true, .forward, 0⟩ = .rateMismatch ∧
    classify .fps2997drop ⟨0, 1, 0, 1, true, .forward, 0⟩ = .malformed ∧
    classify .fps24 ⟨0, 0, 0, 23, false, .reverse, 0⟩ = .valid := by decide +kernel

theorem test_trackerSet :
    responseOf (exec (.trackerSet (.fields ⟨2, some 1, none, some 1, some 9, some 61⟩)) desk) =
      some ⟨.clamped, 0x40, [1, 1, 2, 8, 60]⟩ := by decide +kernel

theorem test_trackerRead :
    responseOf (exec (.trackerRead (.fields 0)) desk) =
      some ⟨.ok, 0x41, [0, 1, 4, 2, 8, 0, 255, 0, 0, 0, 0, 0, 0, 15, 66, 64, 39, 16, 1, 255, 255, 255, 255, 255, 255, 0]⟩ := by
  decide +kernel

/-- Section 5.9.1: the fourth word locks with the position one frame after its label, and the speed 9,992. -/
theorem test_wordArrival_locks :
    let s := deskWith fun st => { st with
      runner := { Runner.reset with state := .standby }
      tracker := { Tracker.reset with
        state := .acquiring, acquisition := some ⟨3, ⟨1, 0, 5, 2⟩, .forward, 52001600⟩, timingRef := some 52001600,
        e8 := 8006400 } }
    let t := (goesTo (exec (.wordArrival 2 ⟨1, 0, 5, 3, false, .forward, 53002400⟩) s)).floor.tracker 2
    t.state = .locked ∧ t.position = 86524 * 64 ∧ t.speed = 9992 ∧ t.e8 = 8006400 := by decide +kernel

/-- Section 5.9.1: the first freewheel step is back-dated, to subframe 16. -/
theorem test_lockedDeadlineExpiry :
    let s := deskWith fun st => { st with tracker := { lockedAt (86525 * 64 + 63) with
      e8 := 8006400, lastBoundary := some 54003200 }, runner := { Runner.reset with state := .standby } }
    let t := (goesTo (exec (.lockedDeadlineExpiry 2) s)).floor
    t.now = 55254200 ∧ (t.tracker 2).state = .freewheel ∧ (t.tracker 2).position = 86526 * 64 + 16 ∧
    (t.tracker 2).lastBoundary = some 55004000 := by decide +kernel

/-- Section 5.9.1: the code stop at the count of the limit, the position frozen. -/
theorem test_syntheticBoundaryDue :
    let s := deskWith fun st => { st with tracker := { lockedAt (86533 * 64 + 63) with
      state := .freewheel, synthetic := 8, e8 := 8006400, lastBoundary := some 62009600 }
                                          runner := { Runner.reset with state := .standby } }
    let t := (goesTo (exec (.syntheticBoundaryDue 2) s)).floor
    t.now = 63010400 ∧ (t.tracker 2).state = .searching ∧ (t.tracker 2).position = 86533 * 64 + 63 := by decide +kernel

theorem test_acquisitionDeadlineExpiry :
    let s := deskWith fun st => { st with tracker := { Tracker.reset with
      state := .acquiring, acquisition := some ⟨1, ⟨1, 0, 5, 2⟩, .forward, 1000⟩ } }
    let t := (goesTo (exec (.acquisitionDeadlineExpiry 2) s)).floor
    t.now = 2001000 ∧ (t.tracker 2).state = .searching := by decide +kernel

/-- Section 7.9.1: the punch-in at 01:00:09:18, with no gap running, is granted at once. -/
theorem test_subframeAdvance :
    let s := rolling (5544576 - 2) .unpunched { Path.reset with state := .protected_, demand := true }
    ((goesTo (exec (.subframeAdvance 2) s)).floor.tracker 2).position = 5544575 ∧
    ((goesTo (exec (.subframeAdvance 2) s)).floor.runner 2).runs = [⟨0, .sweep, .unpunched, none, none, none⟩] := by decide +kernel

/-! ## Stages -/

theorem test_stageEnable :
    let t := goesTo (exec (.stageEnable (.fields 2)) desk)
    (t.floor.runner 2).state = .standby ∧ (t.floor.tracker 2).state = .searching := by decide +kernel

theorem test_stageDisable :
    let t := goesTo (exec (.stageDisable (.fields 2)) (rolling 5545000 .punched { Path.reset with state := .record, demand := true }))
    (t.floor.runner 2).state = .offline ∧ (t.floor.path 2).state = .free ∧ (t.floor.path 2).gapExpiry = none ∧
    (t.floor.tracker 2).position = 5545000 := by decide +kernel

theorem test_stageReset :
    let t := goesTo (exec (.stageReset (.fields 2)) (rolling 5545000 .punched { Path.reset with state := .record, demand := true }))
    (t.floor.tracker 2).position = 0 ∧ (t.floor.runner 2).manualReel = some 12 := by decide +kernel

theorem test_stageSelectReel :
    let t := goesTo (exec (.stageSelectReel (.fields ⟨2, 2, 0⟩)) (rolling 5545000 .unpunched Path.reset))
    (t.floor.runner 2).mode = .auto ∧ (t.floor.runner 2).state = .standby ∧ (t.floor.runner 2).selected = none := by decide +kernel

theorem test_stageSet :
    responseOf (exec (.stageSet (.fields ⟨2, some 1, some 1, some 31⟩)) desk) = some ⟨.clamped, 0x54, [1, 1, 30]⟩ := by decide +kernel

theorem test_stageRead :
    (responseOf (exec (.stageRead (.fields 2)) (rolling 5545000 .waiting Path.reset))).map Response.payload =
      some [2, 0, 12, 12, 1, 0, 6, 0, 0, 0, 1, 0, 1, 0, 0, 2, 2, 2, 2, 2, 2, 1, 0, 0, 4, 19, 65, 1, 1,
        255, 255, 255, 255, 255] := by decide +kernel

/-! ## The audio path interlock (sections 7.2 and 7.9) -/

theorem test_talkback :
    responseOf (exec (.talkback (.fields ⟨2, 1⟩)) desk) = some ⟨.ok, 0x58, [1, 1, 0]⟩ := by decide +kernel

/-- R133: G = 255 at rate code 1 is 3,984,375 counts, which one byte does not hold (log 14); G = 32 is 500,000. -/
theorem test_pathSet :
    (responseOf (exec (.pathSet (.fields ⟨2, 256⟩)) desk)).map (fun r => (r.status, r.payload.length, r.payload[0]?)) =
      some (.clamped, 2, some 255) ∧
    (goesTo (exec (.pathSet (.fields ⟨2, 256⟩)) desk)).floor.gapLength 2 = 3984375 ∧
    desk.floor.gapLength 2 = 500000 := by decide +kernel

theorem test_pathRead :
    responseOf (exec (.pathRead (.fields 2)) desk) = some ⟨.ok, 0x5A, [0, 0, 0, 0, 0, 0, 255, 255, 255, 255, 32]⟩ := by
  decide +kernel

/-- Section 7.9.2: a claim that waited is granted late, at the present position. -/
theorem test_gapExpiry :
    let s := rolling (5544576 + 56) .waiting { Path.reset with state := .protected_, demand := true, gapExpiry := some 2000000 }
    let t := (goesTo (exec (.gapExpiry 2) s)).floor
    (t.path 2).state = .record ∧ (t.runner 2).runs = [⟨0, .sweep, .punched, some (5544576 + 56), none, some 2000000⟩] ∧
    t.noticeSet (.ofStage 2 .latePunch) = true := by decide +kernel

/-! ## Faults and notices -/

theorem test_faultClear :
    responseOf (exec (.faultClear (.fields 2)) (deskWith fun st => { st with runner := chasing .halted [] })) =
      some ⟨.ok, 0x60, [5]⟩ ∧
    responseOf (exec (.faultClear (.fields 2)) desk) = some ⟨.stageState, 0x60, []⟩ := by decide +kernel

theorem test_faultSet :
    responseOf (exec (.faultSet (.fields ⟨2, some 0, none, none, some 4⟩)) desk) = some ⟨.ok, 0x61, [0, 2, 0, 4]⟩ := by
  decide +kernel

theorem test_faultRead :
    responseOf (exec (.faultRead (.fields 2)) desk) = some ⟨.ok, 0x62, [3, 2, 0, 3, 0, 0]⟩ := by decide +kernel

theorem test_noticeRead :
    (responseOf (exec (.noticeRead (.fields ())) { desk with floor := desk.floor.setNotice .linkDropped })).map
      (fun r => (r.payload.length, r.payload[24]?, r.payload[52]?)) = some (53, some 1, some 1) := by decide +kernel

theorem test_noticeMask :
    (goesTo (exec (.noticeMask (.fields ⟨[⟨15, 6⟩], 0⟩)) { desk with floor := desk.floor.setNotice .linkDropped })).floor.attention =
      false := by decide +kernel

theorem test_noticeClear :
    (goesTo (exec (.noticeClear (.fields [⟨15, 6⟩])) { desk with floor := desk.floor.setNotice .linkDropped })).floor.noticeSet
      .linkDropped = false ∧
    responseOf (exec (.noticeClear (.fields [⟨2, 6⟩])) desk) = some ⟨.badRequest, 0x65, []⟩ := by decide +kernel

/-! ## Lines and overlay feed (section 9.9) -/

theorem test_lineBankSet :
    responseOf (exec (.lineBankSet (.fields ⟨3, 1, 2⟩)) desk) = some ⟨.ok, 0x70, [1, 2, 0, 0, 0, 0, 0, 0]⟩ := by decide +kernel

/-- Section 9.9.2: a bicolour source on an even line of a ROUTED bank pairs it; an odd line is refused. -/
theorem test_lineSet :
    responseOf (exec (.lineSet (.fields ⟨8, some ⟨11, 2, 1⟩, none, none⟩)) { desk with banks := strapBanks 2 }) =
      some ⟨.ok, 0x71, [11, 2, 1, 1, 0, 0, 0, 2]⟩ ∧
    responseOf (exec (.lineSet (.fields ⟨9, some ⟨11, 2, 1⟩, none, none⟩)) desk) = some ⟨.badRequest, 0x71, []⟩ ∧
    responseOf (exec (.lineSet (.window [5, 0, 1, 8, 20, 3])) desk) = some ⟨.badRequest, 0x71, []⟩ := by decide +kernel

theorem test_lineRead :
    (responseOf (exec (.lineRead (.fields ())) desk)).map (fun r => (r.payload.length, r.payload.take 9)) =
      some (153, [0, 0, 0, 0, 1, 0, 2, 0, 3]) := by decide +kernel

theorem test_overlaySet :
    responseOf (exec (.overlaySet (.fields ⟨2, 64⟩)) desk) = some ⟨.clamped, 0x73, [63]⟩ := by decide +kernel

theorem test_overlayRead :
    responseOf (exec (.overlayRead (.fields 2)) desk) = some ⟨.ok, 0x74, [32, 0, 0, 255, 255, 255, 255, 0]⟩ := by decide +kernel

/-- Section 9.9.1: the packet of 01:00:09:12 carries 1043A in SWEEP with x 778, and its bytes sum to 0. -/
theorem test_packet :
    ((rolling (86628 * 64 + 32) .unpunched Path.reset).floor.composePacket 2 86628).bytes.take 21 =
      [0xC7, 21, 2, 1, 1, 0, 9, 12, 39, 16, 2, 1, 4, 19, 65, 1, 0, 3, 10, 2, 3] := by decide +kernel

/-- R177: the pending packet follows at once, 120 counts a byte after the start of the one in progress. -/
theorem test_packetEnd :
    let s := deskWith fun st => { st with overlay := { st.overlay with
      inProgress := some ⟨[0xC7, 1, 0xFF], 5000⟩, waiting := some ⟨[0xC7], [4]⟩ } }
    let o := (goesTo (exec (.packetEnd 2) s)).floor.overlay 2
    o.inProgress = some ⟨[0xC7], 5360⟩ ∧ o.waiting = none ∧ o.flashMarks = [4] := by decide +kernel

/-! ## Monitor -/

theorem test_monConfig :
    responseOf (exec (.monConfig (.fields ⟨7, 1, 2, 5, 0, 4, 9, 0, 1⟩)) desk) =
      some ⟨.clamped, 0x78, [1, 2, 5, 0, 4, 8, 0, 1, 0, 0, 0, 0]⟩ := by decide +kernel

theorem test_monClear :
    responseOf (exec (.monClear (.fields [0, 0])) desk) = some ⟨.badRequest, 0x79, []⟩ ∧
    responseOf (exec (.monClear (.fields [7])) desk) = some ⟨.ok, 0x79, List.replicate 32 0⟩ := by decide +kernel

theorem test_monFreeze : (goesTo (exec (.monFreeze (.fields 0)) desk)).floor.monitor.frozen = true := by decide +kernel

theorem test_monSetBands :
    responseOf (exec (.monSetBands (.fields [(0, 20002)])) desk) =
      some ⟨.clamped, 0x7B, bytes2 20001 ++ bytes2 9990 ++ bytes2 10010 ++ bytes2 10500⟩ := by decide +kernel

theorem test_monRead :
    (responseOf (exec (.monRead (.fields ())) desk)).map (fun r => r.payload.length) = some 105 := by decide +kernel

/-! ## The link port (section 11.7) -/

theorem test_deviceReset : (goesTo (exec (.deviceReset (.fields ())) desk)).floor.cues = [] := by decide +kernel

theorem test_unknownRequest : responseOf (exec (.unknownRequest 0x01 [9, 9]) desk) = some ⟨.badRequest, 0x01, []⟩ := by decide +kernel

theorem test_droppedRequest :
    (goesTo (exec .droppedRequest { desk with link := { desk.link with state := .busy } })).floor.noticeSet .linkDropped =
      true := by decide +kernel

/-- A fetch ended after the status byte leaves the response; one of all its bytes empties the slot. -/
theorem test_fetch :
    let s : State := { desk with link := { desk.link with state := .ready, response := some ⟨.ok, 0x11, []⟩ } }
    (goesTo (exec (.fetch ⟨1, false⟩) s)).link.state = .ready ∧ (goesTo (exec (.fetch ⟨1, false⟩) s)).link.fetched = [0xFF, 0] ∧
    (goesTo (exec (.fetch ⟨3, false⟩) s)).link.state = .empty ∧ goesTo (exec (.fetch ⟨3, true⟩) s) = s := by decide +kernel

theorem test_windowFirstByte :
    let s : State := { desk with link := { desk.link with state := .ready, response := some ⟨.ok, 0x11, []⟩ } }
    (goesTo (exec (.windowFirstByte ⟨0x58, false⟩) s)).rdy = false ∧ (goesTo (exec (.windowFirstByte ⟨0x58, true⟩) s)).rdy = true ∧
    (goesTo (exec (.windowFirstByte ⟨0, false⟩) s)).misoByte 1 = some 0 := by decide +kernel

/-- R196: a payload that marks an absent field wins over its length; the length field over the layout. -/
theorem test_windowCommand :
    windowCommand [0x14, 2, 0, 0x04] = some (.cueMark (.window [2, 0, 0x04])) ∧
    responseOf (exec (.cueMark (.window [9, 0, 0x04])) desk) = some ⟨.badRequest, 0x14, []⟩ ∧
    responseOf (exec (.cueMark (.window [9, 0, 0x03])) desk) = some ⟨.badLength, 0x14, []⟩ := by decide +kernel

theorem test_pinReset : (goesTo (exec .pinReset desk)).electricalLevel 0 = .released := by decide +kernel

/-- R161: strap level 1 makes two banks DEDICATED. -/
theorem test_resetRelease :
    (goesTo (exec (.resetRelease 1) { State.reset with resetHeld := true })).banks =
      #v[⟨.dedicated, 0⟩, ⟨.dedicated, 1⟩, ⟨.routed, 2⟩, ⟨.routed, 3⟩] := by decide +kernel

/-! ## Witnesses: for each statement, states and operands that meet its hypotheses -/

/-- The link BUSY. -/
def busy (s : State) : State := { s with link := { s.link with state := .busy } }

/-- RESET_N low. -/
def held (s : State) : State := { s with resetHeld := true }

/-- Reset with a command in front. -/
def front (c : Instr) : State := State.reset.withCommand c

theorem witness_idle :
    State.reset.pending = [] ∧ State.reset.floor.due = [] ∧
    (deskWith fun st => { st with path := { st.path with state := .gap, gapExpiry := some 0 } }).floor.due =
      [.gapExpiry 2] := by decide +kernel

/-- A timed event of each kind at its count: 2 x N after the arrival, 5 x E / 4 and E after the boundary, the first subframe
at ceil(E / 64), a packet of 3 bytes. -/
theorem witness_timed :
    let f := fun t : Tracker => (deskWith fun st => { st with tracker := t }).floor.timed
    (2000007, Instr.acquisitionDeadlineExpiry 2) ∈
      f { Tracker.reset with state := .acquiring, acquisition := some ⟨1, ⟨0, 0, 0, 0⟩, .forward, 7⟩ } ∧
    (2250000, Instr.lockedDeadlineExpiry 2) ∈ f (lockedAt 0) ∧ (1015625, Instr.subframeAdvance 2) ∈ f (lockedAt 0) ∧
    (2000000, Instr.syntheticBoundaryDue 2) ∈ f { lockedAt 63 with state := .freewheel } ∧
    (5360, Instr.packetEnd 2) ∈ (deskWith fun st => { st with
      overlay := { st.overlay with inProgress := some ⟨[0xC7, 1, 0xFF], 5000⟩ } }).floor.timed := by decide +kernel

/-- Seven of the invariants hold at reset with a command in front, and a step from there answers a next state. -/
theorem witness_kept :
    ∃ t, step (front (.stageEnable (.fields 0))) = .next t ∧ (front (.stageEnable (.fields 0))).LinkAgrees ∧
      (front (.stageEnable (.fields 0))).HeldAtReset ∧
      (∀ i, ((front (.stageEnable (.fields 0))).floor.stage i).Agrees) ∧
      (∀ i, ((front (.stageEnable (.fields 0))).floor.stage i).PathTable) ∧
      (front (.stageEnable (.fields 0))).floor.CountersBounded ∧
      (front (.stageEnable (.fields 0))).StoresCanonical ∧ (front (.stageEnable (.fields 0))).floor.CastMap := by
  refine ⟨_, rfl, ⟨by decide, by decide, by decide⟩, fun h => Bool.noConfusion h, fun i => ?_, fun i => ?_, fun k => ?_, ?_, ?_⟩
  · constructor <;> revert i <;> decide
  · constructor <;> revert i <;> decide
  · revert k; decide +kernel
  · refine ⟨by decide, by decide, by decide, by decide, fun _ _ _ h => nomatch h⟩
  · have h : ∀ (i : Fin 4) (k : Fin 6), (front (.stageEnable (.fields 0))).floor.casts[i][k] = none := by decide +kernel
    exact ⟨fun i j k l id hi _ => absurd ((h i k).symm.trans hi) nofun,
      fun i k id hi => absurd ((h i k).symm.trans hi) nofun⟩

/-- The two invariants of a path hold where a run waits in PROTECTED with a gap, and where one is PUNCHED in RECORD. -/
theorem witness_claims :
    let waits := rolling 5544600 .waiting { Path.reset with state := .protected_, demand := true, gapExpiry := some 2000000 }
    let records := rolling 5544600 .punched { Path.reset with state := .record, demand := true }
    (∃ t, step (waits.withCommand (.gapExpiry 2)) = .next t) ∧
    (∀ i, (waits.floor.stage i).PathTable ∧ (waits.floor.stage i).ClaimsStand) ∧
    (∀ i, (records.floor.stage i).PathTable ∧ (records.floor.stage i).ClaimsStand) := by
  refine ⟨⟨_, rfl⟩, fun i => ⟨?_, ?_⟩, fun i => ⟨?_, ?_⟩⟩
  · constructor <;> revert i <;> decide +kernel
  · revert i; unfold Stage.ClaimsStand; decide +kernel
  · constructor <;> revert i <;> decide +kernel
  · revert i; unfold Stage.ClaimsStand; decide +kernel

/-- A store with one entry holds that entry and nothing else. -/
theorem find_one {α : Type} {k h : Nat} {v d : α} (e : Table.find h [(k, v)] = some d) : h = k ∧ d = v := by
  unfold Table.find at e
  split at e
  · next h' => exact ⟨h'.symm, (Option.some.inj e).symm⟩
  · exact nomatch e

theorem cueA_stored (chars : List (Nat × Character)) (h : ∀ id ∈ cueA.characters, (Table.find id chars).isSome = true) :
    cueA.Stored .fps24 chars :=
  { number := by decide, suffix := fun c e => by cases e; decide, listed := by decide, defined := h,
    span := by decide, timing := by constructor <;> decide }

/-- The rules of the stores hold where a stage chases with a run of cue 1043A in progress, and a step answers from there. -/
theorem witness_storeRules :
    let s := (rolling 5545000 .unpunched Path.reset).withCommand (.subframeAdvance 2)
    (∃ t, step s = .next t) ∧ s.LinkAgrees ∧ s.StoresCanonical ∧ (∀ i, (s.floor.stage i).Agrees) ∧ s.StoreRules := by
  refine ⟨⟨_, rfl⟩, ⟨by decide, by decide, by decide⟩, ⟨by decide, by decide, by decide, by decide, fun _ _ _ h => nomatch h⟩,
    fun i => ?_, ?_⟩
  · constructor <;> revert i <;> decide +kernel
  · have used : ∀ id ∈ cueA.characters, (Table.find id desk.floor.chars).isSome = true := by decide +kernel
    have runs : ∀ i : Fin 4, ((rolling 5545000 .unpunched Path.reset).floor.runner i).runs =
        if i = 2 then [⟨0, .sweep, .unpunched, none, none, none⟩] else [] := by decide +kernel
    refine ⟨fun h c e => ?_, fun h k c d e1 e2 _ _ _ => ?_, fun slot reel e h => ?_, fun slot reel e => ?_,
      fun slot reel e => ?_, fun id ch e => ?_, fun i => ?_, fun h c e => ?_, fun h c e => ?_,
      nofun, nofun, nofun, nofun⟩
    · obtain ⟨rfl, rfl⟩ := find_one e
      exact ⟨_, rfl, cueA_stored _ used⟩
    · exact (find_one e1).1.trans (find_one e2).1.symm
    · obtain ⟨rfl, rfl⟩ := find_one e
      refine ⟨fun m => ?_, fun ⟨c, hc, _⟩ => ?_⟩
      · obtain rfl := List.mem_singleton.mp m
        exact ⟨_, rfl, rfl⟩
      · exact List.mem_singleton.mpr (find_one hc).1
    · obtain ⟨rfl, rfl⟩ := find_one e
      exact List.pairwise_singleton _ _
    · obtain ⟨rfl, rfl⟩ := find_one e
      exact ⟨by decide, by constructor <;> decide⟩
    · have h : ∀ e ∈ desk.floor.chars, e.2.useCount = (rolling 5545000 .unpunched Path.reset).floor.cuesListing e.1 := by
        decide +kernel
      have m : ∀ (l : List (Nat × Character)), Table.find id l = some ch → (id, ch) ∈ l := fun l => by
        induction l with
        | nil => nofun
        | cons a l ih =>
          intro hl
          unfold Table.find at hl
          split at hl
          · next h' => cases hl; subst h'; exact List.mem_cons_self
          · exact List.mem_cons_of_mem _ (ih hl)
      exact h _ (m _ e)
    · show (((rolling 5545000 .unpunched Path.reset).floor.runner i).runs.map Run.handle).Nodup ∧
        ∀ r ∈ ((rolling 5545000 .unpunched Path.reset).floor.runner i).runs, _
      by_cases h : i = 2
      · subst h
        refine ⟨by decide +kernel, fun r hr => ?_⟩
        obtain rfl := List.mem_singleton.mp hr
        exact ⟨_, .fps24, rfl, rfl, _, rfl, rfl, rfl⟩
      · rw [runs i, if_neg h]
        exact ⟨List.nodup_nil, nofun⟩
    · obtain ⟨rfl, rfl⟩ := find_one e
      decide +kernel
    · obtain ⟨rfl, rfl⟩ := find_one e
      exact ⟨⟨nofun, fun ⟨_, _, e⟩ => nomatch e⟩, ⟨nofun, fun ⟨_, e⟩ => nomatch e⟩⟩

/-- A window at its end: a code outside the index; one byte alone; a presence field that marks an absent field; a declared
length that is not met, too large, or not that of the layout; and a window that passes. -/
theorem witness_refused :
    (0x01 : Byte) ≠ 0 ∧ (0x01 : Byte) ∉ requestIndex ∧ (0x14 : Byte) ∈ requestIndex ∧ desk.Receives ∧
    (assembling desk).Receives ∧ MarksAbsentField 0x14 [0, 4] ∧ ¬MarksAbsentField 0x14 [0, 3, 0, 0, 1] ∧
    ([0, 3, 0, 0, 1] : List Byte).length ≠ (6 : Byte).toNat ∧ 250 < (251 : Byte).toNat ∧
    ([0, 3, 0, 0, 1] : List Byte).length ∉ layoutLengths 0x14 [0, 3, 0, 0, 1] ∧
    ¬MarksAbsentField 0x14 [0, 3, 0, 0, 1, 2] ∧
    ([0, 3, 0, 0, 1, 2] : List Byte).length ∈ layoutLengths 0x14 [0, 3, 0, 0, 1, 2] ∧
    requestOf (.cueRead (.window [1, 0])) = some (0x13, some .badLength) := by
  have unmarked : ∀ rest, ¬MarksAbsentField 0x14 (0 :: 3 :: rest) := by
    rintro _ ⟨n, a, b, rest, h, hp, hle⟩
    cases h; cases hp
    revert hle; decide
  exact ⟨by decide, by decide, by decide, desk_receives, .inl rfl, ⟨2, 0, 4, [], rfl, rfl, by decide⟩, unmarked _, by decide,
    by decide, by decide, unmarked _, by decide, rfl⟩

theorem witness_dropped :
    (busy desk).Drops ∧ ({ desk with link := { desk.link with window := .dropped } } : State).Drops ∧
    (held desk).Ignores ∧ ({ desk with link := { desk.link with window := .ignored } } : State).Ignores ∧
    requestOf (.cueRead (.fields 0)) = some (0x13, none) :=
  ⟨.inr ⟨rfl, rfl, rfl⟩, .inl rfl, .inr ⟨rfl, rfl⟩, .inl rfl, rfl⟩

/-- The link states and windows of the clauses, with RESET_N high and low. -/
theorem witness_windows :
    let s : State := { desk with link := { desk.link with state := .ready, response := some ⟨.ok, 0x11, []⟩ } }
    let inFetch := fun a => ({ s with link := { s.link with window := .fetching a } } : State)
    (0x10 : Byte) ≠ 0 ∧ (busy desk).resetHeld = false ∧ (busy desk).link.state = .busy ∧ desk.link.state ≠ .busy ∧
    (held desk).resetHeld = true ∧ desk.resetHeld = false ∧ s.link.window = .noWindow ∧ s.link.state = .ready ∧
    s.link.response = some ⟨.ok, 0x11, []⟩ ∧ 3 + ([] : List Byte).length ≤ 3 ∧ 2 < 3 + ([] : List Byte).length ∧
    (inFetch true).link.window = .fetching true ∧ (inFetch false).link.window ≠ .fetching true ∧
    (inFetch false).link.window ≠ .noWindow ∧ (held desk).link.window = .noWindow ∧
    ({ desk with link := { desk.link with window := .ignored } } : State).link.window = .ignored ∧
    (inFetch true).misoDriven = true ∧ (assembling desk).misoDriven = true ∧ (held (assembling desk)).misoDriven = false ∧
    (assembling desk).link.window = .assembling := by decide

theorem witness_resets :
    desk.Receives ∧ readRequest none parseNone (.window [0]) = .ok () ∧ (held desk).resetHeld = true :=
  ⟨desk_receives, rfl, rfl⟩

/-- A payload of a whole window, a line source of each kind, a number that no table has, the place past the last notice. -/
theorem witness_numbers :
    parseHandle [3, 0xFF] = some 1023 ∧ ([3, 0xFF] : List Byte).length ≤ 250 ∧ (0 : Byte).toNat * 256 + (127 : Byte).toNat < 2 ^ 7 ∧
    Enable.ofCode 1 = some .muted ∧ Enable.ofCode 2 = none ∧ lineSourceOf ⟨5, 3, 0⟩ = some (.streamerActive 3) ∧
    lineSourceOf ⟨11, 3, 5⟩ = some (.podiumBicolour 3 5) ∧ lineSourceOf ⟨9, 3, 6⟩ = none ∧ lineSourceOf ⟨13, 0, 0⟩ = none ∧
    noticeOfName ⟨3, 5⟩ = some (.ofStage 3 .latePunch) ∧ noticeOfName ⟨3, 6⟩ = none := by decide

/-- R201: a CUE_EDIT of handle 0x0102 that gives the suffix, two characters and the punch-out offset; a LINE_SET of the
source podium speak of stage 2, podium 1. -/
theorem test_layouts :
    parseCueEdit [0x08, 0x06, 1, 2, 0x42, 2, 9, 7, 96] = some ⟨258, none, some 0x42, some [9, 7], none, none,
      ⟨none, none, none, none, none, none, some 96⟩⟩ ∧
    parseLineSet [0, 5, 23, 9, 2, 1, 0] = some ⟨23, some ⟨9, 2, 1⟩, none, some 0⟩ := by decide

theorem witness_labels :
    (∀ r : Rate, 0 < r.framesPerDay) ∧ (⟨23, 59, 59, 29⟩ : Label).isValid .fps2997drop = true ∧
    (⟨0, 0, 0, 0⟩ : Label).isValid .fps24 = true ∧ (⟨0, 1, 0, 1⟩ : Label).isValid .fps2997drop = false := by
  refine ⟨fun r => by cases r <;> decide, by decide +kernel⟩

theorem witness_timeline :
    12 ≤ cueA.timing.lead ∧ cueA.timing.beepLength < cueA.timing.beepSpacing ∧ cueA.timing.punchIn ≤ cueA.timing.lead ∧
    cueA.inPoint < cueA.outPoint ∧ cueA.outPoint ≤ Rate.fps24.dayEnd := by decide

/-- CUE_CREATE accepted: a new cue of characters 9 and 7 on reel 12. -/
theorem witness_cueCreate :
    let x : CueCreateFields := ⟨12, 9999, 0x5A, [9, 7], ⟨0, 0, 0, 0, 0⟩, ⟨23, 59, 59, 23, 63⟩,
      ⟨none, none, none, none, none, none, none⟩⟩
    desk.Receives ∧ readRequest (some 7) parseCueCreate (.fields x) = .ok x ∧ suffixOf x.suffix = some (some 0x5A) ∧
    desk.floor.resolveReel x.reel = .ok (0, reel12 .reelOpened [0]) ∧
    (∀ id ∈ x.characters, id < 64 ∧ (desk.floor.character id).isSome = true) ∧ x.characters.Nodup ∧
    positionValue .fps24 x.inPos = some 0 ∧ positionValue .fps24 x.outPos = some 132710399 ∧
    desk.floor.labelTaken 0 x.number (some 0x5A) none = false ∧ desk.floor.cues.length < 1024 :=
  ⟨desk_receives, rfl, rfl, rfl, by decide +kernel⟩

/-- The eight refusals of R31: each clause's premises are met on the desk by one change of the operands. -/
theorem witness_cueCreate_refused :
    suffixOf 0x40 = none ∧ suffixOf 0x5B = none ∧ suffixOf 0 = some none ∧
    (∀ e ∈ desk.floor.reels, e.2.number ≠ 13) ∧
    desk.floor.reels.find? (fun e => e.2.number == 12) = some (0, reel12 .reelOpened [0]) ∧
    (reel12 .reelClosing [0]).state = .reelClosing ∧ (reel12 .reelOpened [0]).state = .reelOpened ∧
    ¬[3, 3].Nodup ∧ ¬([3, 5].all fun id => (desk.floor.character id).isSome) ∧
    positionValue .fps24 ⟨0, 0, 0, 24, 0⟩ = none ∧ positionValue .fps24 ⟨0, 0, 0, 0, 64⟩ = none ∧
    positionValue .fps24 ⟨0, 0, 0, 23, 63⟩ = some 1535 ∧
    desk.floor.labelTaken 0 1043 (some 0x41) none = true := by decide +kernel

/-- A full store: 1,024 live handles. -/
theorem witness_cueCreate_full :
    1024 ≤ ({ desk.floor with cues := (List.range 1024).map fun h => (h, newCue 0 cueA) } : Floor).cues.length := by
  simp

theorem witness_desk_canonical : desk.StoresCanonical :=
  ⟨by decide, by decide, by decide, by decide, fun _ _ _ h => nomatch h⟩

theorem witness_cueCreateCompletion :
    let s : State := { desk with operation := some (.create 0 cueA .ok) }
    s.StoresCanonical ∧ s.operation = some (.create 0 cueA .ok) ∧ s.floor.reel 0 = some (reel12 .reelOpened [0]) :=
  ⟨⟨by decide, by decide, by decide, by decide, fun _ _ _ _ => by decide⟩, rfl, rfl⟩

theorem witness_cueEdit :
    let x : CueEditFields := ⟨0, some 9999, some 0x5A, some [9], some ⟨1, 0, 0, 0, 0⟩, some ⟨1, 4, 59, 23, 63⟩,
      ⟨none, none, none, none, none, none, some 97⟩⟩
    desk.Receives ∧ readRequest (some 12) parseCueEdit (.fields x) = .ok x ∧ editGives x = true ∧
    givenSuffix x.suffix cueA.suffix = some (some 0x5A) ∧ desk.floor.resolveCue x.handle = .ok (newCue 0 cueA) ∧
    (newCue 0 cueA).lock = .unlocked ∧ (newCue 0 cueA).inFlight = 0 ∧
    (∀ id ∈ [9], id < 64 ∧ (desk.floor.character id).isSome = true) ∧
    givenPosition (desk.floor.reelRate 0) x.inPos cueA.inPoint = .ok 5529600 ∧
    givenPosition (desk.floor.reelRate 0) x.outPos cueA.outPoint = .ok 5990399 ∧
    givenPosition (desk.floor.reelRate 0) (some ⟨1, 5, 0, 0, 1⟩) cueA.outPoint = .ok 5990401 ∧
    5529600 < 5990399 ∧ 5529600 + 460800 < 5990401 ∧
    desk.floor.labelTaken 0 9999 (some 0x5A) (some 0) = false :=
  ⟨desk_receives, rfl, rfl, rfl, rfl, rfl, rfl, by decide, rfl, rfl, rfl, by decide +kernel⟩

/-- The refusals of R35: each clause's premises are met on a desk by one change of the operands or of the store. -/
theorem witness_cueEdit_refused :
    let given := fun (n : Option Nat) (ids : Option (List Nat)) (o : Option PositionField) =>
      (⟨0, n, none, ids, none, o, ⟨none, none, none, none, none, none, none⟩⟩ : CueEditFields)
    let twice : Floor := { desk.floor with cues := [(0, newCue 0 cueA), (1, newCue 0 { cueA with number := 7 })] }
    editGives (given none none none) = false ∧ editGives (given (some 7) none none) = true ∧
    desk.floor.cue 5 = none ∧ desk.floor.cue 0 = some (newCue 0 cueA) ∧ desk.floor.reel 0 = some (reel12 .reelOpened [0]) ∧
    (reel12 .reelClosing [0]).state = .reelClosing ∧ ({ newCue 0 cueA with lock := .editing } : Cue).lock ≠ .unlocked ∧
    editTouchesTimeline (given none none (some ⟨1, 0, 0, 0, 0⟩)) = true ∧
    editTouchesTimeline (given (some 7) none none) = false ∧
    0 < ({ newCue 0 cueA with inFlight := 1 } : Cue).inFlight ∧ (newCue 0 cueA).inFlight = 0 ∧ ¬[3, 3].Nodup ∧
    ¬(∀ id ∈ [63], id < 64 ∧ (desk.floor.character id).isSome = true) ∧
    givenPosition .fps24 (some ⟨1, 0, 0, 24, 0⟩) cueA.outPoint = .error .invalidPosition ∧
    givenPosition .fps24 (some ⟨1, 0, 0, 0, 0⟩) cueA.outPoint = .ok 5529600 ∧ 5529600 ≤ cueA.inPoint ∧
    givenSuffix none cueA.suffix = some (some 0x41) ∧ twice.labelTaken 0 7 (some 0x41) (some 0) = true := by decide +kernel

theorem witness_completions :
    let e : State := { desk with operation := some (.edit 0 { cueA with number := 1 } .ok) }
    let r : State := { desk with operation := some (.retire 0 .ok) }
    e.operation = some (.edit 0 { cueA with number := 1 } .ok) ∧ r.operation = some (.retire 0 .ok) ∧
    desk.floor.cue 0 = some (newCue 0 cueA) ∧ desk.floor.reel (newCue 0 cueA).reel = some (reel12 .reelOpened [0]) :=
  ⟨rfl, rfl, rfl, rfl⟩

/-- The five cases of a plain retire, and a forced one. -/
theorem witness_retire :
    desk.Receives ∧ readRequest none parseRetire (.window [3, 0, 0, 0]) = .ok ⟨0, 0⟩ ∧
    readRequest none parseRetire (.window [3, 0, 0, 1]) = .ok ⟨0, 1⟩ ∧
    readRequest none parseRetire (.window [3, 0, 0, 2]) = .ok ⟨0, 2⟩ ∧ desk.floor.cue 5 = none ∧
    desk.floor.cue 0 = some (newCue 0 cueA) ∧ desk.floor.reel 0 = some (reel12 .reelOpened [0]) ∧
    (reel12 .reelClosing [0]).state = .reelClosing ∧ ({ newCue 0 cueA with lock := .editing } : Cue).lock ≠ .unlocked ∧
    0 < ({ newCue 0 cueA with inFlight := 1 } : Cue).inFlight ∧ (newCue 0 cueA).inFlight = 0 ∧
    desk.floor.resolveCue 0 = .ok (newCue 0 cueA) ∧ (newCue 0 cueA).lock = .unlocked :=
  ⟨desk_receives, rfl, rfl, rfl, rfl, rfl, rfl, rfl, by decide, by decide, rfl, rfl, rfl⟩

/-- R38: a forced retire of a locked cue, and of a free handle; a force flag of 2 (log 17). -/
theorem test_forcedRetire_refused :
    let locked : State := { desk with floor := desk.floor.modCue 0 fun c => { c with lock := .editing } }
    responseOf (exec (.forcedRetire (.fields ⟨0, 1⟩)) locked) = some ⟨.cueBusy, 0x12, []⟩ ∧
    responseOf (exec (.forcedRetire (.fields ⟨5, 1⟩)) desk) = some ⟨.unknownHandle, 0x12, []⟩ ∧
    responseOf (exec (.forcedRetire (.fields ⟨5, 2⟩)) desk) = some ⟨.badRequest, 0x12, []⟩ := by decide +kernel

/-- A forced retire with a run of the cue on stage 2 and none on stage 0. -/
theorem witness_forcedRetire :
    let f := (rolling 5545000 .punched { Path.reset with state := .record, demand := true }).floor
    (f.runner 2).runs.any (fun r => r.handle == 0) = true ∧ (f.runner 0).runs.any (fun r => r.handle == 0) = false ∧
    (f.stage 2).PathTable ∧ (f.stage 2).ClaimsStand ∧ f.resolveCue 0 = .ok { newCue 0 cueA with inFlight := 1 } ∧
    (∀ r ∈ (f.runner 2).runs, r.punch = .punched) := by
  refine ⟨by decide +kernel, by decide +kernel, ?_, by unfold Stage.ClaimsStand; decide +kernel, rfl, by decide +kernel⟩
  constructor <;> decide +kernel

/-- The refusals by handle, for CUE_READ and CUE_MARK: a free handle, a cue of a CLOSING reel, a locked one. -/
theorem witness_handles_refused :
    let closing : Floor := { desk.floor with reels := [(0, reel12 .reelClosing [0])] }
    let locked : Floor := { desk.floor with cues := [(0, { newCue 0 cueA with lock := .editing })] }
    readRequest none parseHandle (.window [2, 0, 5]) = .ok 5 ∧ desk.floor.cue 5 = none ∧
    closing.cue 0 = some (newCue 0 cueA) ∧ closing.reel 0 = some (reel12 .reelClosing [0]) ∧
    readRequest (some 2) parseCueMark (.window [4, 0, 0, 0, 0]) = .ok ⟨0, none, none⟩ ∧
    readRequest (some 2) parseCueMark (.window [5, 0, 1, 0, 0, 2]) = .ok ⟨0, some 2, none⟩ ∧
    locked.cue 0 = some { newCue 0 cueA with lock := .editing } ∧ locked.reel 0 = some (reel12 .reelOpened [0]) := by
  refine ⟨rfl, rfl, rfl, rfl, by decide +kernel, by decide +kernel, rfl, rfl⟩

/-- The refusals by reel and by range, for the lookups, the reel requests and STAGE_SELECT_REEL. -/
theorem witness_lookups_refused :
    let closing : Floor := { desk.floor with reels := [(0, reel12 .reelClosing [0])] }
    (∀ e ∈ desk.floor.reels, e.2.number ≠ 13) ∧
    closing.reels.find? (fun e => e.2.number == 12) = some (0, reel12 .reelClosing [0]) ∧
    readRequest none parseCueFind (.window [4, 12, 0, 0, 0x41]) = .ok ⟨12, 0, 0x41⟩ ∧
    readRequest none parseCueFind (.window [4, 13, 0x27, 0x0F, 0x5A]) = .ok ⟨13, 9999, 0x5A⟩ ∧
    positionValue .fps24 ⟨0, 0, 0, 0, 64⟩ = none ∧
    readRequest none parseCueNext (.window [6, 12, 0, 0, 0, 0, 64]) = .ok ⟨12, ⟨0, 0, 0, 0, 64⟩⟩ ∧
    readRequest none parseCueList (.window [4, 12, 4, 0, 1]) = .ok ⟨12, 1024, 1⟩ ∧
    readRequest none parseCueList (.window [4, 13, 0, 0, 32]) = .ok ⟨13, 0, 32⟩ ∧
    readRequest (some 7) parseReelDefaults (.window [3, 0, 0, 12]) = .ok ⟨12, ⟨none, none, none, none, none, none, none⟩⟩ ∧
    readRequest none parseReelRate (.window [2, 12, 6]) = .ok ⟨12, 6⟩ ∧
    readRequest none parseSelectReel (.window [3, 2, 0, 0]) = .ok ⟨2, 0, 0⟩ ∧
    readRequest none parseSelectReel (.window [3, 3, 0, 99]) = .ok ⟨3, 0, 99⟩ := by
  decide +kernel

/-- Windows that name a stage, a value or a selection outside the ranges. -/
theorem witness_ranges_refused :
    readRequest none parse1 (.window [1, 4]) = .ok 4 ∧ readRequest none parse1 (.window [1, 64]) = .ok 64 ∧
    readRequest none parseStageValue (.window [2, 4, 0]) = .ok ⟨4, 0⟩ ∧
    readRequest none parseStageValue (.window [2, 3, 2]) = .ok ⟨3, 2⟩ ∧
    readRequest (some 5) parseTrackerSet (.window [4, 0, 2, 3, 6]) = .ok ⟨3, none, some 6, none, none, none⟩ ∧
    readRequest (some 3) parseStageSet (.window [4, 0, 2, 3, 2]) = .ok ⟨3, none, some 2, none⟩ ∧
    readRequest (some 4) parseFaultSet (.window [4, 0, 8, 3, 5]) = .ok ⟨3, none, none, none, some 5⟩ ∧
    readRequest none parseNoticeMask (.window [4, 1, 3, 5, 2]) = .ok ⟨[⟨3, 5⟩], 2⟩ ∧
    readRequest none parseNotices (.window [3, 1, 3, 6]) = .ok [⟨3, 6⟩] ∧
    readRequest none parseBankSet (.window [3, 4, 0, 0]) = .ok ⟨4, 0, 0⟩ ∧
    readRequest (some 3) parseLineSet (.window [6, 0, 1, 23, 11, 3, 5]) = .ok ⟨23, some ⟨11, 3, 5⟩, none, none⟩ ∧
    readRequest none parseMonConfig (.window [9, 7, 1, 3, 10, 3, 5, 8, 1, 1]) = .ok ⟨7, 1, 3, 10, 3, 5, 8, 1, 1⟩ ∧
    readRequest none parseCounters (.window [2, 1, 8]) = .ok [8] ∧
    readRequest (some 4) parseBands (.window [2, 0, 0]) = .ok [] ∧
    readRequest none parseCharDefine (.window [3, 64, 1, 0x5A]) = .ok ⟨64, [0x5A]⟩ ∧
    readRequest none parseCharDefine (.window [2, 63, 0]) = .ok ⟨63, []⟩ := by
  decide +kernel

theorem witness_cueMark :
    desk.Receives ∧ readRequest (some 2) parseCueMark (.window [5, 0, 2, 0, 0, 2]) = .ok ⟨0, none, some 2⟩ ∧
    givenCode Enable.ofCode none = .ok none ∧ givenCode Approval.ofCode (some 2) = .ok (some .printed) ∧
    desk.floor.resolveCue 0 = .ok (newCue 0 cueA) ∧ (newCue 0 cueA).lock = .unlocked :=
  ⟨desk_receives, by decide +kernel⟩

theorem witness_reads :
    desk.Receives ∧ readRequest none parseHandle (.window [2, 0, 0]) = .ok 0 ∧
    desk.floor.cue 0 = some (newCue 0 cueA) ∧ desk.floor.reel 0 = some (reel12 .reelOpened [0]) ∧
    readRequest none parse1 (.window [1, 12]) = .ok 12 ∧
    desk.floor.resolveReel 12 = .ok (0, reel12 .reelOpened [0]) ∧ desk.floor.character 63 = none ∧
    desk.floor.character 3 = some ⟨[0x41], 1⟩ ∧ readRequest none parse1 (.window [1, 3]) = .ok (3 : Fin 4).val ∧
    readRequest none parseNone (.window [0]) = .ok () :=
  ⟨desk_receives, rfl, rfl, rfl, rfl, rfl, rfl, rfl, rfl, rfl⟩

theorem witness_lookups :
    desk.Receives ∧ readRequest none parseCueFind (.window [4, 12, 4, 19, 0x41]) = .ok ⟨12, 1043, 0x41⟩ ∧
    suffixOf 0x41 = some (some 0x41) ∧ desk.floor.resolveReel 12 = .ok (0, reel12 .reelOpened [0]) ∧
    (reel12 .reelOpened [0]).order[0]? = some 0 ∧ desk.floor.cue 0 = some (newCue 0 cueA) ∧
    cueA.number = 1043 ∧ cueA.suffix = some 0x41 ∧
    readRequest none parseCueNext (.window [6, 12, 1, 0, 10, 0, 0]) = .ok ⟨12, ⟨1, 0, 10, 0, 0⟩⟩ ∧
    positionValue .fps24 ⟨1, 0, 10, 0, 0⟩ = some cueA.inPoint ∧ positionValue .fps24 ⟨1, 0, 10, 0, 1⟩ = some 5544961 ∧
    readRequest none parseCueList (.window [4, 12, 3, 255, 32]) = .ok ⟨12, 1023, 32⟩ :=
  ⟨desk_receives, rfl, rfl, rfl, rfl, rfl, rfl, rfl, rfl, rfl, rfl, rfl⟩

theorem witness_reels :
    desk.Receives ∧ desk.StoresCanonical ∧ readRequest none parseReelRate (.window [2, 99, 5]) = .ok ⟨99, 5⟩ ∧
    Rate.ofCode 5 = some .fps30 ∧ (∀ e ∈ desk.floor.reels, e.2.number ≠ 99) ∧ desk.floor.reels.length < 32 ∧
    readRequest (some 7) parseReelDefaults (.window [4, 0, 1, 12, 240]) =
      .ok ⟨12, ⟨some 240, none, none, none, none, none, none⟩⟩ ∧
    desk.floor.resolveReel 12 = .ok (0, reel12 .reelOpened [0]) ∧ (reel12 .reelOpened [0]).order ≠ [] ∧
    ({ desk.floor with reels := [(0, reel12 .reelOpened [])] } : Floor).resolveReel 12 =
      .ok (0, reel12 .reelOpened []) ∧ desk.closure = none :=
  ⟨desk_receives, witness_desk_canonical, by decide +kernel⟩

/-- The refusals of R48 and R58: an OPEN reel, a CLOSING reel, a closure in progress, and a number that no reel holds. -/
theorem witness_reels_refused :
    let closing : State := { desk with closure := some 0, floor := { desk.floor with reels := [(0, reel12 .reelClosing [0])] } }
    let second : State := { desk with closure := some 1 }
    closing.Receives ∧ closing.StoresCanonical ∧ second.StoresCanonical ∧ second.closure ≠ none ∧
    (∃ e ∈ desk.floor.reels, e.2.number = 12 ∧ e.2.state = .reelOpened) ∧
    ¬(∃ e ∈ closing.floor.reels, e.2.number = 12 ∧ e.2.state = .reelOpened) ∧
    (∃ e ∈ closing.floor.reels, e.2.number = 12 ∧ e.2.state = .reelClosing) ∧
    ¬(∃ e ∈ desk.floor.reels, e.2.number = 99) ∧ ¬(∀ e ∈ desk.floor.reels, e.2.number ≠ 12) ∧
    readRequest none parseReelRate (.window [2, 0, 5]) = .ok ⟨0, 5⟩ ∧
    32 ≤ ((List.range 32).map fun k => (k, reel12 .reelOpened [])).length :=
  ⟨.inr ⟨rfl, rfl, by decide⟩, ⟨by decide, by decide, by decide, by decide, nofun⟩,
    ⟨by decide, by decide, by decide, by decide, nofun⟩, by decide +kernel⟩

theorem witness_closureStep :
    let s : State := { desk with closure := some 0, floor := { desk.floor with reels := [(0, reel12 .reelClosing [7, 0])] } }
    s.closure = some 0 ∧ s.floor.reel 0 = some (reel12 .reelClosing [7, 0]) ∧
    (reel12 .reelClosing [7, 0]).order = [7] ++ [0] ∧ (reel12 .reelClosing [0]).order = [] ++ [0] ∧
    s.floor.cue 0 = some (newCue 0 cueA) := ⟨rfl, rfl, rfl, rfl, rfl⟩

theorem witness_characters :
    desk.Receives ∧ readRequest none parseCharDefine (.window [3, 63, 1, 0x5A]) = .ok ⟨63, [0x5A]⟩ ∧
    (∀ b ∈ ([0x41, 0x5A, 0x30, 0x39, 0x20, 0x2D, 0x20, 0x41] : List Byte),
      (0x41 ≤ b.toNat ∧ b.toNat ≤ 0x5A) ∨ (0x30 ≤ b.toNat ∧ b.toNat ≤ 0x39) ∨ b = 0x20 ∨ b = 0x2D) ∧
    readRequest none parse1 (.window [1, 9]) = .ok 9 ∧ desk.floor.character 9 = some ⟨[0x43], 0⟩ ∧
    (∀ (i : Fin 4) (k : Fin 6), desk.floor.casts[i][k] ≠ some 9) ∧
    desk.floor.character 7 = some ⟨[0x42], 1⟩ ∧ desk.floor.casts[(2 : Fin 4)][(0 : Fin 6)] = some 3 :=
  ⟨desk_receives, rfl, by decide, rfl, rfl, by decide +kernel, rfl, rfl⟩

theorem desk_casts : ∀ (i : Fin 4) (k : Fin 6), desk.floor.casts[i][k] = if i = 2 ∧ k = 0 then some 3 else none := by
  decide +kernel

theorem desk_castMap : desk.floor.CastMap := by
  refine ⟨fun i j k l id hi hj => ?_, fun i k id hi => ?_⟩
  · rw [desk_casts] at hi hj
    split at hi <;> split at hj <;> simp_all
  · rw [desk_casts] at hi
    split at hi
    · cases hi; decide
    · cases hi

theorem witness_casts :
    desk.Receives ∧ desk.floor.CastMap ∧ readRequest none parseCastAssign (.window [4, 3, 2, 5, 0]) = .ok ⟨3, 2, 5, 0⟩ ∧
    readRequest none parseCastAssign (.window [4, 3, 3, 0, 1]) = .ok ⟨3, 3, 0, 1⟩ ∧
    (desk.floor.character 3).isSome = true ∧
    (∀ (j : Fin 4) (l : Fin 6), desk.floor.casts[j][l] = some 3 → j = 2) ∧
    desk.floor.casts[(2 : Fin 4)][(5 : Fin 6)] = none ∧ desk.floor.casts[(2 : Fin 4)][(0 : Fin 6)] = some 3 ∧
    readRequest none parse1 (.window [1, 3]) = .ok 3 :=
  ⟨desk_receives, desk_castMap, rfl, rfl, rfl, by decide +kernel, rfl, rfl, rfl⟩

/-- The refusals of R70 and R71: a podium out of range, an unknown character, one cast on another stage without the move
flag, and a podium that another character holds. -/
theorem witness_casts_refused :
    readRequest none parseCastAssign (.window [4, 3, 2, 6, 0]) = .ok ⟨3, 2, 6, 0⟩ ∧
    readRequest none parseCastAssign (.window [4, 3, 1, 0, 0]) = .ok ⟨3, 1, 0, 0⟩ ∧
    readRequest none parseCastAssign (.window [4, 9, 2, 0, 1]) = .ok ⟨9, 2, 0, 1⟩ ∧
    ¬((63 : Nat) < 64 ∧ (desk.floor.character 63).isSome = true) ∧ (desk.floor.character 9).isSome = true ∧
    (∃ (j : Fin 4) (l : Fin 6), desk.floor.casts[j][l] = some 3 ∧ j.val ≠ 1) ∧
    desk.floor.casts[(2 : Fin 4)][(0 : Fin 6)] = some 3 ∧ (3 : Nat) ≠ 9 ∧
    (∀ (i : Fin 4) (k : Fin 6), desk.floor.casts[i][k] ≠ some 9) := by
  refine ⟨rfl, rfl, rfl, by decide, by decide, ⟨2, 0, rfl, by decide⟩, rfl, by decide, by decide +kernel⟩

theorem witness_trackerSet :
    desk.Receives ∧ readRequest (some 5) parseTrackerSet (.window [8, 0, 0x1F, 3, 2, 5, 16, 8, 60]) =
      .ok ⟨3, some 2, some 5, some 16, some 8, some 60⟩ ∧ givenCode SourceChoice.ofCode (some 2) = .ok (some .choiceC) ∧
    givenCode Rate.ofCode (some 5) = .ok (some .fps30) := ⟨desk_receives, by decide +kernel⟩

/-- TRACKER_SET at a working runner, at one in STANDBY and at an IDLE tracker; the runs and the path of the first. -/
theorem witness_trackerSet_states :
    let works := rolling 5545000 .punched { Path.reset with state := .record, demand := true }
    let stands := deskWith fun st => { st with tracker := lockedAt 63, runner := chasing .standby [] }
    (works.floor.runner 2).state.working = true ∧ (works.floor.tracker 2).state ≠ .idle ∧
    (stands.floor.runner 2).state.working = false ∧ (stands.floor.tracker 2).state ≠ .idle ∧
    (desk.floor.tracker 2).state = .idle ∧ Rate.fps30 ≠ (works.floor.tracker 2).rate ∧
    (works.floor.stage 2).PathTable ∧ (works.floor.stage 2).ClaimsStand := by
  refine ⟨rfl, by decide +kernel, rfl, by decide +kernel, rfl, by decide +kernel, ?_, by unfold Stage.ClaimsStand; decide +kernel⟩
  constructor <;> decide +kernel

/-- A SEARCHING tracker, alone on its pin, with a valid, a malformed and a rate-mismatched word. -/
theorem witness_word :
    let s := deskWith fun st => { st with tracker := { st.tracker with state := .searching } }
    selectedPin 2 (s.floor.tracker 2).source = 2 ∧ (s.floor.tracker 2).state = .searching ∧
    (⟨23, 59, 59, 23⟩ : Label).isValid (s.floor.tracker 2).rate = true ∧ (s.floor.tracker 2).rate ≠ .fps2997drop ∧
    selectedPin 2 (s.floor.tracker 2).source ≠ 4 ∧ (s.floor.tracker 1).state = .idle ∧ 24 ≤ 24 ∧
    (s.floor.tracker 2).rate.base ≤ 24 ∧ ¬(30 ≤ 24) ∧
    (∀ j, (selectedPin j (s.floor.tracker j).source = 2 ∧ (s.floor.tracker j).state ≠ .idle) ↔ j = 2) := by decide +kernel

/-- An ACQUIRING tracker at count 1 and at count 3 of 4, the word that continues and one that does not. -/
theorem witness_acquiring :
    let s := fun n => deskWith fun st => { st with tracker := { st.tracker with
      state := .acquiring, acquisition := some ⟨n, ⟨1, 0, 5, 2⟩, .forward, 1000⟩ } }
    (∀ j, (selectedPin j ((s 3).floor.tracker j).source = 2 ∧ ((s 3).floor.tracker j).state ≠ .idle) ↔ j = 2) ∧
    ((s 3).floor.runner 2).state.working = false ∧
    (((s 3).floor.modRunner 2 fun r => { r with state := .chasing }).runner 2).state.working = true ∧
    (⟨1, 0, 5, 3⟩ : Label).isValid ((s 3).floor.tracker 2).rate = true ∧ ((s 3).floor.tracker 2).rate ≠ .fps2997drop ∧
    ((s 1).floor.tracker 2).state = .acquiring ∧
    ((s 1).floor.tracker 2).acquisition = some ⟨1, ⟨1, 0, 5, 2⟩, .forward, 1000⟩ ∧
    1 + 1 < ((s 1).floor.tracker 2).lockCount ∧ ((s 3).floor.tracker 2).lockCount ≤ 3 + 1 ∧
    (⟨1, 0, 5, 3⟩ : Label) = Label.ofFrame .fps24 (Rate.fps24.stepFrame .forward ((⟨1, 0, 5, 2⟩ : Label).frameIndex .fps24)) ∧
    (⟨1, 0, 5, 4⟩ : Label) ≠ Label.ofFrame .fps24 (Rate.fps24.stepFrame .forward ((⟨1, 0, 5, 2⟩ : Label).frameIndex .fps24)) := by
  decide +kernel

/-- A LOCKED tracker, alone on its pin, with the expected word, a word of the other direction, an unexpected word below the
jump confirm count, and one that continues the candidate and reaches it. -/
theorem witness_locked :
    let s := rolling 5545000 .unpunched Path.reset
    let t := s.floor.tracker 2
    selectedPin 2 t.source = 2 ∧ t.state = .locked ∧ t.position / 64 < t.rate.framesPerDay ∧
    labelOf t.rate t.position = ⟨1, 0, 10, 0⟩ ∧ (⟨1, 0, 10, 0⟩ : Label).isValid t.rate = true ∧
    t.rate ≠ .fps2997drop ∧ Direction.forward = t.direction ∧ Direction.reverse ≠ t.direction ∧
    (⟨2, 0, 0, 1⟩ : Label).isValid t.rate = true ∧ (⟨2, 0, 0, 1⟩ : Label) ≠ labelOf t.rate t.position ∧
    t.candidate = none ∧ 1 < t.jumpConfirm ∧ t.jumpConfirm ≤ 1 + 1 ∧
    (⟨2, 0, 0, 1⟩ : Label) = Label.ofFrame t.rate (t.rate.stepFrame t.direction ((⟨2, 0, 0, 0⟩ : Label).frameIndex t.rate)) ∧
    (∀ j, (selectedPin j (s.floor.tracker j).source = 2 ∧ (s.floor.tracker j).state ≠ .idle) ↔ j = 2) := by decide +kernel

theorem witness_subframe :
    let t := (rolling 5545000 .unpunched Path.reset).floor.tracker 2
    t.state = .locked ∧ t.direction = .forward ∧ t.position % 64 < 63 ∧ t.lastBoundary = some 1000000 ∧ 0 < t.e8 / 8 ∧
    ({ t with state := .acquiring, acquisition := some ⟨1, ⟨0, 0, 0, 0⟩, .forward, 7⟩ } : Tracker).acquisition =
      some ⟨1, ⟨0, 0, 0, 0⟩, .forward, 7⟩ := by decide +kernel

/-- A LOCKED and a FREEWHEEL tracker below and at its limit, a limit of 0, a PUNCHED run, and the expected and another word. -/
theorem witness_freewheel :
    let s := rolling 5545000 .punched Path.reset
    let u := deskWith fun st => { st with tracker := { lockedAt 63 with state := .freewheel, synthetic := 1 } }
    let limit := deskWith fun st => { st with tracker := { lockedAt 63 with freewheelLimit := 0 } }
    (s.floor.tracker 2).lastBoundary = some 1000000 ∧ (s.floor.tracker 2).position / 64 < Rate.fps24.framesPerDay ∧
    (s.floor.tracker 2).state = .locked ∧ (u.floor.tracker 2).lastBoundary = some 1000000 ∧
    (u.floor.tracker 2).state = .freewheel ∧ (s.floor.tracker 2).freewheelLimit ≠ 0 ∧
    (limit.floor.tracker 2).freewheelLimit = 0 ∧ (limit.floor.tracker 2).lastBoundary = some 1000000 ∧
    (s.floor.runner 2).state.working = true ∧ (∃ x ∈ (s.floor.runner 2).runs, x.punch = .punched) ∧
    (u.floor.tracker 2).synthetic < (u.floor.tracker 2).freewheelLimit ∧ (u.floor.tracker 2).freewheelLimit ≤ 8 ∧
    labelOf Rate.fps24 63 = ⟨0, 0, 0, 0⟩ ∧ (⟨0, 0, 0, 0⟩ : Label).isValid .fps24 = true ∧
    (⟨0, 0, 0, 9⟩ : Label).isValid .fps24 = true ∧ (⟨0, 0, 0, 9⟩ : Label) ≠ labelOf Rate.fps24 63 ∧
    selectedPin 2 (u.floor.tracker 2).source = 2 ∧
    (∀ j, (selectedPin j (u.floor.tracker j).source = 2 ∧ (u.floor.tracker j).state ≠ .idle) ↔ j = 2) := by decide +kernel

theorem witness_stage :
    desk.Receives ∧ readRequest none parse1 (.window [1, 2]) = .ok (2 : Fin 4).val ∧
    (desk.floor.runner 2).state = .offline ∧ ((rolling 0 .unpunched Path.reset).floor.runner 2).state ≠ .offline :=
  ⟨desk_receives, rfl, rfl, by decide +kernel⟩

/-- The three choices, a working runner and one that is not. -/
theorem witness_selectReel :
    desk.Receives ∧ readRequest none parseSelectReel (.window [3, 2, 0, 12]) = .ok ⟨2, 0, 12⟩ ∧
    readRequest none parseSelectReel (.window [3, 2, 1, 0]) = .ok ⟨2, 1, 0⟩ ∧
    readRequest none parseSelectReel (.window [3, 2, 2, 0]) = .ok ⟨2, 2, 0⟩ ∧
    desk.floor.resolveReel 12 = .ok (0, reel12 .reelOpened [0]) ∧
    ((rolling 0 .unpunched Path.reset).floor.runner 2).state.working = true ∧
    ((rolling 0 .unpunched Path.reset).floor.runner 2).selected = some 0 ∧
    (desk.floor.runner 2).state.working = false := ⟨desk_receives, rfl, rfl, rfl, rfl, rfl, rfl, rfl⟩

theorem witness_stageSet :
    desk.Receives ∧ readRequest (some 3) parseStageSet (.window [6, 0, 7, 2, 0, 1, 31]) =
      .ok ⟨2, some 0, some 1, some 31⟩ ∧ givenCode RecordMode.ofCode (some 0) = .ok (some .rehearse) ∧
    givenCode flagOfCode (some 1) = .ok (some true) ∧
    ((rolling 0 .punched Path.reset).floor.runner 2).recordMode = .record := ⟨desk_receives, by decide +kernel⟩

/-- Stages in RECORD mode whose path takes a release (RECORD, PROTECTED with a gap), and one in REHEARSE with a run between
its pre-emption point and its punch-in point, from TALK. -/
theorem witness_stageSet_modes :
    let recording := (rolling 5545000 .punched { Path.reset with state := .record, demand := true }).floor
    let waiting := (rolling 5545000 .waiting { Path.reset with state := .protected_, demand := true, gapExpiry := some 9 }).floor
    let rehearsing := ((rolling 5544570 .unpunched { Path.reset with state := .talk, talkWanted := true }).floor.modRunner 2
      fun r => { r with recordMode := .rehearse })
    (recording.stage 2).PathTable ∧ (waiting.stage 2).PathTable ∧ (rehearsing.stage 2).PathTable ∧
    (recording.runner 2).recordMode = .record ∧ (waiting.runner 2).recordMode = .record ∧
    ((recording.runner 2).runs.map Run.handle).Nodup ∧ (∃ y ∈ (recording.runner 2).runs, y.punch = .punched) ∧
    32 * Rate.fps24.nominal / 64 ≠ 0 ∧ (rehearsing.runner 2).recordMode = .rehearse ∧
    (rehearsing.path 2).state ≠ .protected_ ∧ (rehearsing.path 2).state ≠ .record ∧
    cueA.preemptionPoint (rehearsing.path 2).guardGap ≤ (rehearsing.tracker 2).position ∧
    (rehearsing.tracker 2).position < cueA.punchInPoint := by
  refine ⟨?_, ?_, ?_, rfl, rfl, by decide +kernel, by decide +kernel, by decide, rfl, by decide +kernel⟩ <;> constructor <;> decide +kernel

/-- A run one value before its punch-out, and one before its punch-in for each kind of path: with no gap, with a gap in
PROTECTED and in GAP, in RECORD, and in TALK with and without a gap length; and a run punched by a late grant of this count. -/
theorem witness_points :
    let a := rolling 5551103 .punched { Path.reset with state := .record, demand := true }
    let b := fun path => rolling 5544575 .unpunched path
    let free := b { Path.reset with state := .protected_, demand := true }
    let gap := b { Path.reset with state := .gap, gapExpiry := some 9 }
    let shut := b { Path.reset with state := .protected_, demand := true, gapExpiry := some 9 }
    let open_ := b { Path.reset with state := .record, demand := true }
    let talk := fun g => b { Path.reset with state := .talk, talkWanted := true, guardGap := g }
    a.floor.punchOut { newCue 0 cueA with inFlight := 1 } = (a.floor.tracker 2).position + 1 ∧
    cueA.punchInPoint = (free.floor.tracker 2).position + 1 ∧ (free.floor.path 2).gapExpiry = none ∧
    (gap.floor.path 2).gapExpiry ≠ none ∧ (shut.floor.path 2).gapExpiry ≠ none ∧ (open_.floor.path 2).state = .record ∧
    (talk 0).floor.path 2 = { Path.reset with state := .talk, talkWanted := true, guardGap := 0 } ∧
    0 * Rate.fps24.nominal / 64 = 0 ∧ 32 * Rate.fps24.nominal / 64 ≠ 0 ∧ (free.floor.runner 2).recordMode = .record ∧
    ((free.floor.runner 2).runs.map Run.handle).Nodup ∧ (free.floor.cue 0).isSome = true ∧
    (⟨0, .sweep, .punched, some 5551103, none, some 1000000⟩ : Run).lateGrant = some a.floor.now := by decide +kernel

/-- R136: a claim made in a move that goes past P_in, and the expiry on the same count: punched-at is the position of the
claim; on a later count it is the position at the expiry. -/
theorem test_lateGrant_of_claim :
    let s := rolling 5544570 .unpunched { Path.reset with state := .protected_, demand := true, gapExpiry := some 1000000 }
    let moved : State := { s with floor := s.floor.forwardMove 2 5544580 }
    let late : State := { moved with floor := { moved.floor with now := 1000001 } }
    (moved.floor.runner 2).runs = [⟨0, .sweep, .waiting, none, some ⟨1000000, 5544576⟩, none⟩] ∧
    ((goesTo (exec (.gapExpiry 2) moved)).floor.runner 2).runs.map Run.punchedAt = [some 5544576] ∧
    ((goesTo (exec (.gapExpiry 2) late)).floor.runner 2).runs.map Run.punchedAt = [some 5544580] := by decide +kernel

/-- R98: in the last frame of the day, a run left is aborted at DE and the runner keeps its state. -/
theorem test_dayWrap :
    let f := (rolling 132710399 .punched { Path.reset with state := .record, demand := true }).floor.forwardMove 2 0
    (f.tracker 2).position = 0 ∧ (f.runner 2).runs = [] ∧ (f.runner 2).state = .chasing ∧
    (f.cue 0).bind Cue.lastTake = some ⟨2, 132710399, 132710399, .aborted⟩ := by decide +kernel

/-- R136: where the gap expires on the count of a run's punch-out, and the expiry is taken first, the take is of length 0:
punched-at and ended-at are the punch-out point. -/
theorem test_lateGrant_at_punchOut :
    let s := rolling 5551103 .waiting { Path.reset with state := .protected_, demand := true, gapExpiry := some 2000000 }
    let f := (goesTo (exec (.gapExpiry 2) s)).floor
    ((f.forwardMove 2 5551104).cue 0).bind Cue.lastTake = some ⟨2, 5551104, 5551104, .complete⟩ := by decide +kernel

/-- A WAITING run in PROTECTED with a gap, before its punch-out; a move of ten values; the last frame of the day. -/
theorem witness_moves :
    let waits := rolling 5544600 .waiting { Path.reset with state := .protected_, demand := true, gapExpiry := some 2000000 }
    let last := rolling 132710390 .unpunched Path.reset
    (waits.floor.path 2).gapExpiry ≠ none ∧ (waits.floor.runner 2).recordMode = .record ∧
    waits.floor.punchOut { newCue 0 cueA with inFlight := 1 } ≠ (waits.floor.tracker 2).position + 1 ∧
    (waits.floor.stage 2).PathTable ∧ (waits.floor.stage 2).ClaimsStand ∧ (waits.floor.tracker 2).position < 5544601 ∧
    5544601 < 5544610 ∧
    (last.floor.tracker 2).position / 64 + 1 = (last.floor.tracker 2).rate.framesPerDay ∧ 16 < 64 := by
  refine ⟨by decide +kernel, rfl, by decide +kernel, ?_, by unfold Stage.ClaimsStand; decide +kernel, by decide +kernel⟩
  constructor <;> decide +kernel

/-- A re-stripe of the position at which the tracker stands: the path of a run that is kept, and of one that is aborted. -/
theorem witness_jump_path :
    let kept := rolling 5544560 .unpunched { Path.reset with state := .protected_, demand := true }
    let gone := rolling 5545000 .punched { Path.reset with state := .record, demand := true }
    (kept.floor.stage 2).PathTable ∧ (gone.floor.stage 2).PathTable ∧ cueA.armPoint ≤ (kept.floor.tracker 2).position ∧
    (kept.floor.tracker 2).position < cueA.punchInPoint ∧ ¬(gone.floor.tracker 2).position < cueA.punchInPoint := by
  refine ⟨?_, ?_, by decide +kernel⟩ <;> constructor <;> decide +kernel

theorem witness_arming :
    let f := (deskWith fun st => { st with tracker := lockedAt 5538816, runner := chasing .chasing [] }).floor
    (f.runner 2).state = .chasing ∧ (f.runner 2).mode = .manual ∧ (f.runner 2).selected = some 0 ∧
    f.reel 0 = some (reel12 .reelOpened [0]) ∧ (f.tracker 2).rate = .fps24 ∧ (f.tracker 2).inSpeed = true ∧
    [0].Nodup ∧ (f.runner 2).runs.length ≤ 8 ∧ cueA.armPoint ≤ (f.tracker 2).position ∧
    (f.tracker 2).position < cueA.punchInPoint ∧ Table.WF 32 f.reels := by decide +kernel

/-- R134, R135, example 7.9.2: a cue armed in RECORD past its pre-emption point takes the path to PROTECTED at once. -/
theorem test_arming_protects :
    let f := (deskWith fun st => { st with tracker := lockedAt 5544570, runner := { chasing .chasing [] with
      recordMode := .record } }).floor
    cueA.preemptionPoint (f.path 2).guardGap ≤ 5544570 ∧ (f.path 2).state = .free ∧
    ((f.boundary 2).path 2).state = .protected_ ∧
    ((f.boundary 2).runner 2).runs = [⟨0, .sweep, .unpunched, none, none, none⟩] := by decide +kernel

theorem witness_arming_path :
    let s := (deskWith fun st => { st with tracker := lockedAt 5544570, runner := { chasing .chasing [] with
      recordMode := .record } }).floor.stage 2
    s.PathTable ∧ s.ClaimsStand := by
  refine ⟨?_, by unfold Stage.ClaimsStand; decide +kernel⟩
  constructor <;> decide +kernel

/-- The other steps of a boundary: a reel that AUTO chooses by the hours, one at another rate, and runners in STANDBY that
meets and does not meet the chase conditions, in BLANKED, HOLD and HALTED. -/
theorem witness_boundary :
    let f := fun x => (deskWith fun st => { st with tracker := lockedAt 5538816, runner := chasing x [] }).floor
    let auto := (f .chasing).modRunner 2 fun r => { r with mode := .auto }
    let hour : Floor := { auto with reels := [(0, { reel12 .reelOpened [0] with number := 1 })] }
    let other : Floor := { f .chasing with reels := [(0, { reel12 .reelOpened [0] with rate := .fps25 })] }
    (auto.runner 2).mode = .auto ∧ (labelOf (auto.tracker 2).rate (auto.tracker 2).position).hours = 1 ∧
    (∀ reel, hour.reel 0 = some reel → reel.state = .reelOpened ∧ reel.number = 1) ∧ Table.WF 32 hour.reels ∧
    (∀ reel, other.reel 0 = some reel → reel.state = .reelOpened ∧ reel.rate ≠ (other.tracker 2).rate) ∧
    ((f .standby).runner 2).state = .standby ∧ ((f .standby).tracker 2).state = .locked ∧
    ((f .standby).tracker 2).direction = .forward ∧
    (((f .standby).modTracker 2 fun t => { t with direction := .reverse }).tracker 2).direction = .reverse ∧
    (((f .standby).modRunner 2 fun r => { r with selected := none }).runner 2).selected = none ∧
    ((f .blanked).runner 2).state = .blanked ∧ ((f .hold).runner 2).state = .hold ∧
    ((f .halted).runner 2).state = .halted := by decide +kernel

theorem witness_jump :
    let f := (rolling 5545000 .punched Path.reset).floor
    (f.runner 2).state.working = true ∧ ((f.runner 2).runs.map Run.handle).Nodup ∧
    (f.faults 2).jumpInCue = .report ∧ cueA.armPoint ≤ 5538816 ∧ 5544575 < cueA.punchInPoint ∧
    (f.runner 2).lastPosition = 0 ∧ (f.cue 0).isSome = true ∧ (desk.floor.runner 2).state.working = false := by decide +kernel

/-- R129, R147: a jump out of a run in SWEEP under mode HALT aborts the runs it would keep; the monitor unit counts it. -/
theorem test_jump_halts :
    let c : Counter := { Counter.reset with stage := 2, source := .jumps, enabled := true, value := 4294967295 }
    let s := (rolling 5540000 .unpunched Path.reset).floor
    let m : Monitor := { s.monitor with counters := s.monitor.counters.set 0 c }
    let f : Floor := { (s.modFaults 2 fun x => { x with jumpInCue := .halt }) with monitor := m }
    let g := f.jump 2 5540000
    (f.faults 2).jumpInCue ≠ .report ∧ (f.faults 2).jumpInCue ≠ .ignore ∧
    ((f.runner 2).runs.any fun x => x.phase != .armed) = true ∧ (f.stage 2).path.state = .free ∧
    (f.tracker 2).position = 5540000 ∧ (g.runner 2).state = .halted ∧ (g.runner 2).runs = [] ∧
    g.monitor.counters[(0 : Fin 8)].value = 4294967295 := by decide +kernel

/-- R175: a run that a jump keeps holds no flash mark. -/
theorem test_jump_unmarks :
    let f := ((rolling 5545000 .unpunched Path.reset).floor.modOverlay 2 fun o => { o with flashMarks := [0] }).jump 2 5540000
    (f.runner 2).runs.map Run.handle = [0] ∧ (f.overlay 2).flashMarks = [] := by decide +kernel

/-- The clauses of TALKBACK: paths FREE, TALK with and without a gap length, GAP, PROTECTED and RECORD. -/
theorem witness_talkback :
    let stage := fun (path : Path) => ((rolling 5545000 .unpunched path).floor.stage 2)
    desk.Receives ∧ readRequest none parseStageValue (.window [2, 2, 1]) = .ok ⟨2, 1⟩ ∧
    readRequest none parseStageValue (.window [2, 2, 0]) = .ok ⟨2, 0⟩ ∧ (desk.floor.stage 2).PathTable ∧
    (stage { Path.reset with state := .talk, talkWanted := true }).PathTable ∧
    (stage { Path.reset with state := .gap, gapExpiry := some 9 }).PathTable ∧
    (stage { Path.reset with state := .protected_, demand := true }).PathTable ∧
    (stage { Path.reset with state := .record, demand := true }).PathTable ∧
    32 * Rate.fps24.nominal / 64 ≠ 0 ∧ 0 * Rate.fps24.nominal / 64 = 0 := by
  refine ⟨desk_receives, rfl, rfl, ?_, ?_, ?_, ?_, ?_, by decide, by decide⟩ <;> constructor <;> decide +kernel

theorem witness_gap :
    desk.Receives ∧ readRequest none parseStageValue (.window [2, 2, 255]) = .ok ⟨2, 255⟩ ∧
    ((rolling 0 .waiting { Path.reset with state := .protected_, gapExpiry := some 7 }).floor.path 2).gapExpiry = some 7 ∧
    ((rolling 0 .unpunched { Path.reset with state := .gap, gapExpiry := some 7 }).floor.path 2).state = .gap ∧
    (∃ r ∈ ((rolling 0 .waiting Path.reset).floor.runner 2).runs, r.punch ≠ .unpunched) ∧
    (∀ r ∈ ((rolling 0 .unpunched Path.reset).floor.runner 2).runs, r.punch = .unpunched) ∧
    (desk.floor.runner 2).recordMode = .rehearse ∧ (desk.floor.path 2).state ≠ .protected_ ∧
    (desk.floor.path 2).state ≠ .record :=
  ⟨desk_receives, rfl, rfl, rfl, by decide +kernel, by decide +kernel, rfl, by decide +kernel, by decide +kernel⟩

/-- PATH_SET in RECORD mode: a claim made; a run before and one past the pre-emption point of the new gap. -/
theorem witness_pathSet :
    let s := fun p => (rolling p .unpunched Path.reset).floor
    let claimed := (rolling 5545000 .punched { Path.reset with state := .record, demand := true }).floor
    (claimed.runner 2).recordMode = .record ∧ (∃ y ∈ (claimed.runner 2).runs, y.punch ≠ .unpunched) ∧
    (claimed.path 2).state = .record ∧ (claimed.path 2).demand = true ∧
    ((s 5544000).runner 2).recordMode = .record ∧ (∀ y ∈ ((s 5544000).runner 2).runs, y.punch = .unpunched) ∧
    ((s 5544000).tracker 2).position < cueA.preemptionPoint 255 ∧
    cueA.preemptionPoint 255 ≤ ((s 5544570).tracker 2).position ∧ ((s 5544570).tracker 2).position < cueA.punchInPoint ∧
    ((rolling 5544000 .unpunched { Path.reset with state := .protected_, demand := true }).floor.path 2).state = .protected_ := by
  decide +kernel

theorem witness_faults :
    desk.Receives ∧ readRequest none parse1 (.window [1, 2]) = .ok (2 : Fin 4).val ∧
    ((deskWith fun st => { st with runner := chasing .hold [] }).floor.runner 2).state = .hold ∧
    (desk.floor.runner 2).state ≠ .hold ∧ (desk.floor.runner 2).state ≠ .halted ∧
    readRequest (some 4) parseFaultSet (.window [5, 0, 9, 2, 4, 0]) = .ok ⟨2, some 4, none, none, some 0⟩ ∧
    givenCode ResponseMode.ofCode (some 4) = .ok (some .ignore) :=
  ⟨desk_receives, by decide +kernel⟩

theorem witness_notices :
    desk.Receives ∧ readRequest none parseNoticeMask (.window [6, 2, 3, 5, 15, 7, 1]) = .ok ⟨[⟨3, 5⟩, ⟨15, 7⟩], 1⟩ ∧
    readRequest none parseNotices (.window [5, 2, 3, 5, 15, 7]) = .ok [⟨3, 5⟩, ⟨15, 7⟩] ∧
    [(⟨3, 5⟩ : NoticeName), ⟨15, 7⟩].Nodup ∧
    [(⟨3, 5⟩ : NoticeName), ⟨15, 7⟩].mapM noticeOfName = some [.ofStage 3 .latePunch, .reelClosed] :=
  ⟨desk_receives, rfl, rfl, by decide, by decide⟩

/-- The runner states and modes of the table of R146. -/
theorem witness_occurrence :
    (desk.floor.runner 2).state = .offline ∧ ((rolling 0 .punched Path.reset).floor.runner 2).state ≠ .offline ∧
    ((rolling 0 .punched Path.reset).floor.runner 2).state.working = true ∧
    (FaultModes.reset.mode .offSpeed) = .resumeFast ∧ (FaultModes.reset.mode .rateMismatch) = .halt ∧
    (FaultModes.reset.mode .dropout) = .report ∧ (FaultModes.mode ⟨.ignore, .resumeSlow, .halt, .report⟩ .dropout) = .ignore ∧
    (chasing .standby []).state = .standby ∧ (chasing .hold []).state = .hold ∧ (chasing .halted []).state = .halted := by
  decide +kernel

theorem witness_lines :
    desk.Receives ∧ readRequest none parseBankSet (.window [3, 3, 1, 2]) = .ok ⟨3, 1, 2⟩ ∧
    BankMode.ofCode 1 = some .routed ∧
    readRequest (some 3) parseLineSet (.window [8, 0, 7, 22, 11, 3, 5, 1, 0]) = .ok ⟨22, some ⟨11, 3, 5⟩, some 1, some 0⟩ ∧
    lineSourceOf ⟨11, 3, 5⟩ = some (.podiumBicolour 3 5) ∧ givenCode Drive.ofCode (some 1) = .ok (some .openDrain) ∧
    givenCode Polarity.ofCode (some 0) = .ok (some .normal) ∧ sourceFits 22 (.podiumBicolour 3 5) = true :=
  ⟨desk_receives, by decide +kernel⟩

/-- A DEDICATED bank, an unpaired line of a ROUTED one, and a bicolour pair of it. -/
theorem witness_levels :
    desk.banks[lineBank 23] = ⟨.dedicated, 3⟩ ∧ (held desk).resetHeld = true ∧ desk.resetHeld = false ∧
    (let s : State := { desk with banks := strapBanks 3, lines := (desk.lines.set 22
        { Line.reset with source := .podiumBicolour 3 5 }).set 21 { Line.reset with source := .attention } }
     s.banks[lineBank 22].mode = .routed ∧ s.lines[(22 : Fin 24)].source = .podiumBicolour 3 5 ∧
     (23 : Fin 24).val = (22 : Fin 24).val + 1 ∧ (20 : Fin 24).val = (21 : Fin 24).val - (21 : Fin 24).val % 2 ∧
     s.lines[(20 : Fin 24)].source = .constantInactive ∧ s.lines[(21 : Fin 24)].source = .attention) := by decide +kernel

theorem witness_packets :
    desk.Receives ∧ readRequest none parseStageValue (.window [2, 2, 64]) = .ok ⟨2, 64⟩ ∧
    (let s := deskWith fun st => { st with overlay := { st.overlay with
      inProgress := some ⟨[0xC7], 5⟩, waiting := some ⟨[0xC7], [0]⟩ } }
     (s.floor.overlay 2).inProgress = some ⟨[0xC7], 5⟩ ∧ (s.floor.overlay 2).waiting = some ⟨[0xC7], [0]⟩) :=
  ⟨desk_receives, rfl, rfl, rfl⟩

/-- R170: the line while the byte 0xC7 of a packet is sent: start bit, bit 0, bit 3, stop bit; past the end, before the start. -/
theorem test_overlayLine :
    let s := fun start : Nat => ({ desk with floor := { desk.floor.modOverlay 2 (fun o =>
      { o with inProgress := some ⟨[0xC7], start⟩ }) with now := 1000000 } } : State)
    ([1000000, 999988, 999952, 999892, 999880, 1000001].map fun start => (s start).overlayLine 2) =
      [false, true, false, true, true, true] ∧
    (s 999952).floor.now = 999952 + 120 * 0 + 12 * 4 + 0 ∧ ([0xC7] : List Byte)[0]? = some 0xC7 := by decide +kernel

/-- A packet point at an IDLE and at a SENDING transmitter, a value that is none, and a frame that was sent last. -/
theorem witness_packetPoint :
    let sending := deskWith fun st => { st with overlay := { st.overlay with inProgress := some ⟨[0xC7], 5⟩ } }
    let sent := deskWith fun st => { st with overlay := { st.overlay with lastFrame := some 9 } }
    (desk.floor.overlay 2).phase = 32 ∧ 33 < 64 ∧ (desk.floor.overlay 2).lastFrame ≠ some 9 ∧
    (desk.floor.overlay 2).inProgress = none ∧ (sending.floor.overlay 2).inProgress ≠ none ∧
    (sending.floor.overlay 2).lastFrame ≠ some 9 ∧ (sent.floor.overlay 2).lastFrame = some 9 := by decide +kernel

/-- R172, R177: at the packet point an IDLE transmitter starts at once, and the same frame is not sent again. -/
theorem test_packetPoint :
    let f := (rolling (86628 * 64 + 31) .unpunched Path.reset).floor.forwardMove 2 (86628 * 64 + 32)
    (f.overlay 2).lastFrame = some 86628 ∧ (f.overlay 2).inProgress.map Sending.start = some 1000000 ∧
    ((f.packetPoint 2 (86628 * 64 + 32)).overlay 2).waiting = none := by decide +kernel

theorem witness_monitor :
    desk.Receives ∧ readRequest none parseMonConfig (.window [9, 7, 1, 3, 10, 3, 4, 8, 1, 1]) = .ok ⟨7, 1, 3, 10, 3, 4, 8, 1, 1⟩ ∧
    CounterSource.ofCode 10 = some .rateMismatches ∧ filterOfCode 4 = some none ∧
    readRequest none parseCounters (.window [3, 2, 0, 7]) = .ok [0, 7] ∧ readRequest none parse1 (.window [1, 1]) = .ok 1 ∧
    readRequest (some 4) parseBands (.window [6, 0, 9, 0, 0, 0x4E, 0x21]) = .ok [(0, 0), (3, 20001)] ∧
    ([(0, 0), (3, 20001)].map (·.1)).Nodup := ⟨desk_receives, by decide +kernel⟩

/-- A counter of stage 2 with a condition, one with an amount, one that no boundary counts, one of another stage. -/
theorem witness_counters :
    let f : CounterSource → Floor := fun src =>
      let c : Counter := { Counter.reset with stage := 2, source := src, enabled := true }
      let m : Monitor := { desk.floor.monitor with counters := desk.floor.monitor.counters.set 7 c }
      { desk.floor with monitor := m }
    (f .frames).monitor.counters[(7 : Fin 8)].stage = 2 ∧ (f .frames).monitor.counters[(0 : Fin 8)].stage ≠ 2 ∧
    (f .frames).monitor.counters[(7 : Fin 8)].source = .frames ∧ (f .frames).monitor.frozen = false ∧
    (f .frames).monitor.counters[(7 : Fin 8)].enabled = true ∧
    (f .runOccupancy).monitor.counters[(7 : Fin 8)].source = .runOccupancy ∧
    (f .runOccupancy).monitor.counters[(7 : Fin 8)].threshold = 0 ∧
    (f .jumps).monitor.counters[(7 : Fin 8)].source = .jumps := by decide +kernel

end Sys2Proof.Tests
end

section
/-! Positions: labels and frame indices convert into each other (R3 to R7). -/

namespace Sys2Proof.Machine

/-! ## Frame index and label at rate codes 0, 1, 2, 4 and 5 (R4, R6) -/

theorem Rate.base_pos (r : Rate) : 0 < r.base := by cases r <;> decide

/-- The frames of a day are 86,400 label seconds, but at rate code 3 (R1). -/
theorem Rate.framesPerDay_of_not_drop {r : Rate} (h : r ≠ .fps2997drop) : r.framesPerDay = 86400 * r.base := by
  cases r
  case fps2997drop => exact absurd rfl h
  all_goals rfl

/-- The formula of R4. -/
theorem Label.frameIndex_of_not_drop {r : Rate} (h : r ≠ .fps2997drop) (l : Label) :
    l.frameIndex r = ((l.hours * 60 + l.minutes) * 60 + l.seconds) * r.base + l.frames := by
  cases r
  case fps2997drop => exact absurd rfl h
  all_goals rfl

/-- The divisions of R6. -/
theorem Label.ofFrame_of_not_drop {r : Rate} (h : r ≠ .fps2997drop) (i : Nat) :
    Label.ofFrame r i = { hours := i / (3600 * r.base), minutes := i / (60 * r.base) % 60,
                          seconds := i / r.base % 60, frames := i % r.base } := by
  cases r
  case fps2997drop => exact absurd rfl h
  all_goals rfl

/-- The divisions of R6 are those of the label second, i / base. -/
theorem Label.ofFrame_eq_second {r : Rate} (h : r ≠ .fps2997drop) (i : Nat) :
    Label.ofFrame r i = { hours := i / r.base / 3600, minutes := i / r.base / 60 % 60,
                          seconds := i / r.base % 60, frames := i % r.base } := by
  rw [Label.ofFrame_of_not_drop h, Nat.div_div_eq_div_mul, Nat.div_div_eq_div_mul, Nat.mul_comm r.base 3600,
    Nat.mul_comm r.base 60]

/-- A label valid at a rate, spelled out (R3). -/
theorem Label.isValid_iff (r : Rate) (l : Label) :
    l.isValid r = true ↔ l.hours ≤ 23 ∧ l.minutes ≤ 59 ∧ l.seconds ≤ 59 ∧ l.frames < r.base ∧
      ¬(r = .fps2997drop ∧ l.seconds = 0 ∧ l.frames ≤ 1 ∧ l.minutes % 10 ≠ 0) := by
  simp only [Label.isValid, Label.isDropped, Bool.and_eq_true, decide_eq_true_eq, Bool.not_eq_true', beq_iff_eq,
    ← Bool.not_eq_true, bne_iff_ne, and_assoc]

/-! ## Frame index and label at rate code 3 (R5, R7)

Ten minutes are 17,982 frames: one minute of 1,800 labels and nine of 1,798. A frame index of the day is
17982 d + 1798 k + n, where d counts the ten minutes, k the minutes in them, and n is the place in the minute as the label
shows it, at least 2 in a minute that drops labels. -/

/-- The two steps of R7, in the ten minutes and the minute of the frame. -/
theorem Label.ofFrame_drop {d k n : Nat} (hk : k < 10) (hn : n < 1800) (hd : k = 0 ∨ 2 ≤ n) :
    Label.ofFrame .fps2997drop (17982 * d + 1798 * k + n) =
      ⟨(10 * d + k) / 60, (10 * d + k) % 60, n / 30, n % 30⟩ := by
  have hten : (17982 * d + 1798 * k + n) / 17982 = d := by omega
  have hrest : (17982 * d + 1798 * k + n) % 17982 = 1798 * k + n := by omega
  have hadj : (if 1798 * k + n < 2 then 18 * d else 18 * d + 2 * ((1798 * k + n - 2) / 1798)) = 18 * d + 2 * k := by
    split <;> omega
  simp only [Label.ofFrame, hten, hrest, hadj, Label.mk.injEq]
  omega

/-- The formula of R5, in the ten minutes and the minute of the label. -/
theorem Label.frameIndex_drop {d k n : Nat} (hk : k < 10) :
    Label.frameIndex .fps2997drop ⟨(10 * d + k) / 60, (10 * d + k) % 60, n / 30, n % 30⟩ =
      17982 * d + 1798 * k + n := by
  simp only [Label.frameIndex]
  omega

/-- Every frame index has a ten minutes, a minute and a place in it. -/
theorem exists_dropMinute_of_frame (i : Nat) :
    ∃ d k n, i = 17982 * d + 1798 * k + n ∧ k < 10 ∧ n < 1800 ∧ (k = 0 ∨ 2 ≤ n) :=
  if h : i % 17982 < 2 then ⟨i / 17982, 0, i % 17982, by omega⟩
  else ⟨i / 17982, (i % 17982 - 2) / 1798, (i % 17982 - 2) % 1798 + 2, by omega⟩

/-- Every valid label at rate code 3 has a ten minutes, a minute and a place in it. -/
theorem Label.exists_dropMinute {l : Label} (h : l.isValid .fps2997drop = true) :
    ∃ d k n, l = ⟨(10 * d + k) / 60, (10 * d + k) % 60, n / 30, n % 30⟩ ∧
      d < 144 ∧ k < 10 ∧ n < 1800 ∧ (k = 0 ∨ 2 ≤ n) := by
  obtain ⟨hh, hm, hs, hf, hd⟩ := (Label.isValid_iff _ _).1 h
  obtain ⟨hours, minutes, seconds, frames⟩ := l
  simp only [Rate.base, true_and] at hh hm hs hf hd
  refine ⟨(60 * hours + minutes) / 10, (60 * hours + minutes) % 10, 30 * seconds + frames, ?_, ?_⟩
  · simp only [Label.mk.injEq]; omega
  · omega

/-! ## There and back -/

/-- A frame index of the day converts to a valid label (R6, R7). -/
theorem Label.ofFrame_isValid (r : Rate) (i : Nat) (hi : i < r.framesPerDay) : (Label.ofFrame r i).isValid r = true := by
  rw [Label.isValid_iff]
  by_cases h : r = .fps2997drop
  · subst h
    obtain ⟨d, k, n, rfl, hk, hn, hd⟩ := exists_dropMinute_of_frame i
    rw [Label.ofFrame_drop hk hn hd]
    simp only [Rate.framesPerDay, Rate.base] at hi ⊢
    omega
  · rw [Label.ofFrame_eq_second h]
    have hmod := Nat.mod_lt i r.base_pos
    have hday : i / r.base < 86400 :=
      Nat.div_lt_of_lt_mul (by rw [Rate.framesPerDay_of_not_drop h, Nat.mul_comm] at hi; exact hi)
    refine ⟨?_, ?_, ?_, hmod, fun hr => h hr.1⟩ <;> simp only <;> omega

/-- A frame index converts to a label that converts back (R4 to R7). -/
theorem Label.frameIndex_ofFrame (r : Rate) (i : Nat) : (Label.ofFrame r i).frameIndex r = i := by
  by_cases h : r = .fps2997drop
  · subst h
    obtain ⟨d, k, n, rfl, hk, hn, hd⟩ := exists_dropMinute_of_frame i
    rw [Label.ofFrame_drop hk hn hd, Label.frameIndex_drop hk]
  · rw [Label.ofFrame_eq_second h, Label.frameIndex_of_not_drop h]
    have hsecond : (i / r.base / 3600 * 60 + i / r.base / 60 % 60) * 60 + i / r.base % 60 = i / r.base := by omega
    simp only [hsecond, Nat.div_add_mod']

/-- A valid label converts to a frame index of the day (R4, R5). -/
theorem Label.frameIndex_lt (r : Rate) (l : Label) (hl : l.isValid r = true) : l.frameIndex r < r.framesPerDay := by
  by_cases h : r = .fps2997drop
  · subst h
    obtain ⟨d, k, n, rfl, hday, hk, hn, hd⟩ := Label.exists_dropMinute hl
    rw [Label.frameIndex_drop hk]
    simp only [Rate.framesPerDay]
    omega
  · obtain ⟨hh, hm, hs, hf, -⟩ := (Label.isValid_iff _ _).1 hl
    rw [Label.frameIndex_of_not_drop h, Rate.framesPerDay_of_not_drop h]
    calc ((l.hours * 60 + l.minutes) * 60 + l.seconds) * r.base + l.frames
        < ((l.hours * 60 + l.minutes) * 60 + l.seconds) * r.base + r.base := Nat.add_lt_add_left hf _
      _ = ((l.hours * 60 + l.minutes) * 60 + l.seconds + 1) * r.base := (Nat.succ_mul _ _).symm
      _ ≤ 86400 * r.base := Nat.mul_le_mul_right _ (by omega)

/-- A valid label converts to a frame index that converts back (R4 to R7). -/
theorem Label.ofFrame_frameIndex (r : Rate) (l : Label) (hl : l.isValid r = true) :
    Label.ofFrame r (l.frameIndex r) = l := by
  by_cases h : r = .fps2997drop
  · subst h
    obtain ⟨d, k, n, rfl, hday, hk, hn, hd⟩ := Label.exists_dropMinute hl
    rw [Label.frameIndex_drop hk, Label.ofFrame_drop hk hn hd]
  · obtain ⟨hh, hm, hs, hf, -⟩ := (Label.isValid_iff _ _).1 hl
    rw [Label.frameIndex_of_not_drop h, Label.ofFrame_eq_second h]
    generalize hq : (l.hours * 60 + l.minutes) * 60 + l.seconds = q
    have hdiv : (q * r.base + l.frames) / r.base = q := by
      rw [Nat.mul_comm, Nat.mul_add_div r.base_pos, Nat.div_eq_of_lt hf, Nat.add_zero]
    have hmod : (q * r.base + l.frames) % r.base = l.frames := by
      rw [Nat.mul_add_mod', Nat.mod_eq_of_lt hf]
    rw [hdiv, hmod]
    obtain ⟨hours, minutes, seconds, frames⟩ := l
    simp only [Label.mk.injEq] at hh hm hs hq ⊢
    exact ⟨by omega, by omega, by omega, trivial⟩

/-- Settles O17: the label of a frame index is valid and converts back, by the divisions of R6 and the two steps of R7. -/
theorem frameIndexToLabelAndBack : Obligations.FrameIndexToLabelAndBack := by
  refine ⟨fun r i hi => ?_, fun r i h => Label.ofFrame_of_not_drop h i, ?_⟩
  · have hv := Label.ofFrame_isValid r i hi
    exact ⟨((Label.isValid_iff _ _).1 hv).1, hv, Label.frameIndex_ofFrame r i⟩
  · rintro i d m adj c rfl rfl hlow hhigh rfl
    have hadj : adj = if i % 17982 < 2 then 18 * (i / 17982)
        else 18 * (i / 17982) + 2 * ((i % 17982 - 2) / 1798) := by
      split
      · exact hlow ‹_›
      · exact hhigh (by omega)
    rw [hadj]
    rfl

/-- Settles O18: the frame index of a valid label is of the day and converts back, by the formulas of R4 and R5. -/
theorem labelToFrameIndexAndBack : Obligations.LabelToFrameIndexAndBack := by
  refine ⟨fun r l hl => ⟨Label.frameIndex_lt r l hl, Label.ofFrame_frameIndex r l hl⟩,
    fun r l h => Label.frameIndex_of_not_drop h l, ?_⟩
  rintro l total rfl -
  simp only [Label.frameIndex]
  omega

end Sys2Proof.Machine
end

section
/-! Timelines: the points of a cue, their order, the beep gates, the phases, the streamer position (R11 to R20); timing
values moved to the nearer limit (R26). -/

namespace Sys2Proof.Machine

variable (f : CueFields)

/-! ## Beeps and the first sound (R14, R15) -/

/-- A beep is kept where its start is no negative value, and then starts there (R14). -/
theorem CueFields.beepStart_eq_some (k b : Nat) :
    f.beepStart k = some b ↔ (b : Int) = f.inPoint - 64 * (k : Int) * f.timing.beepSpacing := by
  have hcast : ((64 * k * f.timing.beepSpacing : Nat) : Int) = 64 * (k : Int) * f.timing.beepSpacing := by push_cast; rfl
  rw [← hcast]
  unfold CueFields.beepStart
  generalize 64 * k * f.timing.beepSpacing = back
  split
  · rw [Option.some.injEq]; omega
  · simp only [reduceCtorEq, false_iff]; omega

/-- The beep gate is asserted within the intervals of the kept beeps (R14, R124). -/
theorem CueFields.beepGate_iff (p : Nat) :
    f.beepGate p = true ↔ ∃ k b, 1 ≤ k ∧ k ≤ f.timing.beepCount ∧ f.beepStart k = some b ∧
      b ≤ p ∧ p < b + 64 * f.timing.beepLength := by
  have hopen : ∀ o : Option Nat,
      (match o with
       | some b => decide (b ≤ p) && decide (p < b + 64 * f.timing.beepLength)
       | none => false) = true ↔ ∃ b, o = some b ∧ b ≤ p ∧ p < b + 64 * f.timing.beepLength := by
    intro o
    cases o <;> simp
  simp only [CueFields.beepGate, List.any_eq_true, List.mem_range]
  constructor
  · rintro ⟨k, hk, hb⟩
    obtain ⟨b, hb⟩ := (hopen _).1 hb
    exact ⟨k + 1, b, by omega, hk, hb⟩
  · rintro ⟨k, b, hk, hn, hb⟩
    obtain ⟨j, rfl⟩ : ∃ j, k = j + 1 := ⟨k - 1, by omega⟩
    exact ⟨j, hn, (hopen _).2 ⟨b, hb⟩⟩

/-- The lesser of a value and a beep start, where the beep is kept. -/
def CueFields.orBeep (least k : Nat) : Nat :=
  match f.beepStart (k + 1) with
  | some b => min least b
  | none => least

/-- Beeps lower a least value to the least of it and their starts. -/
theorem CueFields.foldl_orBeep_spec (l : List Nat) (least : Nat) :
    l.foldl f.orBeep least ≤ least ∧ (∀ k ∈ l, ∀ b, f.beepStart (k + 1) = some b → l.foldl f.orBeep least ≤ b) ∧
      (l.foldl f.orBeep least = least ∨ ∃ k ∈ l, f.beepStart (k + 1) = some (l.foldl f.orBeep least)) := by
  induction l generalizing least with
  | nil => simp
  | cons k l ih =>
    obtain ⟨hle, hall, heq⟩ := ih (f.orBeep least k)
    have hstep : f.orBeep least k ≤ least ∧ (∀ b, f.beepStart (k + 1) = some b → f.orBeep least k ≤ b) ∧
        (f.orBeep least k = least ∨ f.beepStart (k + 1) = some (f.orBeep least k)) := by
      unfold CueFields.orBeep
      cases f.beepStart (k + 1) with
      | none => simp
      | some b =>
        simp only [Option.some.injEq, forall_eq']
        omega
    obtain ⟨hle', hall', heq'⟩ := hstep
    simp only [List.foldl_cons, List.mem_cons, forall_eq_or_imp, exists_eq_or_imp]
    refine ⟨hle.trans hle', ⟨fun b hb => hle.trans (hall' b hb), hall⟩, ?_⟩
    rcases heq with heq | heq
    · rw [heq]; exact heq'.imp id .inl
    · exact .inr (.inr heq)

/-- The first sound is the least of the streamer start and the starts of the kept beeps (R15). -/
theorem CueFields.firstSound_spec :
    f.firstSound ≤ f.streamerStart ∧
      (∀ k b, 1 ≤ k → k ≤ f.timing.beepCount → f.beepStart k = some b → f.firstSound ≤ b) ∧
      (f.firstSound = f.streamerStart ∨
        ∃ k, 1 ≤ k ∧ k ≤ f.timing.beepCount ∧ f.beepStart k = some f.firstSound) := by
  have hfold : f.firstSound = (List.range f.timing.beepCount).foldl f.orBeep f.streamerStart := rfl
  obtain ⟨hle, hall, heq⟩ := f.foldl_orBeep_spec (List.range f.timing.beepCount) f.streamerStart
  rw [← hfold] at hle hall heq
  simp only [List.mem_range] at hall heq
  refine ⟨hle, fun k b hk hn hb => ?_, heq.imp id fun ⟨k, hk, hb⟩ => ⟨k + 1, by omega, hk, hb⟩⟩
  obtain ⟨j, rfl⟩ : ∃ j, k = j + 1 := ⟨k - 1, by omega⟩
  exact hall j hn b hb

/-! ## Phases and the streamer position (R19, R20) -/

/-- The phases are the intervals of the points (R19). -/
theorem CueFields.phaseAt_iff (hin : f.inPoint < f.outPoint) (p : Nat) :
    (f.phaseAt p = .armed ↔ p < f.streamerStart) ∧
    (f.phaseAt p = .sweep ↔ f.streamerStart ≤ p ∧ p < f.inPoint) ∧
    (f.phaseAt p = .speaking ↔ f.inPoint ≤ p ∧ p < f.outPoint) ∧ (f.phaseAt p = .tail ↔ f.outPoint ≤ p) := by
  have hs : f.streamerStart ≤ f.inPoint := Nat.sub_le _ _
  unfold CueFields.phaseAt
  split_ifs
  all_goals simp only [true_iff, false_iff]; omega

/-- Within the streamer interval the quotient of R20 is at most 1023, and so is the streamer position. -/
theorem CueFields.streamerPosition_eq (p : Nat) (hs : f.streamerStart ≤ p) (hp : p < f.inPoint) :
    f.streamerPosition p = (p - f.streamerStart) * 1024 / (f.inPoint - f.streamerStart) ∧
      f.streamerPosition p ≤ 1023 := by
  have hlt : (p - f.streamerStart) * 1024 / (f.inPoint - f.streamerStart) < 1024 :=
    Nat.div_lt_of_lt_mul (by omega)
  unfold CueFields.streamerPosition
  omega

/-! ## The timeline -/

/-- The points are those of R13 to R18. -/
theorem CueFields.points (r : Rate) (g : Nat) :
    let i : Int := f.inPoint
    let beep := fun k : Nat => i - 64 * (k : Int) * f.timing.beepSpacing
    let kept := fun k : Nat => 1 ≤ k ∧ k ≤ f.timing.beepCount ∧ 0 ≤ beep k
    (f.streamerStart : Int) = max (i - 64 * f.timing.lead) 0 ∧
    (∀ p, f.beepGate p = true ↔ ∃ k, kept k ∧ beep k ≤ p ∧ (p : Int) < beep k + 64 * f.timing.beepLength) ∧
    (f.firstSound ≤ f.streamerStart ∧ (∀ k, kept k → (f.firstSound : Int) ≤ beep k) ∧
      (f.firstSound = f.streamerStart ∨ ∃ k, kept k ∧ (f.firstSound : Int) = beep k)) ∧
    (f.armPoint : Int) = 64 * (max ((f.firstSound : Int) - 64 * f.timing.preRoll) 0 / 64) ∧
    (f.punchInPoint : Int) = max (i - 64 * f.timing.punchIn) 0 ∧
    f.punchOutPoint r = min (f.outPoint + 64 * f.timing.punchOut) (64 * r.framesPerDay - 1) ∧
    (f.preemptionPoint g : Int) = max ((f.punchInPoint : Int) - (g + (g + 7) / 8)) 0 := by
  intro i beep kept
  have hstart : ∀ k, kept k → ∃ b : Nat, (b : Int) = beep k ∧ f.beepStart k = some b := fun k hk =>
    have hb : ((beep k).toNat : Int) = beep k := Int.toNat_of_nonneg hk.2.2
    ⟨(beep k).toNat, hb, (f.beepStart_eq_some k _).2 hb⟩
  have hkept : ∀ k b, 1 ≤ k → k ≤ f.timing.beepCount → f.beepStart k = some b → kept k ∧ (b : Int) = beep k :=
    fun k b hk hn hb =>
      have hb : (b : Int) = beep k := (f.beepStart_eq_some k b).1 hb
      ⟨⟨hk, hn, by omega⟩, hb⟩
  obtain ⟨hle, hall, heq⟩ := f.firstSound_spec
  refine ⟨?_, fun p => ?_, ⟨hle, fun k hk => ?_, heq.imp id ?_⟩, ?_, ?_, rfl, ?_⟩
  · simp only [CueFields.streamerStart]; omega
  · rw [f.beepGate_iff]
    constructor
    · rintro ⟨k, b, hk, hn, hb, hp⟩
      obtain ⟨hk, hb⟩ := hkept k b hk hn hb
      exact ⟨k, hk, by omega⟩
    · rintro ⟨k, hk, hp⟩
      obtain ⟨b, hb, hb'⟩ := hstart k hk
      exact ⟨k, b, hk.1, hk.2.1, hb', by omega⟩
  · obtain ⟨b, hb, hb'⟩ := hstart k hk
    have := hall k b hk.1 hk.2.1 hb'
    omega
  · rintro ⟨k, hk, hn, hb⟩
    exact ⟨k, hkept k _ hk hn hb⟩
  · simp only [CueFields.armPoint]; omega
  · simp only [CueFields.punchInPoint]; omega
  · simp only [CueFields.preemptionPoint]; omega

/-- The beep gates lie within [F, I - 64] (R14, R19). -/
theorem CueFields.beepGate_within (hb : f.timing.beepLength < f.timing.beepSpacing) (p : Nat) (hp : f.beepGate p = true) :
    f.firstSound ≤ p ∧ p + 64 < f.inPoint := by
  obtain ⟨k, b, hk, hn, hstart, hbp, hpb⟩ := (f.beepGate_iff p).1 hp
  obtain ⟨-, hall, -⟩ := f.firstSound_spec
  have hspacing : f.timing.beepSpacing ≤ k * f.timing.beepSpacing := Nat.le_mul_of_pos_left _ hk
  have hin : (b : Int) = f.inPoint - 64 * ((k * f.timing.beepSpacing : Nat) : Int) := by
    rw [(f.beepStart_eq_some k b).1 hstart]; push_cast; ring
  exact ⟨(hall k b hk hn hstart).trans hbp, by omega⟩

/-- Settles O19: the points by the formulas of R13 to R18, their order of R19, the beep gates, the phases and the streamer
position of R20. -/
theorem timelinePointsAreOrdered : Obligations.TimelinePointsAreOrdered := by
  refine ⟨fun r f g => f.points r g, fun r f hlead hbeep hpunch hspan hout => ?_⟩
  obtain ⟨hle, -, -⟩ := f.firstSound_spec
  have hphase := f.phaseAt_iff hspan
  refine ⟨?_, hle, ?_, Nat.sub_le _ _, ?_, Nat.min_le_right _ _, Nat.mul_mod_right _ _, f.beepGate_within hbeep,
    fun p => (hphase p).1, fun p => (hphase p).2.1, fun p => (hphase p).2.2.1, fun p => (hphase p).2.2.2,
    f.streamerPosition_eq⟩
  · simp only [CueFields.armPoint]; omega
  · simp only [CueFields.streamerStart, CueFields.punchInPoint]; omega
  · simp only [CueFields.punchOutPoint]; omega

/-! ## Fitted timing values (R26) -/

/-- A fitted value lies in its range; one that lies there is kept, one outside moves to the nearer limit. -/
theorem fit_spec {lo hi : Nat} (h : lo ≤ hi) (n : Nat) :
    lo ≤ fit lo hi n ∧ fit lo hi n ≤ hi ∧ (lo ≤ n → n ≤ hi → fit lo hi n = n) ∧ (n < lo → fit lo hi n = lo) ∧
      (hi < n → fit lo hi n = hi) := by
  unfold fit
  omega

/-- Settles O20: each field of R26 is a fitted value in its own range; the ranges of the beep length and of the punch-in
lead follow the fitted spacing and the fitted lead. -/
theorem fittedTimingLiesInRange : Obligations.FittedTimingLiesInRange := by
  refine ⟨fun g t => ?_, fun t => ?_⟩
  · obtain ⟨lead, beepCount, beepSpacing, beepLength, preRoll, punchIn, punchOut⟩ := g
    simp only [askedTiming, Timing.mk.injEq]
    refine ⟨?_, ?_, ?_, ?_, ?_, ?_, ?_⟩
    · cases lead <;> rfl
    · cases beepCount <;> rfl
    · cases beepSpacing <;> rfl
    · cases beepLength <;> rfl
    · cases preRoll <;> rfl
    · cases punchIn <;> rfl
    · cases punchOut <;> rfl
  · obtain ⟨lead1, lead2, lead3, lead4, lead5⟩ := fit_spec (lo := 12) (hi := 240) (by decide) t.lead
    obtain ⟨-, count2, count3, -, count5⟩ := fit_spec (Nat.zero_le 3) t.beepCount
    obtain ⟨spacing1, spacing2, spacing3, spacing4, spacing5⟩ :=
      fit_spec (lo := 6) (hi := 60) (by decide) t.beepSpacing
    obtain ⟨length1, length2, length3, length4, length5⟩ :=
      fit_spec (lo := 1) (hi := min 6 (t.fitted.beepSpacing - 1)) (le_min (by decide) (Nat.le_sub_one_of_lt
        (Nat.lt_of_lt_of_le (by decide) spacing1))) t.beepLength
    obtain ⟨-, roll2, roll3, -, roll5⟩ := fit_spec (Nat.zero_le 120) t.preRoll
    obtain ⟨-, in2, in3, -, in5⟩ := fit_spec (Nat.zero_le (min 48 t.fitted.lead)) t.punchIn
    obtain ⟨-, out2, out3, -, out5⟩ := fit_spec (Nat.zero_le 96) t.punchOut
    exact ⟨⟨lead1, lead2⟩, count2, ⟨spacing1, spacing2⟩, ⟨length1, length2⟩, roll2, in2, out2, lead3, lead4, lead5,
      count3 (Nat.zero_le _), count5, spacing3, spacing4, spacing5, length3, length4, length5,
      roll3 (Nat.zero_le _), roll5, in3 (Nat.zero_le _), in5, out3 (Nat.zero_le _), out5⟩

end Sys2Proof.Machine
end

section
/-! Requests at their owner: what the shared checks of the stores answer (R9, R12, R21, R24, R25, R47), and what a request
that the port takes comes to once its owner has answered. -/

namespace Sys2Proof.Machine

/-! ## Checks in sequence -/

@[simp] theorem except_ok_bind {ε α β : Type} (a : α) (k : α → Except ε β) : (Except.ok a >>= k) = k a := rfl
@[simp] theorem except_error_bind {ε α β : Type} (e : ε) (k : α → Except ε β) : (Except.error e >>= k) = .error e := rfl

/-! ## The answer at handover -/

variable (s : State)

@[simp] theorem State.handover_refuse (h : s.Receives) (code : Byte) (st : Status) :
    s.handover.refuse code st = s.replied code st [] := s.handover_respond code h st []

/-- A request carried out at handover with a change of the floor. -/
@[simp] theorem State.handover_modFloor_respond (h : s.Receives) (g : Floor → Floor) (code : Byte) (st : Status)
    (p : List Byte) : (s.handover.modFloor g).respond code st p = s.carriedOut (g s.floor) code st p := by
  rcases h with h | h
  · simp [State.handover, h, State.windowEnded, State.respond, State.carriedOut, State.replied, State.modFloor]
  · simp [State.handover, h.1, State.respond, State.carriedOut, State.replied, State.modFloor]

/-- A store operation accepted at handover. -/
@[simp] theorem State.handover_beginOperation (h : s.Receives) (op : StoreOp) :
    s.handover.beginOperation op = s.accepted op := by
  rcases h with h | h
  · simp [State.handover, h, State.windowEnded, State.beginOperation, State.accepted]
  · simp [State.handover, h.1, State.beginOperation, State.accepted]

/-- A store operation accepted at handover, with a change of the floor. -/
@[simp] theorem State.handover_modFloor_beginOperation (h : s.Receives) (g : Floor → Floor) (op : StoreOp) :
    (s.handover.modFloor g).beginOperation op = ({ s with floor := g s.floor } : State).accepted op := by
  rcases h with h | h
  · simp [State.handover, h, State.windowEnded, State.beginOperation, State.accepted, State.modFloor]
  · simp [State.handover, h.1, State.beginOperation, State.accepted, State.modFloor]

/-! ## Labels and characters (R24, R25) -/

theorem numberOk_iff (n : Nat) : numberOk n = true ↔ 1 ≤ n ∧ n ≤ 9999 := by simp [numberOk]

/-- A suffix is 0 for none, or a letter's code (R24). -/
theorem suffixOf_isSome_iff (n : Nat) : (suffixOf n).isSome = true ↔ n = 0 ∨ 0x41 ≤ n ∧ n ≤ 0x5A := by
  unfold suffixOf
  split_ifs <;> simp [*]

/-- A character list of 1 to 4 distinct DEFINED characters passes (R25). -/
theorem Floor.checkCharacters_ok {f : Floor} {ids : List Nat} (hlist : 1 ≤ ids.length ∧ ids.length ≤ 4 ∧ ids.Nodup)
    (hdef : ∀ id ∈ ids, id < 64 ∧ (f.character id).isSome = true) : f.checkCharacters ids = .ok () := by
  have hall : (ids.all fun id => decide (id < Config.characterCount) && (f.character id).isSome) = true := by
    simp only [List.all_eq_true, Bool.and_eq_true, decide_eq_true_eq]
    exact hdef
  simp [Floor.checkCharacters, hlist, hall]

/-- A list of another length, or with one character twice, is BAD_CHARACTERS (R25). -/
theorem Floor.checkCharacters_bad {f : Floor} {ids : List Nat} (h : ¬(1 ≤ ids.length ∧ ids.length ≤ 4 ∧ ids.Nodup)) :
    f.checkCharacters ids = .error .badCharacters := by
  have hlist : (decide (1 ≤ ids.length) && decide (ids.length ≤ 4) && decide ids.Nodup) = false := by
    rw [← Bool.not_eq_true]; simpa [and_assoc] using h
  simp [Floor.checkCharacters, hlist]

/-- A list that names a character that is not DEFINED is UNKNOWN_CHARACTER (R25). -/
theorem Floor.checkCharacters_unknown {f : Floor} {ids : List Nat}
    (hlist : 1 ≤ ids.length ∧ ids.length ≤ 4 ∧ ids.Nodup)
    (h : ¬∀ id ∈ ids, id < 64 ∧ (f.character id).isSome = true) : f.checkCharacters ids = .error .unknownCharacter := by
  have hall : (ids.all fun id => decide (id < Config.characterCount) && (f.character id).isSome) = false := by
    simp only [← Bool.not_eq_true, List.all_eq_true, Bool.and_eq_true, decide_eq_true_eq]
    exact h
  simp [Floor.checkCharacters, hlist, hall]

/-- A live cue is found in the table under its handle, and nowhere else (R21). -/
theorem Table.find_eq_some_iff {α : Type} {n : Nat} {t : List (Nat × α)} (h : Table.WF n t) (k : Nat) (v : α) :
    Table.find k t = some v ↔ (k, v) ∈ t := by
  have hs := h.1
  clear h
  induction t with
  | nil => simp
  | cons e t ih =>
    obtain ⟨he, ht⟩ := List.pairwise_cons.1 hs
    obtain ⟨j, w⟩ := e
    rw [Table.find_cons, List.mem_cons, Prod.mk.injEq]
    by_cases hj : j = k
    · have hnot : (k, v) ∉ t := fun hm => absurd (he _ hm) (by simp [hj])
      simp [hj, hnot, eq_comm]
    · simp [hj, ih ht, Ne.symm hj]

/-- A label is taken where a live cue of the reel, other than the one that an edit names, has its number and suffix
(R24). -/
theorem Floor.labelTaken_iff {f : Floor} {n : Nat} (h : Table.WF n f.cues) (slot number : Nat)
    (suffix besides : Option Nat) :
    f.labelTaken slot number suffix besides = true ↔ ∃ h c, f.cue h = some c ∧ c.reel = slot ∧
      c.fields.number = number ∧ c.fields.suffix = suffix ∧ besides ≠ some h := by
  simp only [Floor.labelTaken, Floor.cue, Table.find_eq_some_iff h, List.any_eq_true, Bool.and_eq_true, beq_iff_eq,
    bne_iff_ne, Prod.exists, and_assoc, ne_comm]

/-! ## Positions and spans (R9, R12) -/

/-- A position given is valid where its label is one of the rate and its subframe at most 63 (R9). -/
theorem positionValue_valid {r : Rate} {p : PositionField} (hl : (fieldLabel p).isValid r = true) (hs : p.subframe ≤ 63) :
    positionValue r p = some (64 * (fieldLabel p).frameIndex r + p.subframe) := by
  simp [positionValue, hl, hs, Nat.mul_comm]

theorem positionValue_invalid {r : Rate} {p : PositionField} (h : ¬((fieldLabel p).isValid r = true ∧ p.subframe ≤ 63)) :
    positionValue r p = none := by
  simpa [positionValue] using h

theorem checkSpan_ok {i o : Nat} (h : i < o) : checkSpan i o = .ok (min o (i + 460800)) := by
  rw [checkSpan, if_neg (by omega)]; rfl

theorem checkSpan_bad {i o : Nat} (h : o ≤ i) : checkSpan i o = .error .badSpan := if_pos h

/-! ## Reel numbers and handles (R21, R47) -/

/-- A reel number resolves to the OPEN reel that holds it (R47). -/
theorem Floor.resolveReel_eq_ok_iff (f : Floor) (n slot : Nat) (reel : Reel) :
    f.resolveReel n = .ok (slot, reel) ↔
      f.reels.find? (fun e => e.2.number == n) = some (slot, reel) ∧ reel.state = .reelOpened := by
  unfold Floor.resolveReel
  cases f.reels.find? fun e => e.2.number == n with
  | none => simp
  | some e =>
    obtain ⟨j, r⟩ := e
    cases hr : r.state with
    | reelOpened =>
      simp only [hr, reduceCtorEq, ↓reduceIte, Except.ok.injEq, Option.some.injEq, Prod.mk.injEq]
      exact ⟨fun h => ⟨h, h.2 ▸ hr⟩, And.left⟩
    | reelClosing =>
      simp only [hr, ↓reduceIte, reduceCtorEq, Option.some.injEq, Prod.mk.injEq, false_iff, not_and]
      rintro ⟨-, rfl⟩ h
      rw [hr] at h
      exact absurd h (by decide)

/-- A reel number that no slot holds is UNKNOWN_REEL (R47). -/
theorem Floor.resolveReel_unknown {f : Floor} {n : Nat} (h : ∀ e ∈ f.reels, e.2.number ≠ n) :
    f.resolveReel n = .error .unknownReel := by
  have hnone : (f.reels.find? fun e => e.2.number == n) = none := by simpa [List.find?_eq_none] using h
  simp [Floor.resolveReel, hnone]

/-- The number of a CLOSING reel is refused (R47). -/
theorem Floor.resolveReel_closing {f : Floor} {n slot : Nat} {reel : Reel}
    (h : f.reels.find? (fun e => e.2.number == n) = some (slot, reel)) (hr : reel.state = .reelClosing) :
    f.resolveReel n = .error .reelClosing := by
  simp [Floor.resolveReel, h, hr]

/-- A handle resolves to its live cue, of a reel that is not CLOSING (R21, R47). -/
theorem Floor.resolveCue_eq_ok_iff (f : Floor) (h : Nat) (c : Cue) :
    f.resolveCue h = .ok c ↔ f.cue h = some c ∧ ∀ reel, f.reel c.reel = some reel → reel.state = .reelOpened := by
  unfold Floor.resolveCue
  cases f.cue h with
  | none => simp
  | some d =>
    simp only [Option.some.injEq]
    constructor
    · intro hok
      split at hok
      · next r hr =>
        split at hok
        · cases hok
        · next hstate =>
          cases hok
          refine ⟨rfl, fun reel hreel => ?_⟩
          obtain rfl : r = reel := Option.some.inj (hr.symm.trans hreel)
          cases hs : r.state with
          | reelOpened => rfl
          | reelClosing => exact absurd hs hstate
      · next hr =>
        cases hok
        exact ⟨rfl, fun reel hreel => by rw [hr] at hreel; cases hreel⟩
    · rintro ⟨rfl, hopen⟩
      cases hr : f.reel d.reel with
      | none => rfl
      | some r => simp [hopen r hr]

/-- A handle that is not live is UNKNOWN_HANDLE (R21). -/
theorem Floor.resolveCue_unknown {f : Floor} {h : Nat} (hc : f.cue h = none) :
    f.resolveCue h = .error .unknownHandle := by
  simp [Floor.resolveCue, hc]

/-- The handle of a cue of a CLOSING reel is refused (R47). -/
theorem Floor.resolveCue_closing {f : Floor} {h : Nat} {c : Cue} {reel : Reel} (hc : f.cue h = some c)
    (hr : f.reel c.reel = some reel) (hs : reel.state = .reelClosing) : f.resolveCue h = .error .reelClosing := by
  simp [Floor.resolveCue, hc, hr, hs]

theorem Floor.reelRate_of_reel {f : Floor} {slot : Nat} {reel : Reel} (h : f.reel slot = some reel) :
    f.reelRate slot = reel.rate := by simp [Floor.reelRate, h]

/-! ## CUE_CREATE (R31) -/

/-- The status of a creation or an edit: CLAMPED where a timing value or the out-point was moved (R12, R26). -/
theorem clampStatus_span (moved : Bool) (o far : Nat) :
    clampStatus (moved || min o far != o) = if moved = true ∨ far < o then .clamped else .ok := by
  have hfar : (min o far != o) = true ↔ far < o := by rw [bne_iff_ne]; omega
  simp only [clampStatus, Bool.or_eq_true, hfar]

section Create

variable {f : Floor} {x : CueCreateFields} {slot : Nat} {reel : Reel} {suffix : Option Nat} {i o : Nat}

/-- A creation that passes the checks of R31. -/
theorem Floor.checkCreate_ok (hnum : numberOk x.number = true) (hsuffix : suffixOf x.suffix = some suffix)
    (hreel : f.resolveReel x.reel = .ok (slot, reel)) (hchars : f.checkCharacters x.characters = .ok ())
    (hin : positionValue reel.rate x.inPos = some i) (hout : positionValue reel.rate x.outPos = some o) (hspan : i < o)
    (hfree : f.labelTaken slot x.number suffix none = false) (hroom : f.cues.length < 1024) :
    f.checkCreate x = .ok (.create slot
      { number := x.number, suffix := suffix, characters := x.characters, inPoint := i, outPoint := min o (i + 460800),
        timing := (askedTiming x.timing reel.defaults).fitted }
      (if (askedTiming x.timing reel.defaults).fitted ≠ askedTiming x.timing reel.defaults ∨ i + 460800 < o
        then .clamped else .ok)) := by
  have hroom : decide (f.cues.length < Config.handleCount) = true := decide_eq_true hroom
  simp only [Floor.checkCreate, hnum, hsuffix, hreel, hchars, hin, hout, checkSpan_ok hspan, hfree, hroom, require_true,
    orElse_some, except_ok_bind, Bool.not_false, clampStatus_span, bne_iff_ne]
  rfl

/-- The checks of R31 up to the character list, passed: what stands after them. -/
theorem Floor.checkCreate_listed (hnum : numberOk x.number = true) (hsuffix : suffixOf x.suffix = some suffix)
    (hreel : f.resolveReel x.reel = .ok (slot, reel)) (hchars : f.checkCharacters x.characters = .ok ()) :
    (positionValue reel.rate x.inPos = none ∨ positionValue reel.rate x.outPos = none →
      f.checkCreate x = .error .invalidPosition) ∧
    (∀ i o, positionValue reel.rate x.inPos = some i → positionValue reel.rate x.outPos = some o →
      (o ≤ i → f.checkCreate x = .error .badSpan) ∧
      (i < o → f.labelTaken slot x.number suffix none = true → f.checkCreate x = .error .duplicateLabel) ∧
      (i < o → f.labelTaken slot x.number suffix none = false → 1024 ≤ f.cues.length →
        f.checkCreate x = .error .storeFull)) := by
  simp only [Floor.checkCreate, hnum, hsuffix, hreel, hchars, require_true, orElse_some, except_ok_bind]
  refine ⟨?_, fun i o hin hout => ⟨fun hspan => ?_, fun hspan htaken => ?_, fun hspan hfree hfull => ?_⟩⟩
  · rintro (h | h)
    · simp [h]
    · cases hin : positionValue reel.rate x.inPos <;> simp [h]
  · simp [hin, hout, checkSpan_bad hspan]
  · simp [hin, hout, checkSpan_ok hspan, htaken]
  · have hfull : decide (f.cues.length < Config.handleCount) = false := decide_eq_false (Nat.not_lt.2 hfull)
    simp [hin, hout, checkSpan_ok hspan, hfree, hfull]

end Create

/-- A CUE_CREATE that the port takes is refused with the status of its first failing check, or accepted. -/
theorem exec_cueCreate {s : State} {q : Request CueCreateFields} {x : CueCreateFields} (h : s.Receives)
    (hq : readRequest (some 7) parseCueCreate q = .ok x) :
    (∀ st, s.floor.checkCreate x = .error st → exec (.cueCreate q) s = .next (s.replied Code.cueCreate st [])) ∧
    (∀ op, s.floor.checkCreate x = .ok op → exec (.cueCreate q) s = .next (s.accepted op)) := by
  have hexec : exec (.cueCreate q) s = .next (s.handover.ownCreate x) :=
    congrArg Host.Outcome.next (State.request_read _ _ _ _ _ _ h hq)
  rw [hexec]
  constructor
  · intro st hst; simp [State.ownCreate, hst, h]
  · intro op hop; simp [State.ownCreate, hop, h]

/-- Settles O21: every check of R31 passes, and the port hands the request over. -/
theorem cueCreateIsAccepted : Obligations.CueCreateIsAccepted := by
  intro q x s slot reel suffix i o hs hq hlo hhi hsuffix hreel hone hfour hnodup hdef hin hout hspan hfree hroom
  exact (exec_cueCreate hs hq).2 _ (Floor.checkCreate_ok ((numberOk_iff _).2 ⟨hlo, hhi⟩) hsuffix hreel
    (Floor.checkCharacters_ok ⟨hone, hfour, hnodup⟩ hdef) hin hout hspan hfree hroom)

/-- Settles O22: what positions, labels, suffixes, reel numbers and handles stand for, and the checks of R31 in their
order. -/
theorem cueCreateRefusalOrder : Obligations.CueCreateRefusalOrder := by
  refine ⟨fun r p => ?_, fun f slot number suffix besides h => f.labelTaken_iff h _ _ _ _, fun n => rfl,
    Floor.resolveReel_eq_ok_iff, Floor.resolveCue_eq_ok_iff, fun q x s hs hq => ?_⟩
  · intro l named
    have hnamed : named ↔ (fieldLabel p).isValid r = true ∧ p.subframe ≤ 63 := by rw [Label.isValid_iff]; rfl
    exact ⟨fun h => positionValue_valid (hnamed.1 h).1 (hnamed.1 h).2,
      fun h => positionValue_invalid fun h' => h (hnamed.2 h')⟩
  · intro refused label listed defined
    have hrefused : ∀ st, s.floor.checkCreate x = .error st → refused st := (exec_cueCreate hs hq).1
    have hlabel : label → numberOk x.number = true ∧ ∃ suffix, suffixOf x.suffix = some suffix := fun h =>
      ⟨(numberOk_iff _).2 ⟨h.1, h.2.1⟩, Option.isSome_iff_exists.1 h.2.2⟩
    refine ⟨fun h => hrefused _ ?_, fun h hunknown => hrefused _ ?_, fun slot reel h hfind => ?_⟩
    · by_cases hnum : numberOk x.number = true
      · have hnone : suffixOf x.suffix = none := by
          rw [← Option.not_isSome_iff_eq_none]
          exact fun hsome => h ⟨((numberOk_iff _).1 hnum).1, ((numberOk_iff _).1 hnum).2, hsome⟩
        simp [Floor.checkCreate, hnum, hnone]
      · simp [Floor.checkCreate, hnum]
    · obtain ⟨hnum, suffix, hsuffix⟩ := hlabel h
      simp [Floor.checkCreate, hnum, hsuffix, Floor.resolveReel_unknown hunknown]
    · obtain ⟨hnum, suffix, hsuffix⟩ := hlabel h
      have hopen := fun ho : reel.state = .reelOpened => (s.floor.resolveReel_eq_ok_iff x.reel slot reel).2 ⟨hfind, ho⟩
      refine ⟨fun hr => hrefused _ ?_, fun hr hbad => hrefused _ ?_, fun hr hlist hundef => hrefused _ ?_,
        fun hr hlist hdef hpos => hrefused _ ?_, fun i o suffix' hr hlist hdef hin hout hsuffix' => ?_⟩
      · simp [Floor.checkCreate, hnum, hsuffix, Floor.resolveReel_closing hfind hr]
      · simp [Floor.checkCreate, hnum, hsuffix, hopen hr, Floor.checkCharacters_bad hbad]
      · simp [Floor.checkCreate, hnum, hsuffix, hopen hr, Floor.checkCharacters_unknown hlist hundef]
      · exact (Floor.checkCreate_listed hnum hsuffix (hopen hr) (Floor.checkCharacters_ok hlist hdef)).1 hpos
      · obtain ⟨hbad, htaken, hfull⟩ :=
          (Floor.checkCreate_listed hnum hsuffix' (hopen hr) (Floor.checkCharacters_ok hlist hdef)).2 i o hin hout
        exact ⟨fun h => hrefused _ (hbad h), fun h h' => hrefused _ (htaken h h'),
          fun h h' h'' => hrefused _ (hfull h h' h'')⟩

end Sys2Proof.Machine
end

section
/-! CUE_EDIT: what an edit gives, its checks in the order of R35, and its acceptance. -/

namespace Sys2Proof.Machine

/-! ## What an edit gives (R34) -/

theorem timingGiven_iff (g : TimingFields) : timingGiven g = true ↔ g ≠ ⟨none, none, none, none, none, none, none⟩ := by
  obtain ⟨lead, beepCount, beepSpacing, beepLength, preRoll, punchIn, punchOut⟩ := g
  simp only [timingGiven, Bool.or_eq_true, Option.isSome_iff_ne_none, ne_eq, TimingFields.mk.injEq]
  tauto

theorem editTouchesTimeline_iff (x : CueEditFields) :
    editTouchesTimeline x = true ↔ x.inPos ≠ none ∨ x.outPos ≠ none ∨ x.characters ≠ none ∨
      x.timing ≠ ⟨none, none, none, none, none, none, none⟩ := by
  simp only [editTouchesTimeline, Bool.or_eq_true, timingGiven_iff, Option.isSome_iff_ne_none]
  tauto

theorem editGives_iff (x : CueEditFields) :
    editGives x = true ↔ editTouchesTimeline x = true ∨ x.number ≠ none ∨ x.suffix ≠ none := by
  simp only [editGives, Bool.or_eq_true, Option.isSome_iff_ne_none, or_assoc]

/-! ## The checks of R35 -/

/-- The first check of R35: an edit gives something, and its number and suffix lie in their ranges. -/
def editPlain (x : CueEditFields) : Bool :=
  editGives x && x.number.all numberOk && x.suffix.all fun n => (suffixOf n).isSome

theorem editPlain_iff (x : CueEditFields) :
    editPlain x = true ↔ editGives x = true ∧ (∀ n, x.number = some n → 1 ≤ n ∧ n ≤ 9999) ∧
      (∀ n, x.suffix = some n → (suffixOf n).isSome = true) := by
  simp only [editPlain, Bool.and_eq_true, Option.all_eq_true, numberOk_iff, and_assoc]

/-- A character list given or not given (R25, R35). -/
def Floor.checkListed (f : Floor) : Option (List Nat) → Except Status Unit
  | some ids => f.checkCharacters ids
  | none => .ok ()

/-- The span of an edit, checked where it gives an in-point or an out-point (R12, R35). -/
def editSpan (x : CueEditFields) (i o : Nat) : Except Status Nat :=
  if x.inPos.isSome || x.outPos.isSome then checkSpan i o else .ok o

/-- The record that an edit leaves in a cue, and the status of the edit. -/
def editOp (x : CueEditFields) (c : Cue) (suffix : Option Nat) (i o outPoint : Nat) : StoreOp :=
  .edit x.handle ⟨x.number.getD c.fields.number, suffix, x.characters.getD c.fields.characters, i, outPoint,
      (askedTiming x.timing c.fields.timing).fitted⟩
    (clampStatus ((askedTiming x.timing c.fields.timing).fitted != askedTiming x.timing c.fields.timing || outPoint != o))

/-- The checks of R35, one after another. -/
theorem Floor.checkEdit_eq (f : Floor) (x : CueEditFields) : f.checkEdit x = (do
    require (editPlain x) .badRequest
    let c ← f.resolveCue x.handle
    require (c.lock == .unlocked) .cueBusy
    require (!editTouchesTimeline x || c.inFlight == 0) .cueInFlight
    f.checkListed x.characters
    let i ← givenPosition (f.reelRate c.reel) x.inPos c.fields.inPoint
    let o ← givenPosition (f.reelRate c.reel) x.outPos c.fields.outPoint
    let outPoint ← editSpan x i o
    let suffix ← orElse (givenSuffix x.suffix c.fields.suffix) .badRequest
    require (!((x.number.isSome || x.suffix.isSome) &&
      f.labelTaken c.reel (x.number.getD c.fields.number) suffix (some x.handle))) .duplicateLabel
    pure (editOp x c suffix i o outPoint)) := by
  obtain ⟨handle, number, suffix, characters, inPos, outPos, timing⟩ := x
  unfold Floor.checkEdit editSpan
  cases characters
  all_goals
    cases inPos.isSome || outPos.isSome
    · rfl
    · rfl

/-- A position not given is the one stored; one given is taken where it is valid (R35 step 7). -/
theorem givenPosition_none (r : Rate) (stored : Nat) : givenPosition r none stored = .ok stored := rfl

theorem givenPosition_valid {r : Rate} {p : PositionField} {v : Nat} (h : positionValue r p = some v) (stored : Nat) :
    givenPosition r (some p) stored = .ok v := by simp [givenPosition, h]

theorem givenPosition_invalid {r : Rate} {p : PositionField} (h : positionValue r p = none) (stored : Nat) :
    givenPosition r (some p) stored = .error .invalidPosition := by simp [givenPosition, h]

/-- A position check of an edit finds a value, or refuses INVALID_POSITION. -/
theorem givenPosition_cases (r : Rate) (given : Option PositionField) (stored : Nat) :
    (∃ v, givenPosition r given stored = .ok v) ∨ givenPosition r given stored = .error .invalidPosition := by
  cases given with
  | none => exact .inl ⟨stored, rfl⟩
  | some p =>
    cases h : positionValue r p with
    | none => exact .inr (givenPosition_invalid h stored)
    | some v => exact .inl ⟨v, givenPosition_valid h stored⟩

/-- The character list of an edit passes where it is not given, or passes R25. -/
theorem Floor.checkListed_ok {f : Floor} {given : Option (List Nat)}
    (hlist : ∀ ids, given = some ids → 1 ≤ ids.length ∧ ids.length ≤ 4 ∧ ids.Nodup)
    (hdef : ∀ ids, given = some ids → ∀ id ∈ ids, id < 64 ∧ (f.character id).isSome = true) :
    f.checkListed given = .ok () := by
  cases given with
  | none => rfl
  | some ids => exact Floor.checkCharacters_ok (hlist ids rfl) (hdef ids rfl)

theorem Floor.checkListed_bad {f : Floor} {given : Option (List Nat)}
    (h : ¬∀ ids, given = some ids → 1 ≤ ids.length ∧ ids.length ≤ 4 ∧ ids.Nodup) :
    f.checkListed given = .error .badCharacters := by
  cases given with
  | none => exact absurd (fun ids hids => by cases hids) h
  | some ids => exact Floor.checkCharacters_bad fun hlist => h fun _ hids => Option.some.inj hids ▸ hlist

theorem Floor.checkListed_unknown {f : Floor} {given : Option (List Nat)}
    (hlist : ∀ ids, given = some ids → 1 ≤ ids.length ∧ ids.length ≤ 4 ∧ ids.Nodup)
    (h : ¬∀ ids, given = some ids → ∀ id ∈ ids, id < 64 ∧ (f.character id).isSome = true) :
    f.checkListed given = .error .unknownCharacter := by
  cases given with
  | none => exact absurd (fun ids hids => by cases hids) h
  | some ids =>
    exact Floor.checkCharacters_unknown (hlist ids rfl) fun hdef => h fun _ hids => Option.some.inj hids ▸ hdef

/-- An edit that gives an in-point or an out-point, with the out-point more than 7,200 frames after the in-point (R12). -/
abbrev EditFar (x : CueEditFields) (i o : Nat) : Prop :=
  (x.inPos.isSome = true ∨ x.outPos.isSome = true) ∧ i + 460800 < o

/-- A span that is in order is clamped where an edit puts it too far (R12). -/
theorem editSpan_ok {x : CueEditFields} {i o : Nat} (h : x.inPos.isSome = true ∨ x.outPos.isSome = true → i < o) :
    editSpan x i o = .ok (if EditFar x i o then i + 460800 else o) := by
  unfold editSpan
  by_cases hg : x.inPos.isSome = true ∨ x.outPos.isSome = true
  · rw [if_pos (by simpa using hg), checkSpan_ok (h hg)]
    simp only [EditFar, hg, true_and]
    congr 1
    split <;> omega
  · rw [if_neg (by simpa using hg), if_neg fun hfar => hg hfar.1]

theorem editSpan_bad {x : CueEditFields} {i o : Nat} (hg : x.inPos.isSome = true ∨ x.outPos.isSome = true) (h : o ≤ i) :
    editSpan x i o = .error .badSpan := by
  rw [editSpan, if_pos (by simpa using hg), checkSpan_bad h]

/-- An edit of a cue passes the checks of R35 up to the character list. -/
structure Floor.EditListed (f : Floor) (x : CueEditFields) (c : Cue) : Prop where
  plain : editPlain x = true
  cue : f.resolveCue x.handle = .ok c
  unlocked : c.lock = .unlocked
  idle : editTouchesTimeline x = true → c.inFlight = 0
  listed : f.checkListed x.characters = .ok ()

section Edit

variable {f : Floor} {x : CueEditFields} {c : Cue} {i o : Nat} {suffix : Option Nat}

/-- The in-flight check of R35, passed. -/
theorem editIdle (h : editTouchesTimeline x = true → c.inFlight = 0) :
    (!editTouchesTimeline x || c.inFlight == 0) = true := by
  cases htouch : editTouchesTimeline x with
  | false => rfl
  | true => simp [h htouch]

/-- The checks of R35 that stand after the character list. -/
theorem Floor.EditListed.checkEdit (h : f.EditListed x c) : f.checkEdit x = (do
    let i ← givenPosition (f.reelRate c.reel) x.inPos c.fields.inPoint
    let o ← givenPosition (f.reelRate c.reel) x.outPos c.fields.outPoint
    let outPoint ← editSpan x i o
    let suffix ← orElse (givenSuffix x.suffix c.fields.suffix) .badRequest
    require (!((x.number.isSome || x.suffix.isSome) &&
      f.labelTaken c.reel (x.number.getD c.fields.number) suffix (some x.handle))) .duplicateLabel
    pure (editOp x c suffix i o outPoint)) := by
  simp only [Floor.checkEdit_eq, h.plain, h.cue, h.unlocked, editIdle h.idle, h.listed, require_true, except_ok_bind,
    beq_self_eq_true]

/-- An invalid position of an edit is refused (R35). -/
theorem Floor.EditListed.invalidPosition (h : f.EditListed x c)
    (hpos : givenPosition (f.reelRate c.reel) x.inPos c.fields.inPoint = .error .invalidPosition ∨
      givenPosition (f.reelRate c.reel) x.outPos c.fields.outPoint = .error .invalidPosition) :
    f.checkEdit x = .error .invalidPosition := by
  rw [h.checkEdit]
  rcases givenPosition_cases (f.reelRate c.reel) x.inPos c.fields.inPoint with ⟨v, hv⟩ | hv
  · rcases hpos with hpos | hpos
    · rw [hpos, except_error_bind]
    · rw [hv, except_ok_bind, hpos, except_error_bind]
  · rw [hv, except_error_bind]

/-- An edit with valid positions: refused for its span, refused for its label, or accepted (R35). -/
theorem Floor.EditListed.positioned (h : f.EditListed x c)
    (hin : givenPosition (f.reelRate c.reel) x.inPos c.fields.inPoint = .ok i)
    (hout : givenPosition (f.reelRate c.reel) x.outPos c.fields.outPoint = .ok o)
    (hsuffix : givenSuffix x.suffix c.fields.suffix = some suffix) :
    let placed := x.inPos.isSome = true ∨ x.outPos.isSome = true
    let labelled := x.number.isSome = true ∨ x.suffix.isSome = true
    let taken := f.labelTaken c.reel (x.number.getD c.fields.number) suffix (some x.handle)
    (placed → o ≤ i → f.checkEdit x = .error .badSpan) ∧
    ((placed → i < o) → labelled → taken = true → f.checkEdit x = .error .duplicateLabel) ∧
    ((placed → i < o) → (labelled → taken = false) →
      f.checkEdit x = .ok (editOp x c suffix i o (if EditFar x i o then i + 460800 else o))) := by
  intro placed labelled taken
  rw [h.checkEdit, hin, except_ok_bind, hout, except_ok_bind, hsuffix, orElse_some]
  refine ⟨fun hg hbad => ?_, fun hspan hl ht => ?_, fun hspan hfree => ?_⟩
  · rw [editSpan_bad hg hbad, except_error_bind]
  · have hl : (x.number.isSome || x.suffix.isSome) = true := by simpa using hl
    have ht : f.labelTaken c.reel (x.number.getD c.fields.number) suffix (some x.handle) = true := ht
    simp only [editSpan_ok hspan, except_ok_bind, hl, ht, Bool.and_self, Bool.not_true, require_false, except_error_bind]
  · have hpass : ((x.number.isSome || x.suffix.isSome) &&
        f.labelTaken c.reel (x.number.getD c.fields.number) suffix (some x.handle)) = false := by
      rw [← Bool.not_eq_true, Bool.and_eq_true, Bool.or_eq_true]
      rintro ⟨hl, ht⟩
      exact absurd (hfree hl) (by simp [taken, ht])
    simp only [editSpan_ok hspan, except_ok_bind, hpass, Bool.not_false, require_true]
    rfl

/-- The operation record of an edit, with the status of R12 and R26. -/
theorem editOp_far : editOp x c suffix i o (if EditFar x i o then i + 460800 else o) = .edit x.handle
      { number := x.number.getD c.fields.number, suffix := suffix,
        characters := x.characters.getD c.fields.characters, inPoint := i,
        outPoint := if EditFar x i o then i + 460800 else o,
        timing := (askedTiming x.timing c.fields.timing).fitted }
      (if (askedTiming x.timing c.fields.timing).fitted ≠ askedTiming x.timing c.fields.timing ∨ EditFar x i o
        then .clamped else .ok) := by
  have hmoved : ((if EditFar x i o then i + 460800 else o) != o) = true ↔ EditFar x i o := by
    rw [bne_iff_ne]
    split
    · next hfar => exact iff_of_true (by have := hfar.2; omega) hfar
    · next hfar => exact iff_of_false (by simp) hfar
  simp only [editOp, clampStatus, Bool.or_eq_true, hmoved, bne_iff_ne]

end Edit

/-- A CUE_EDIT that the port takes is refused with the status of its first failing check, or locks its cue and is
accepted. -/
theorem exec_cueEdit {s : State} {q : Request CueEditFields} {x : CueEditFields} (h : s.Receives)
    (hq : readRequest (some 12) parseCueEdit q = .ok x) :
    (∀ st, s.floor.checkEdit x = .error st → exec (.cueEdit q) s = .next (s.replied Code.cueEdit st [])) ∧
    (∀ op, s.floor.checkEdit x = .ok op → exec (.cueEdit q) s = .next
      (({ s with floor := s.floor.modCue x.handle fun c => { c with lock := .editing } } : State).accepted op)) := by
  have hexec : exec (.cueEdit q) s = .next (s.handover.ownEdit x) :=
    congrArg Host.Outcome.next (State.request_read _ _ _ _ _ _ h hq)
  rw [hexec]
  constructor
  · intro st hst; simp [State.ownEdit, hst, h]
  · intro op hop; simp [State.ownEdit, hop, h]

/-- Settles O24: what an edit gives, the checks of R35 in their order, and the lock and the record of an edit that
passes them. -/
theorem cueEditIsAccepted : Obligations.CueEditIsAccepted := by
  refine ⟨fun x => ⟨editTouchesTimeline_iff x, editGives_iff x⟩,
    fun r p v stored => ⟨givenPosition_none r stored, fun h => givenPosition_valid h stored, fun h => givenPosition_invalid h stored⟩,
    fun n stored => ⟨rfl, rfl⟩, fun f slot reel h => Floor.reelRate_of_reel h, ?_, ?_⟩
  · intro q x s c suffix i o hs hq hgives hnum hsuffix hcue hlock hidle hchars hin hout hspan hfree far
    have hsuffixes : ∀ n, x.suffix = some n → (suffixOf n).isSome = true := fun n hn => by
      rw [hn] at hsuffix
      exact Option.isSome_iff_exists.2 ⟨suffix, hsuffix⟩
    have hlisted : s.floor.checkListed x.characters = .ok () := Floor.checkListed_ok
      (fun ids hids => ⟨(hchars ids hids).1, (hchars ids hids).2.1, (hchars ids hids).2.2.1⟩)
      (fun ids hids => (hchars ids hids).2.2.2)
    have hedit : s.floor.EditListed x c :=
      ⟨(editPlain_iff x).2 ⟨hgives, hnum, hsuffixes⟩, hcue, hlock, hidle, hlisted⟩
    obtain ⟨-, -, hok⟩ := hedit.positioned hin hout hsuffix
    exact (exec_cueEdit hs hq).2 _ ((hok hspan hfree).trans (congrArg _ editOp_far))
  · intro q x s hs hq refused plain listed defined
    have hrefused : ∀ st, s.floor.checkEdit x = .error st → refused st := (exec_cueEdit hs hq).1
    have hplain : plain ↔ editPlain x = true := (editPlain_iff x).symm
    refine ⟨fun h => hrefused _ ?_, fun h hnone => hrefused _ ?_, fun c reel h hcue hreel => ?_⟩
    · simp [Floor.checkEdit_eq, Bool.eq_false_iff.2 (mt hplain.2 h)]
    · simp [Floor.checkEdit_eq, hplain.1 h, Floor.resolveCue_unknown hnone]
    · have hopen : reel.state = .reelOpened → s.floor.resolveCue x.handle = .ok c := fun ho =>
        (s.floor.resolveCue_eq_ok_iff _ _).2 ⟨hcue, fun reel' h' => Option.some.inj (hreel.symm.trans h') ▸ ho⟩
      have hedit : reel.state = .reelOpened → c.lock = .unlocked → (editTouchesTimeline x = true → c.inFlight = 0) →
          listed → defined → s.floor.EditListed x c := fun hr hlock hidle hlist hdef =>
        ⟨hplain.1 h, hopen hr, hlock, hidle, Floor.checkListed_ok hlist hdef⟩
      refine ⟨fun hr => hrefused _ ?_, fun hr hlock => hrefused _ ?_, fun hr hlock htouch hflight => hrefused _ ?_,
        fun hr hlock hidle => ⟨fun hbad => hrefused _ ?_, fun hlist hundef => hrefused _ ?_,
          fun hlist hdef hpos => hrefused _ ?_, fun i o suffix hlist hdef hin hout hsuffix => ?_⟩⟩
      · simp [Floor.checkEdit_eq, hplain.1 h, Floor.resolveCue_closing hcue hreel hr]
      · have hbusy : (c.lock == .unlocked) = false := beq_eq_false_iff_ne.2 hlock
        simp [Floor.checkEdit_eq, hplain.1 h, hopen hr, hbusy]
      · have hrunning : (c.inFlight == 0) = false := beq_eq_false_iff_ne.2 (Nat.ne_of_gt hflight)
        simp [Floor.checkEdit_eq, hplain.1 h, hopen hr, hlock, htouch, hrunning]
      · simp only [Floor.checkEdit_eq, hplain.1 h, hopen hr, hlock, editIdle hidle, Floor.checkListed_bad hbad,
          beq_self_eq_true, require_true, except_ok_bind, except_error_bind]
      · simp only [Floor.checkEdit_eq, hplain.1 h, hopen hr, hlock, editIdle hidle,
          Floor.checkListed_unknown hlist hundef, beq_self_eq_true, require_true, except_ok_bind, except_error_bind]
      · rw [← Floor.reelRate_of_reel hreel] at hpos
        exact (hedit hr hlock hidle hlist hdef).invalidPosition hpos
      · rw [← Floor.reelRate_of_reel hreel] at hin hout
        obtain ⟨hspan, htaken, -⟩ := (hedit hr hlock hidle hlist hdef).positioned hin hout hsuffix
        exact ⟨fun hg hbad => hrefused _ (hspan hg hbad), fun hord hl ht => hrefused _ (htaken hord hl ht)⟩

end Sys2Proof.Machine
end

section
/-! The lookups of the order list (R55 to R57), and the settings of a reel (R49, R50). -/

namespace Sys2Proof.Machine

/-! ## The first cue of an order list (R55, R56) -/

section FirstInOrder

variable {f : Floor} {which : Cue → Bool}

theorem Floor.firstInOrder_cons (n h : Nat) (rest : List Nat) :
    f.firstInOrder which n (h :: rest) =
      if (f.cue h).any which = true then some (n, h) else f.firstInOrder which (n + 1) rest := by
  cases hc : f.cue h <;> simp [Floor.firstInOrder, hc]

/-- No cue of the list has the property: none is found. -/
theorem Floor.firstInOrder_none {l : List Nat} (hnone : ∀ h ∈ l, ¬(f.cue h).any which = true) (n : Nat) :
    f.firstInOrder which n l = none := by
  induction l generalizing n with
  | nil => rfl
  | cons h rest ih =>
    obtain ⟨hh, hrest⟩ := List.forall_mem_cons.1 hnone
    rw [Floor.firstInOrder_cons, if_neg hh, ih hrest]

/-- The cue found is the first of the list with the property, with its index. -/
theorem Floor.firstInOrder_some {l : List Nat} {k h : Nat} (hk : l[k]? = some h) (hh : (f.cue h).any which = true)
    (hfirst : ∀ j h', j < k → l[j]? = some h' → ¬(f.cue h').any which = true) (n : Nat) :
    f.firstInOrder which n l = some (n + k, h) := by
  induction l generalizing k n with
  | nil => cases hk
  | cons h' rest ih =>
    rw [Floor.firstInOrder_cons]
    cases k with
    | zero =>
      obtain rfl : h' = h := Option.some.inj hk
      rw [if_pos hh]
      rfl
    | succ k =>
      rw [if_neg (hfirst 0 h' (Nat.zero_lt_succ k) rfl), ih hk fun j h' hj => hfirst (j + 1) h' (Nat.succ_lt_succ hj),
        Nat.add_right_comm, Nat.add_assoc]

end FirstInOrder

/-! ## Requests that change nothing but the port, or the floor as well -/

section Owners

variable {s : State} (h : s.Receives)
include h

theorem exec_cueFind {q : Request CueFindFields} {x : CueFindFields} (hq : readRequest none parseCueFind q = .ok x) :
    exec (.cueFind q) s = .next (s.handover.ownCueFind x) := congrArg _ (State.request_read _ _ _ _ _ _ h hq)

theorem exec_cueNext {q : Request CueNextFields} {x : CueNextFields} (hq : readRequest none parseCueNext q = .ok x) :
    exec (.cueNext q) s = .next (s.handover.ownCueNext x) := congrArg _ (State.request_read _ _ _ _ _ _ h hq)

theorem exec_cueList {q : Request CueListFields} {x : CueListFields} (hq : readRequest none parseCueList q = .ok x) :
    exec (.cueList q) s = .next (s.handover.ownCueList x) := congrArg _ (State.request_read _ _ _ _ _ _ h hq)

theorem exec_reelSetDefaults {q : Request ReelDefaultsFields} {x : ReelDefaultsFields}
    (hq : readRequest (some 7) parseReelDefaults q = .ok x) :
    exec (.reelSetDefaults q) s = .next (s.handover.ownReelSetDefaults x) :=
  congrArg _ (State.request_read _ _ _ _ _ _ h hq)

theorem exec_reelSetRate {q : Request ReelRateFields} {x : ReelRateFields}
    (hq : readRequest none parseReelRate q = .ok x) :
    exec (.reelSetRate q) s = .next (s.handover.ownReelSetRate x) := congrArg _ (State.request_read _ _ _ _ _ _ h hq)

end Owners

section Lookups

variable {s : State} {slot : Nat} {reel : Reel} (h : s.Receives)
include h

/-- CUE_FIND answers the cue that the order list finds (R55). -/
theorem State.ownCueFind_found {x : CueFindFields} {suffix : Option Nat} (hnum : numberOk x.number = true)
    (hsuffix : suffixOf x.suffix = some suffix) (hreel : s.floor.resolveReel x.reel = .ok (slot, reel)) :
    s.handover.ownCueFind x = s.replied Code.cueFind .ok (foundBytes (s.floor.firstInOrder
      (fun c => c.fields.number == x.number && c.fields.suffix == suffix) 0 reel.order)) := by
  simp only [State.ownCueFind, hnum, hsuffix, hreel, State.handover_floor, require_true, orElse_some, except_ok_bind]
  exact s.handover_respond _ h _ _

/-- CUE_NEXT answers the cue that the order list finds, with its in-point (R56). -/
theorem State.ownCueNext_found {x : CueNextFields} {p : Nat} (hreel : s.floor.resolveReel x.reel = .ok (slot, reel))
    (hp : positionValue reel.rate x.position = some p) :
    let found := s.floor.firstInOrder (fun c => decide (p ≤ c.fields.inPoint)) 0 reel.order
    s.handover.ownCueNext x =
      s.replied Code.cueNext .ok (foundBytes found ++ s.floor.foundInPoint reel.rate found) := by
  intro found
  simp only [State.ownCueNext, hreel, hp, State.handover_floor, orElse_some, except_ok_bind]
  exact s.handover_respond _ h _ _

/-- CUE_LIST answers a stretch of the order list (R57). -/
theorem State.ownCueList_found {x : CueListFields} (hx : x.start ≤ 1023 ∧ 1 ≤ x.count ∧ x.count ≤ 32)
    (hreel : s.floor.resolveReel x.reel = .ok (slot, reel)) :
    s.handover.ownCueList x = s.replied Code.cueList .ok ([countByte reel.order.length] ++ bytes2 x.start ++
      listBytes bytes2 ((reel.order.drop x.start).take x.count)) := by
  simp only [State.ownCueList, hx, hreel, State.handover_floor, decide_true, Bool.and_self, require_true,
    except_ok_bind]
  exact s.handover_respond _ h _ _

end Lookups

/-- Settles O31: each lookup answers what the order list holds, or is refused by its first failing check. -/
theorem lookupsAnswer : Obligations.LookupsAnswer := by
  refine ⟨fun s slot reel hs => ⟨fun q x suffix hq hlo hhi hsuffix hreel => ?_, fun q x p hq hreel hp => ?_,
    fun q x hq hstart hone hmost hreel => ?_⟩, fun s hs => ?_⟩
  · intro named
    rw [exec_cueFind hs hq, State.ownCueFind_found hs ((numberOk_iff _).2 ⟨hlo, hhi⟩) hsuffix hreel]
    have hnamed : ∀ h, (s.floor.cue h).any (fun c => c.fields.number == x.number && c.fields.suffix == suffix) = true ↔
        named h := fun h => by simp [named, Option.any_eq_true]
    refine ⟨fun k h hk hh hfirst => ?_, fun hnone => ?_⟩
    · rw [Floor.firstInOrder_some hk ((hnamed h).2 hh) fun j h' hj hj' => mt (hnamed h').1 (hfirst j h' hj hj'),
        Nat.zero_add]
      rfl
    · rw [Floor.firstInOrder_none fun h hh => mt (hnamed h).1 (hnone h hh)]
      rfl
  · intro ahead
    rw [exec_cueNext hs hq, State.ownCueNext_found hs hreel hp]
    have hahead : ∀ h, (s.floor.cue h).any (fun c => decide (p ≤ c.fields.inPoint)) = true ↔ ahead h := fun h => by
      simp [ahead, Option.any_eq_true]
    refine ⟨fun k h c hk hc hin hfirst => ?_, fun hnone => ?_⟩
    · rw [Floor.firstInOrder_some hk ((hahead h).2 ⟨c, hc, hin⟩)
        fun j h' hj hj' => mt (hahead h').1 (hfirst j h' hj hj'), Nat.zero_add]
      simp only [Floor.foundInPoint, Option.bind_some, hc]
      rfl
    · rw [Floor.firstInOrder_none fun h hh => mt (hahead h).1 (hnone h hh)]
      rfl
  · rw [exec_cueList hs hq, State.ownCueList_found hs ⟨hstart, hone, hmost⟩ hreel]
    simp [countByte, listBytes]
  · intro unknown closing
    have hunknown : ∀ n, unknown n → s.floor.resolveReel n = .error .unknownReel :=
      fun n hn => Floor.resolveReel_unknown hn
    have hclosing : ∀ n, closing n → s.floor.resolveReel n = .error .reelClosing :=
      fun n ⟨_, _, hfind, hr⟩ => Floor.resolveReel_closing hfind hr
    refine ⟨fun q x hq => ?_, fun q x hq => ?_, fun q x hq => ?_⟩
    · intro refused named
      have hnamed : named → numberOk x.number = true ∧ ∃ suffix, suffixOf x.suffix = some suffix := fun hn =>
        ⟨(numberOk_iff _).2 hn.1, Option.isSome_iff_exists.1 ((suffixOf_isSome_iff _).2 hn.2)⟩
      simp only [refused, exec_cueFind hs hq]
      refine ⟨fun hn => ?_, fun hn hr => ?_, fun hn hr => ?_⟩
      · by_cases hnum : numberOk x.number = true
        · have hnone : suffixOf x.suffix = none := by
            rw [← Option.not_isSome_iff_eq_none, suffixOf_isSome_iff]
            exact fun hsome => hn ⟨(numberOk_iff _).1 hnum, hsome⟩
          simp [State.ownCueFind, hnum, hnone, hs]
        · simp [State.ownCueFind, hnum, hs]
      · obtain ⟨hnum, suffix, hsuffix⟩ := hnamed hn
        simp [State.ownCueFind, hnum, hsuffix, hunknown _ hr, hs]
      · obtain ⟨hnum, suffix, hsuffix⟩ := hnamed hn
        simp [State.ownCueFind, hnum, hsuffix, hclosing _ hr, hs]
    · intro refused
      simp only [refused, exec_cueNext hs hq]
      refine ⟨fun hr => ?_, fun hr => ?_, fun slot reel hreel hp => ?_⟩
      · simp [State.ownCueNext, hunknown _ hr, hs]
      · simp [State.ownCueNext, hclosing _ hr, hs]
      · simp [State.ownCueNext, hreel, hp, hs]
    · intro refused named
      have hnamed : named ↔ (decide (x.start ≤ 1023) && decide (1 ≤ x.count) && decide (x.count ≤ 32)) = true := by
        simp [named, and_assoc]
      simp only [refused, exec_cueList hs hq]
      refine ⟨fun hn => ?_, fun hn hr => ?_, fun hn hr => ?_⟩
      · simp [State.ownCueList, Bool.eq_false_iff.2 (mt hnamed.2 hn), hs]
      · simp [State.ownCueList, hnamed.1 hn, hunknown _ hr, hs]
      · simp [State.ownCueList, hnamed.1 hn, hclosing _ hr, hs]

/-! ## Reel settings (R49, R50) -/

/-- A code up to 5 is a rate, one above is none (R2). -/
theorem Rate.ofCode_eq_none_iff : ∀ n, Rate.ofCode n = none ↔ 5 < n
  | 0 | 1 | 2 | 3 | 4 | 5 => by simp [Rate.ofCode]
  | n + 6 => by simp [Rate.ofCode]

theorem Rate.exists_ofCode {n : Nat} (h : n ≤ 5) : ∃ r, Rate.ofCode n = some r :=
  Option.ne_none_iff_exists'.1 (mt (Rate.ofCode_eq_none_iff n).1 (Nat.not_lt.2 h))

/-- A timing field is given where one of the seven has a value (R49). -/
theorem timingGiven_iff_exists (t : TimingFields) :
    timingGiven t = true ↔ ∃ v, t.lead = some v ∨ t.beepCount = some v ∨ t.beepSpacing = some v ∨ t.beepLength = some v ∨
      t.preRoll = some v ∨ t.punchIn = some v ∨ t.punchOut = some v := by
  simp only [timingGiven, Bool.or_eq_true, Option.isSome_iff_exists, ← exists_or, or_assoc]

section ReelSettings

variable {s : State} {slot : Nat} {reel : Reel} (h : s.Receives)
include h

/-- REEL_SET_DEFAULTS replaces the defaults by the fitted values (R49). -/
theorem State.ownReelSetDefaults_taken {x : ReelDefaultsFields} (hgiven : timingGiven x.timing = true)
    (hreel : s.floor.resolveReel x.reel = .ok (slot, reel)) :
    let asked := askedTiming x.timing reel.defaults
    s.handover.ownReelSetDefaults x = s.carriedOut (s.floor.modReel slot fun r => { r with defaults := asked.fitted })
      Code.reelSetDefaults (if asked.fitted = asked then .ok else .clamped) asked.fitted.bytes := by
  intro asked
  have hstatus : clampStatus (asked.fitted != asked) = if asked.fitted = asked then .ok else .clamped := by
    simp only [clampStatus, bne_iff_ne, ne_eq, ite_not]
  simp only [State.ownReelSetDefaults, hgiven, hreel, State.handover_floor, require_true, except_ok_bind]
  rw [hstatus]
  exact s.handover_modFloor_respond h _ _ _ _

/-- REEL_SET_RATE replaces the rate of a reel without cues (R50). -/
theorem State.ownReelSetRate_resolved {x : ReelRateFields} {r : Rate} (hr : Rate.ofCode x.rate = some r)
    (hreel : s.floor.resolveReel x.reel = .ok (slot, reel)) :
    (reel.order = [] → s.handover.ownReelSetRate x =
      s.carriedOut (s.floor.modReel slot fun d => { d with rate := r }) Code.reelSetRate .ok []) ∧
    (reel.order ≠ [] → s.handover.ownReelSetRate x = s.replied Code.reelSetRate .reelNotEmpty []) := by
  simp only [State.ownReelSetRate, hr, hreel, State.handover_floor, orElse_some, except_ok_bind]
  refine ⟨fun hempty => ?_, fun hcues => ?_⟩
  · rw [List.isEmpty_iff.2 hempty]
    exact s.handover_modFloor_respond h _ _ _ _
  · rw [Bool.eq_false_iff.2 (mt List.isEmpty_iff.1 hcues)]
    exact s.handover_refuse h _ _

end ReelSettings

/-- Settles O33: the settings of an OPEN reel are taken, or refused by the first failing check. -/
theorem reelSettingsAreTaken : Obligations.ReelSettingsAreTaken := by
  refine ⟨fun s slot reel hs => ⟨fun q x hq hgiven hreel => ?_, fun q x r hq hr hreel => ?_⟩, fun s hs => ?_⟩
  · intro asked t
    rw [exec_reelSetDefaults hs hq, State.ownReelSetDefaults_taken hs ((timingGiven_iff _).2 hgiven) hreel]
    rfl
  · rw [exec_reelSetRate hs hq]
    obtain ⟨hempty, hcues⟩ := State.ownReelSetRate_resolved hs hr hreel
    exact ⟨fun h => congrArg _ (hempty h), fun h => congrArg _ (hcues h)⟩
  · intro unknown closing
    have hunknown : ∀ n, unknown n → s.floor.resolveReel n = .error .unknownReel :=
      fun n hn => Floor.resolveReel_unknown hn
    have hclosing : ∀ n, closing n → s.floor.resolveReel n = .error .reelClosing :=
      fun n ⟨_, _, hfind, hr⟩ => Floor.resolveReel_closing hfind hr
    refine ⟨fun q x hq => ?_, fun q x hq => ?_⟩
    · intro refused t given
      have hgiven : given ↔ timingGiven x.timing = true := (timingGiven_iff_exists x.timing).symm
      simp only [refused, exec_reelSetDefaults hs hq]
      refine ⟨fun hg => ?_, fun hg hr => ?_, fun hg hr => ?_⟩
      · simp [State.ownReelSetDefaults, Bool.eq_false_iff.2 (mt hgiven.2 hg), hs]
      · simp [State.ownReelSetDefaults, hgiven.1 hg, hunknown _ hr, hs]
      · simp [State.ownReelSetDefaults, hgiven.1 hg, hclosing _ hr, hs]
    · intro refused
      simp only [refused, exec_reelSetRate hs hq]
      refine ⟨fun hcode => ?_, fun hcode hr => ?_, fun hcode hr => ?_⟩
      · simp [State.ownReelSetRate, (Rate.ofCode_eq_none_iff _).2 hcode, hs]
      · obtain ⟨r, hrate⟩ := Rate.exists_ofCode hcode
        simp [State.ownReelSetRate, hrate, hunknown _ hr, hs]
      · obtain ⟨r, hrate⟩ := Rate.exists_ofCode hcode
        simp [State.ownReelSetRate, hrate, hclosing _ hr, hs]

end Sys2Proof.Machine
end

section
/-! What the runner, the fault logic and a boundary leave of their stage's tracker: all of it (R107, R144 to R149). -/

namespace Sys2Proof.Machine

variable (f : Floor) (i : Fin 4)

@[simp] theorem Floor.settlePath_tracker : (f.settlePath i).tracker i = f.tracker i := (f.settlePath_pathOnly i).frame.1

@[simp] theorem Floor.dropRun_tracker (h : Nat) : (f.dropRun i h).tracker i = f.tracker i := by
  have hcue : ∀ (g : Floor) (u : Cue → Cue), (g.modCue h u).tracker i = g.tracker i := fun _ _ => rfl
  simp [Floor.dropRun, Floor.dropMark, hcue]

@[simp] theorem Floor.reportRun_tracker (r : Run) (e : Nat) (o : TakeOutcome) :
    (f.reportRun i r e o).tracker i = f.tracker i := by
  unfold Floor.reportRun
  split <;> rfl

@[simp] theorem Floor.abortRun_tracker (r : Run) (e : Nat) : (f.abortRun i r e).tracker i = f.tracker i := by
  simp [Floor.abortRun]

/-- A fold of changes that leave a tracker leaves it. -/
theorem Floor.foldl_tracker {α : Type} (op : Floor → α → Floor) (hop : ∀ g x, (op g x).tracker i = g.tracker i)
    (l : List α) : (l.foldl op f).tracker i = f.tracker i := by
  induction l generalizing f with
  | nil => rfl
  | cons x l ih => exact (ih (op f x)).trans (hop f x)

@[simp] theorem Floor.abortRuns_tracker (w : Run → Bool) (e : Nat) : (f.abortRuns i w e).tracker i = f.tracker i := by
  rw [Floor.abortRuns, Floor.settlePath_tracker]
  exact f.foldl_tracker i _ (fun g r => g.abortRun_tracker i r e) _

@[simp] theorem Floor.leaveWork_tracker (n : RunnerState) (e : Nat) : (f.leaveWork i n e).tracker i = f.tracker i := by
  simp [Floor.leaveWork, Floor.abortAll]

@[simp] theorem Floor.stopChase_tracker : (f.stopChase i).tracker i = f.tracker i := by
  unfold Floor.stopChase
  split <;> simp

@[simp] theorem Floor.enterHalted_tracker (e : Nat) : (f.enterHalted i e).tracker i = f.tracker i := by
  unfold Floor.enterHalted
  dsimp only
  split <;> simp

@[simp] theorem Floor.enterHold_tracker (h e : Nat) : (f.enterHold i h e).tracker i = f.tracker i := by
  unfold Floor.enterHold
  split <;> simp

@[simp] theorem Floor.setNotice_tracker (n : Notice) : (f.setNotice n).tracker i = f.tracker i := rfl

@[simp] theorem Floor.countOccurrence_tracker (j : Fin 4) (c : CounterSource) :
    (f.countOccurrence j c).tracker i = f.tracker i := rfl

/-- The fault logic leaves the tracker whose occurrence it takes (R146). -/
@[simp] theorem Floor.occurrence_tracker (c : Condition) : (f.occurrence i c).tracker i = f.tracker i := by
  unfold Floor.occurrence
  dsimp only
  split
  · rfl
  · have hcount : (if c = .rateMismatch then f.countOccurrence i .rateMismatches else f).tracker i = f.tracker i := by
      split <;> rfl
    rw [← hcount]
    split <;> simp

@[simp] theorem Floor.forgetFrame_tracker : (f.forgetFrame i).tracker i = f.tracker i := by simp [Floor.forgetFrame]

/-- The runner takes a change of its tracker's state, and leaves the tracker (R108). -/
@[simp] theorem Floor.trackerChanged_tracker : (f.trackerChanged i).tracker i = f.tracker i := by
  unfold Floor.trackerChanged
  dsimp only
  split
  · simp
  · split <;> simp
  · simp

@[simp] theorem Floor.armCue_tracker (p h : Nat) (c : Cue) : (f.armCue i p h c).tracker i = f.tracker i := by
  have hcue : ∀ (g : Floor) (u : Cue → Cue), (g.modCue h u).tracker i = g.tracker i := fun _ _ => rfl
  simp [Floor.armCue, Floor.dropMark, hcue]

theorem armOne_tracker (p : Nat) (acc : Floor × Bool) (h : Nat) : (armOne i p acc h).1.tracker i = acc.1.tracker i := by
  unfold armOne
  split
  · rfl
  · split
    · split <;> simp
    · rfl

@[simp] theorem Floor.arm_tracker : (f.arm i).1.tracker i = f.tracker i := by
  unfold Floor.arm
  split
  · rfl
  · next reel _ =>
    have hfold : ∀ (l : List Nat) (acc : Floor × Bool),
        (l.foldl (armOne i (f.tracker i).position) acc).1.tracker i = acc.1.tracker i := by
      intro l
      induction l with
      | nil => exact fun _ => rfl
      | cons h l ih => exact fun acc => (ih _).trans (armOne_tracker i _ acc h)
    dsimp only
    split <;> simp [hfold]

@[simp] theorem Floor.takeCast_tracker : (f.takeCast i).tracker i = f.tracker i := by simp [Floor.takeCast]

@[simp] theorem Floor.selectAuto_tracker : (f.selectAuto i).tracker i = f.tracker i := by
  unfold Floor.selectAuto
  split <;> simp

@[simp] theorem Floor.chaseTest_tracker (b : Bool) : (f.chaseTest i b).tracker i = f.tracker i := by
  unfold Floor.chaseTest
  split <;> split <;> simp

@[simp] theorem Floor.countBlanking_tracker : (f.countBlanking i).tracker i = f.tracker i := by
  unfold Floor.countBlanking
  split <;> simp

@[simp] theorem Floor.countHold_tracker : (f.countHold i).tracker i = f.tracker i := by
  unfold Floor.countHold
  split <;> simp

@[simp] theorem Floor.presentBoundary_tracker (b : Bool) : (f.presentBoundary i b).tracker i = f.tracker i := rfl

@[simp] theorem Floor.boundaryOccurrences_tracker : (f.boundaryOccurrences i).tracker i = f.tracker i := by
  unfold Floor.boundaryOccurrences
  dsimp only
  split
  · split <;> split <;> simp
  · rfl

/-- The runner takes a boundary, and leaves the tracker (R107). -/
@[simp] theorem Floor.boundary_tracker : (f.boundary i).tracker i = f.tracker i := by
  unfold Floor.boundary
  dsimp only
  rw [Floor.boundaryOccurrences_tracker, Floor.presentBoundary_tracker, Floor.countHold_tracker]
  split <;> simp

end Sys2Proof.Machine
end

section
/-! What an event leaves that aborts every run of a stage (R40, R41, R122, R137, R175, R186). -/

namespace Sys2Proof.Machine

/-! ## The cues -/

/-- A cue after one of its runs was aborted (R40, R41, R122). -/
def Cue.aborted (i : Fin 4) (endedAt : Nat) (c : Cue) (r : Run) : Cue :=
  { c with
    inFlight := c.inFlight - 1
    takeCount := if r.punch = .punched then min (c.takeCount + 1) 999 else c.takeCount
    lastTake := if r.punch = .punched then some (r.abortedTake i endedAt) else c.lastTake }

theorem Floor.abortRun_cue (f : Floor) (i : Fin 4) (r : Run) (endedAt h : Nat) :
    (f.abortRun i r endedAt).cue h = (f.cue h).map fun c => if h = r.handle then c.aborted i endedAt r else c := by
  simp only [Floor.abortRun, Floor.reportRun, Floor.dropRun, Floor.dropMark, Floor.cue, Floor.takeReport,
    Cue.aborted]
  split
  · next hp =>
    simp only [Floor.modOverlay_cues, Floor.modCue, Floor.modRunner_cues, Floor.countOccurrence_cues, Table.find_modify]
    by_cases hh : h = r.handle
    · simp only [hh, ↓reduceIte, Option.map_map]
      rfl
    · simp [hh]
  · next hp =>
    simp only [Floor.modOverlay_cues, Floor.modCue, Floor.modRunner_cues, Table.find_modify]
    by_cases hh : h = r.handle <;> simp [hh]

/-- Runs aborted one after another: each cue takes those that name it. -/
theorem Floor.foldl_abortRun_cue (i : Fin 4) (endedAt h : Nat) (l : List Run) (f : Floor) :
    (l.foldl (fun f r => f.abortRun i r endedAt) f).cue h =
      (f.cue h).map fun c => (l.filter fun r => r.handle == h).foldl (Cue.aborted i endedAt) c := by
  induction l generalizing f with
  | nil => simp
  | cons r l ih =>
    rw [List.foldl_cons, ih, Floor.abortRun_cue, Option.map_map, List.filter_cons]
    by_cases hh : h = r.handle
    · simp [hh, Function.comp_def]
    · simp [hh, Ne.symm hh, Function.comp_def]

/-- The takes of the PUNCHED ones of some runs that are aborted (R41). -/
def abortedTakes (i : Fin 4) (endedAt : Nat) (l : List Run) : List Take :=
  (l.filter fun r => r.punch == .punched).map (Run.abortedTake i endedAt)

theorem abortedTakes_cons (i : Fin 4) (endedAt : Nat) (r : Run) (l : List Run) :
    abortedTakes i endedAt (r :: l) =
      if r.punch = .punched then r.abortedTake i endedAt :: abortedTakes i endedAt l else abortedTakes i endedAt l := by
  by_cases h : r.punch = .punched <;> simp [abortedTakes, h]

/-- What the aborts of the runs that name a cue leave of it: the in-flight count lower by one each, and for each PUNCHED
one a take, of which one is held as the last. -/
theorem Cue.foldl_aborted (i : Fin 4) (endedAt : Nat) (l : List Run) (c : Cue) :
    ∃ d, l.foldl (Cue.aborted i endedAt) c = { c with
        inFlight := c.inFlight - l.length
        takeCount := if abortedTakes i endedAt l = [] then c.takeCount
          else min (c.takeCount + (abortedTakes i endedAt l).length) 999
        lastTake := d } ∧
      (abortedTakes i endedAt l = [] → d = c.lastTake) ∧
      (abortedTakes i endedAt l ≠ [] → ∃ t ∈ abortedTakes i endedAt l, d = some t) := by
  induction l generalizing c with
  | nil => exact ⟨c.lastTake, rfl, fun _ => rfl, fun h => absurd rfl h⟩
  | cons r l ih =>
    obtain ⟨d, hfold, hnone, hsome⟩ := ih (c.aborted i endedAt r)
    rw [List.foldl_cons, hfold, abortedTakes_cons]
    generalize abortedTakes i endedAt l = rest at hnone hsome ⊢
    refine ⟨d, ?_⟩
    by_cases hp : r.punch = .punched
    · simp only [Cue.aborted, hp, ↓reduceIte, reduceCtorEq, List.length_cons, false_implies, true_and] at hnone ⊢
      refine ⟨?_, fun _ => ?_⟩
      · simp only [Cue.mk.injEq, true_and, and_true]
        refine ⟨?_, by omega⟩
        cases rest with
        | nil => rfl
        | cons t rest => simp only [reduceCtorEq, ↓reduceIte, List.length_cons]; omega
      · by_cases hrest : rest = []
        · exact ⟨_, List.mem_cons_self, hnone hrest⟩
        · obtain ⟨t, ht, hd⟩ := hsome hrest
          exact ⟨t, List.mem_cons_of_mem _ ht, hd⟩
    · simp only [Cue.aborted, hp, ↓reduceIte, List.length_cons] at hnone ⊢
      refine ⟨?_, hnone, hsome⟩
      simp only [Cue.mk.injEq, true_and, and_true]
      omega

/-! ## The monitor unit -/

/-- An aborted run reaches the monitor unit where it was PUNCHED (R186). -/
theorem Floor.abortRun_monitor (f : Floor) (i : Fin 4) (r : Run) (endedAt : Nat) :
    (f.abortRun i r endedAt).monitor =
      if r.punch = .punched then (f.countOccurrence i .takesAborted).monitor else f.monitor := by
  unfold Floor.abortRun Floor.reportRun
  split <;> rfl

theorem Floor.abortRun_frozen (f : Floor) (i : Fin 4) (r : Run) (endedAt : Nat) :
    (f.abortRun i r endedAt).monitor.frozen = f.monitor.frozen := by
  rw [Floor.abortRun_monitor]
  split <;> rfl

/-- A counter after n occurrences of its source on its stage (R186, R187). -/
def Counter.counted (frozen : Bool) (n : Nat) (c : Counter) : Counter :=
  if n ≠ 0 ∧ c.enabled = true ∧ frozen = false then { c with value := min (c.value + n) 4294967295 } else c

theorem Counter.counted_zero (frozen : Bool) (c : Counter) : c.counted frozen 0 = c := if_neg fun h => h.1 rfl

theorem Counter.counted_stage (frozen : Bool) (n : Nat) (c : Counter) : (c.counted frozen n).stage = c.stage := by
  unfold Counter.counted
  split <;> rfl

theorem Counter.counted_source (frozen : Bool) (n : Nat) (c : Counter) : (c.counted frozen n).source = c.source := by
  unfold Counter.counted
  split <;> rfl

theorem Counter.counted_value (frozen : Bool) (n : Nat) (c : Counter) : (c.counted frozen n).value =
    if n ≠ 0 ∧ c.enabled = true ∧ frozen = false then min (c.value + n) 4294967295 else c.value := by
  unfold Counter.counted
  split <;> rfl

/-- Occurrences add up. -/
theorem Counter.counted_counted (frozen : Bool) (m n : Nat) (c : Counter) :
    (c.counted frozen m).counted frozen n = c.counted frozen (m + n) := by
  by_cases hm : m = 0
  · rw [hm, Counter.counted_zero, Nat.zero_add]
  by_cases hn : n = 0
  · rw [hn, Counter.counted_zero, Nat.add_zero]
  by_cases h : c.enabled = true ∧ frozen = false
  · obtain ⟨he, hf⟩ := h
    simp only [Counter.counted, hm, hn, he, hf, Nat.add_eq_zero_iff, ne_eq, not_false_eq_true, and_self, ↓reduceIte,
      Counter.mk.injEq, and_true]
    omega
  · simp only [Counter.counted, h, and_false, ↓reduceIte]

/-- How many of the occurrences of a stage a counter sees: those of its own stage. -/
def Counter.sees (i : Fin 4) (n : Nat) (c : Counter) : Nat := if c.stage = i then n else 0

theorem Counter.sees_add (i : Fin 4) (m n : Nat) (c : Counter) : c.sees i m + c.sees i n = c.sees i (m + n) := by
  unfold Counter.sees
  split <;> rfl

/-- A counter of aborted takes after one abort. -/
theorem Floor.abortRun_counter (f : Floor) (i : Fin 4) (r : Run) (endedAt : Nat) (k : Fin 8)
    (hc : f.monitor.counters[k].source = .takesAborted) :
    (f.abortRun i r endedAt).monitor.counters[k] = f.monitor.counters[k].counted f.monitor.frozen
      (f.monitor.counters[k].sees i (if r.punch = .punched then 1 else 0)) := by
  rw [Floor.abortRun_monitor]
  by_cases hp : r.punch = .punched
  · simp only [hp, ↓reduceIte, Floor.countOccurrence, Floor.modCounters, Fin.getElem_fin, Vector.getElem_map]
    simp only [Fin.getElem_fin] at hc
    by_cases hs : f.monitor.counters[k.val].stage = i <;>
      simp [Counter.counted, Counter.sees, Counter.add, hc, hs, Config.counterMax]
  · simp [hp, Counter.sees, Counter.counted_zero]

/-- A counter of aborted takes after runs were aborted one after another. -/
theorem Floor.foldl_abortRun_counter (i : Fin 4) (endedAt : Nat) (k : Fin 8) (l : List Run) (f : Floor)
    (hc : f.monitor.counters[k].source = .takesAborted) :
    (l.foldl (fun f r => f.abortRun i r endedAt) f).monitor.counters[k] =
      f.monitor.counters[k].counted f.monitor.frozen
        (f.monitor.counters[k].sees i (l.filter fun r => r.punch == .punched).length) := by
  induction l generalizing f with
  | nil => simp [Counter.sees, Counter.counted_zero]
  | cons r l ih =>
    have hone := f.abortRun_counter i r endedAt k hc
    rw [List.foldl_cons, ih _ (by rw [hone, Counter.counted_source, hc]), hone, Floor.abortRun_frozen,
      Counter.counted_counted]
    have hsees : ∀ n m, ((f.monitor.counters[k].counted f.monitor.frozen n).sees i m) = f.monitor.counters[k].sees i m :=
      fun n m => by simp only [Counter.sees, Counter.counted_stage]
    rw [hsees, Counter.sees_add, List.filter_cons]
    congr 2
    by_cases hp : r.punch = .punched <;> simp [hp, Nat.add_comm]

/-! ## The stage -/

/-- A stage after one of its runs was aborted: its handle is gone from the run list and from the flash marks (R122,
R175). -/
def Stage.withoutRun (handle : Nat) (st : Stage) : Stage :=
  { st with
    runner := { st.runner with runs := st.runner.runs.filter fun x => x.handle != handle }
    overlay := { st.overlay with flashMarks := st.overlay.flashMarks.filter fun h => h != handle } }

theorem Floor.abortRun_stage (f : Floor) (i : Fin 4) (r : Run) (endedAt : Nat) :
    (f.abortRun i r endedAt).stage i = (f.stage i).withoutRun r.handle := by
  have hreport : (f.reportRun i r endedAt .aborted).stage i = f.stage i := by
    unfold Floor.reportRun
    split <;> rfl
  have hcue : ∀ (g : Floor) (h : Nat) (u : Cue → Cue), (g.modCue h u).stage i = g.stage i := fun _ _ _ => rfl
  simp only [Floor.abortRun, Floor.dropRun, Floor.dropMark, Floor.modOverlay_stage, hcue, Floor.modRunner_stage, hreport]
  rfl

/-- A stage after runs of it were aborted one after another. -/
theorem Floor.foldl_abortRun_stage (i : Fin 4) (endedAt : Nat) (l : List Run) (f : Floor) :
    (l.foldl (fun f r => f.abortRun i r endedAt) f).stage i =
      { f.stage i with
        runner := { (f.stage i).runner with
          runs := (f.stage i).runner.runs.filter fun x => !l.any fun r => r.handle == x.handle }
        overlay := { (f.stage i).overlay with
          flashMarks := (f.stage i).overlay.flashMarks.filter fun h => !l.any fun r => r.handle == h } } := by
  induction l generalizing f with
  | nil => simp
  | cons r l ih =>
    rw [List.foldl_cons, ih, Floor.abortRun_stage]
    simp only [Stage.withoutRun, List.filter_filter, List.any_cons, Bool.not_or]
    have hside : ∀ h, (h != r.handle) = !(r.handle == h) := fun h => by rw [bne, BEq.comm]
    simp only [hside, Bool.and_comm]

/-- A path settled with no run left that demands protection or claims (R137). -/
theorem Floor.settlePath_released (f : Floor) (i : Fin 4) (hd : f.demandNow i = false) (hr : f.recordRequest i = false)
    (hgap : (f.path i).state = .record → (f.path i).gapExpiry = none) :
    (f.settlePath i).path i = (f.path i).settled f.now (f.gapCounts i) false false := by
  have hlength : f.gapLength i = f.gapCounts i := rfl
  unfold Floor.settlePath
  simp only [hd, hr, Bool.false_eq_true, ↓reduceIte]
  cases hs : (f.path i).state with
  | record =>
    simp only [Floor.releaseRecord, Floor.modPath_path, Floor.startGap, hlength, Path.settled, hs, Bool.false_eq_true,
      ↓reduceIte]
    split <;> simp [Path.rest, hgap hs]
  | protected_ => simp [Path.settled, hs, Path.rest]
  | free => simp [Path.settled, hs]
  | talk => simp [Path.settled, hs]
  | gap => simp [Path.settled, hs]

/-! ## The loss of all runs of a stage -/

/-- Of four stages, one gives the whole of a list to which the others give nothing. -/
theorem flatMap_finRange_eq {α : Type} (g : Fin 4 → List α) (i : Fin 4) (h : ∀ j, j ≠ i → g j = []) :
    (List.finRange 4).flatMap g = g i := by
  have hl : List.finRange 4 = [0, 1, 2, 3] := by decide
  rw [hl]
  fin_cases i <;> simp [h]

/-- Where all runs of one stage are aborted, those that name a cue are the runs of this stage that do. -/
theorem Floor.abortedRuns_stage (f : Floor) (i : Fin 4) (h : Nat) :
    f.abortedRuns (fun j _ => j == i) h = ((f.runner i).runs.filter fun r => r.handle == h).map fun r => (i, r) := by
  rw [Floor.abortedRuns, flatMap_finRange_eq _ i]
  · simp
  · intro j hj; simp [hj]

/-- A stage whose runs were all aborted one after another has none left, and no mark of them. -/
theorem Floor.foldl_abortRun_all (f : Floor) (i : Fin 4) (e : Nat) :
    ((f.runner i).runs.foldl (fun f r => f.abortRun i r e) f).stage i =
      { f.stage i with
        runner := { (f.stage i).runner with runs := [] }
        overlay := { (f.stage i).overlay with flashMarks :=
          (f.stage i).overlay.flashMarks.filter fun h => !(f.runner i).runs.any fun r => r.handle == h } } := by
  have hnone : ((f.stage i).runner.runs.filter fun x => !(f.runner i).runs.any fun r => r.handle == x.handle) = [] := by
    refine List.filter_eq_nil_iff.2 fun x hx => ?_
    simp only [Bool.not_eq_true', Bool.not_eq_false, List.any_eq_true]
    exact ⟨x, hx, beq_self_eq_true _⟩
  rw [Floor.foldl_abortRun_stage, hnone]

/-- A runner that leaves its work loses all its runs (R122). -/
theorem Floor.leaveWork_losesRuns (f : Floor) (i : Fin 4) (n : RunnerState) (e : Nat) :
    f.LosesRuns (f.leaveWork i n e) i e := by
  obtain ⟨a, ha⟩ : ∃ a, a = (f.runner i).runs.foldl (fun f r => f.abortRun i r e) f := ⟨_, rfl⟩
  have hleave : f.leaveWork i n e =
      (a.settlePath i).modRunner i fun r => { r with state := n, blankingCount := 0 } := by
    simp [Floor.leaveWork, Floor.abortAll, Floor.abortRuns, ha]
  have hstage := f.foldl_abortRun_all i e
  rw [← ha] at hstage
  have hruns : (a.runner i).runs = [] := by rw [Floor.runner, hstage]
  have hnow : a.now = f.now := ha ▸ (Floor.StageEvent.foldl f i _ _ fun g r => g.abortRun_stageEvent i r e).now
  have hpath : a.path i = f.path i := by rw [Floor.path, hstage]; rfl
  have htracker : a.tracker i = f.tracker i := by rw [Floor.tracker, hstage]; rfl
  obtain ⟨p, c, -, hsettle⟩ := a.settlePath_pathOnly i
  have hcue : ∀ h, (f.leaveWork i n e).cue h = (f.cue h).map fun c =>
      ((f.runner i).runs.filter fun r => r.handle == h).foldl (Cue.aborted i e) c := fun h => by
    rw [← Floor.foldl_abortRun_cue, ← ha, hleave, hsettle]; rfl
  refine ⟨?_, ⟨fun h c hc => ?_, fun h hc => ?_, fun k => ?_⟩, ⟨fun _ _ => ?_, ?_, fun htable _ => ?_⟩⟩
  · simp [hleave, hsettle, Floor.runner, hstage]
  · intro runs takes
    have hlength : runs.length = ((f.runner i).runs.filter fun r => r.handle == h).length := by
      simp only [runs, Floor.abortedRuns_stage, List.length_map]
    have htakes : takes = abortedTakes i e ((f.runner i).runs.filter fun r => r.handle == h) := by
      simp only [takes, runs, Floor.abortedRuns_stage, List.filter_map, List.map_map]
      rfl
    rw [hcue, hc, hlength, htakes]
    obtain ⟨d, hd, hlast⟩ := Cue.foldl_aborted i e ((f.runner i).runs.filter fun r => r.handle == h) c
    exact ⟨d, congrArg some hd, hlast⟩
  · rw [hcue, hc]; rfl
  · intro c m hc
    have hcounter : (f.leaveWork i n e).monitor.counters[k] = a.monitor.counters[k] := by rw [hleave, hsettle]; rfl
    have hm : m = c.sees i ((f.runner i).runs.filter fun r => r.punch == .punched).length := by
      by_cases hs : c.stage = i <;> simp [m, Counter.sees, hs]
    rw [hcounter, ha, Floor.foldl_abortRun_counter i e k _ f hc, Counter.counted_value, ← hm]
  · simp [hleave, hsettle, Floor.runner, hstage]
  · simp [hleave, hsettle, Floor.overlay, hstage]
  · intro rest
    have hrest : rest = [] := by simp [rest]
    have hdemand : a.demandNow i = false := by simp [Floor.demandNow, hruns]
    have hrequest : a.recordRequest i = false := by simp [Floor.recordRequest, hruns]
    have hgap : (a.path i).state = .record → (a.path i).gapExpiry = none := by rw [hpath]; exact htable.record
    have hcounts : a.gapCounts i = f.gapCounts i := by simp only [Floor.gapCounts, hpath, htracker]
    have hsettled := a.settlePath_released i hdemand hrequest hgap
    rw [hrest, hleave, Floor.modRunner_path, hsettled, hpath, hnow, hcounts]
    simp [Floor.demands]

/-- Where two floors agree in the stores, in the runs of every stage and in what releases a path of one stage, a loss of
the runs of this stage is one from either. -/
theorem Floor.LosesRuns.of_agree {f f' g : Floor} {i : Fin 4} {e : Nat} (h : f'.LosesRuns g i e)
    (hcues : f'.cues = f.cues) (hmonitor : f'.monitor = f.monitor) (hnow : f'.now = f.now)
    (hruns : ∀ j, (f'.runner j).runs = (f.runner j).runs) (hmode : (f'.runner i).recordMode = (f.runner i).recordMode)
    (hpath : f'.path i = f.path i) (hmarks : (f'.overlay i).flashMarks = (f.overlay i).flashMarks)
    (hrate : (f'.tracker i).rate = (f.tracker i).rate) : f.LosesRuns g i e := by
  obtain ⟨hempty, ⟨htakes, hfree, hcounted⟩, ⟨hleft, hmark, hsettled⟩⟩ := h
  have hcue : ∀ h, f'.cue h = f.cue h := fun h => by rw [Floor.cue, Floor.cue, hcues]
  have haborted : ∀ gone h, f'.abortedRuns gone h = f.abortedRuns gone h := fun gone h => by
    simp only [Floor.abortedRuns, hruns]
  have htable : (f.stage i).PathTable → (f'.stage i).PathTable := fun t => by
    have hp : (f'.stage i).path = (f.stage i).path := hpath
    have hr : (f'.stage i).runner.runs = (f.stage i).runner.runs := hruns i
    have hm : (f'.stage i).runner.recordMode = (f.stage i).runner.recordMode := hmode
    exact ⟨hp ▸ t.free, hp ▸ t.talk, hp ▸ t.record, hp ▸ t.gap, hp ▸ t.demand, by rw [hr, hm]; exact t.windows⟩
  have hclaims : (f.stage i).ClaimsStand → (f'.stage i).ClaimsStand := fun t => by
    have hp : (f'.stage i).path = (f.stage i).path := hpath
    have hr : (f'.stage i).runner.runs = (f.stage i).runner.runs := hruns i
    unfold Stage.ClaimsStand
    rw [hp, hr]
    exact t
  have hcounts : f'.gapCounts i = f.gapCounts i := by simp only [Floor.gapCounts, hpath, hrate]
  refine ⟨hempty, ⟨fun h c hc => ?_, fun h hc => ?_, fun k => ?_⟩, ⟨fun t c => ?_, ?_, fun t c => ?_⟩⟩
  · rw [← haborted]
    exact htakes h c ((hcue h).trans hc)
  · exact hfree h ((hcue h).trans hc)
  · have hvalue := hcounted k
    simp only [hmonitor, hruns] at hvalue
    exact hvalue
  · exact hleft (htable t) (hclaims c) |>.trans (by rw [hruns])
  · rw [hmark, hmarks, hruns]
  · have hafter := hsettled (htable t) (hclaims c)
    simp only [hpath, hnow, hcounts, Floor.demands, hmode, hruns, hcue, Bool.not_true, List.filter_false,
      List.any_nil] at hafter ⊢
    exact hafter

end Sys2Proof.Machine
end

section
/-! A word at the trackers: the orders the manual leaves open, the classes of a word, and what it does in SEARCHING and
ACQUIRING (R76 to R85, R94 to R96). -/

namespace Sys2Proof.Machine

/-! ## Open orders (R42; log 5) -/

theorem insertAt_perm {α : Type} (x : α) : ∀ (k : Nat) (l : List α), (insertAt x k l).Perm (x :: l)
  | 0, [] | _ + 1, [] => .refl _
  | 0, _ :: _ => .refl _
  | k + 1, y :: l => ((insertAt_perm x k l).cons y).trans (.swap x y l)

theorem orderOf_perm {α : Type} : ∀ (n : Nat) (l : List α), (orderOf n l).Perm l
  | _, [] => .refl _
  | _, x :: l => (insertAt_perm x _ _).trans ((orderOf_perm _ l).cons x)

/-- An open order of a list is an order of it. -/
theorem Floor.openOrder_perm {α : Type} (f : Floor) (l : List α) : (f.openOrder l).Perm l := by
  unfold Floor.openOrder
  split
  · exact .refl _
  · exact .refl _
  · exact orderOf_perm _ l

theorem Floor.drawn_stages {α : Type} (f : Floor) (l : List α) : (f.drawn l).stages = f.stages := by
  unfold Floor.drawn
  split <;> rfl

theorem Floor.drawn_now {α : Type} (f : Floor) (l : List α) : (f.drawn l).now = f.now := by
  unfold Floor.drawn
  split <;> rfl

/-! ## Events of several stages -/

/-- Events of some stages, each of its own: another stage is as before. -/
theorem Floor.foldl_stage_of_not_mem (op : Fin 4 → Floor → Floor) (hop : ∀ j g, Floor.StageEvent j g (op j g)) (i : Fin 4)
    (l : List (Fin 4)) (hi : i ∉ l) (f : Floor) : (l.foldl (fun f j => op j f) f).stage i = f.stage i := by
  induction l generalizing f with
  | nil => rfl
  | cons j l ih =>
    obtain ⟨hj, hl⟩ := not_or.1 (mt List.mem_cons.2 hi)
    exact (ih hl (op j f)).trans ((hop j f).stages i hj)

theorem Floor.foldl_now (op : Fin 4 → Floor → Floor) (hop : ∀ j g, Floor.StageEvent j g (op j g)) (l : List (Fin 4))
    (f : Floor) : (l.foldl (fun f j => op j f) f).now = f.now := by
  induction l generalizing f with
  | nil => rfl
  | cons j l ih => exact (ih (op j f)).trans (hop j f).now

/-- Events of some stages, each of its own and once: what a stage becomes is what its event makes of it as it stood. -/
theorem Floor.foldl_stage_of_mem (op : Fin 4 → Floor → Floor) (hop : ∀ j g, Floor.StageEvent j g (op j g)) (i : Fin 4)
    (l : List (Fin 4)) (hl : l.Nodup) (hi : i ∈ l) (f : Floor) :
    ∃ g, g.stage i = f.stage i ∧ (l.foldl (fun f j => op j f) f).stage i = (op i g).stage i := by
  obtain ⟨a, b, rfl⟩ := List.append_of_mem hi
  have hnodup := List.nodup_append.1 hl
  have hb : i ∉ b := (List.nodup_cons.1 hnodup.2.1).1
  have ha : i ∉ a := fun h => hnodup.2.2 i h i List.mem_cons_self rfl
  refine ⟨a.foldl (fun f j => op j f) f, Floor.foldl_stage_of_not_mem op hop i a ha f, ?_⟩
  rw [List.foldl_append, List.foldl_cons, Floor.foldl_stage_of_not_mem op hop i b hb]

/-! ## The trackers that take a word (R76, R77, R79) -/

theorem Floor.mem_listeners (f : Floor) (pin : Fin 6) (i : Fin 4) :
    i ∈ f.listeners pin ↔ selectedPin i (f.tracker i).source = pin ∧ (f.tracker i).state ≠ .idle := by
  simp [Floor.listeners]

theorem Floor.listeners_nodup (f : Floor) (pin : Fin 6) : (f.listeners pin).Nodup :=
  (List.nodup_finRange 4).filter _

/-- Where no other tracker takes the pin, the word is one event of one stage. -/
theorem Floor.SoleListener.listeners {f : Floor} {pin : Fin 6} {i : Fin 4} (h : f.SoleListener pin i) :
    f.listeners pin = [i] := by
  have hone : ∀ i : Fin 4, ((List.finRange 4).filter fun j => j == i) = [i] := by decide
  rw [← hone i]
  refine List.filter_congr fun j _ => ?_
  rw [Bool.eq_iff_iff, Bool.and_eq_true, beq_iff_eq, bne_iff_ne, beq_iff_eq]
  exact h j

section Arrival

variable (f : Floor) (pin : Fin 6) (w : TimecodeWord) (i : Fin 4)

theorem Floor.wordArrives_now : (f.wordArrives pin w).now = max f.now w.arrival :=
  (Floor.foldl_now _ (fun j g => g.trackerWord_stageEvent j w) _ _).trans (Floor.drawn_now _ _)

/-- A tracker that does not take the word is as before, and so is its stage (R79). -/
theorem Floor.wordArrives_stage_of_not_listener
    (h : ¬(selectedPin i (f.tracker i).source = pin ∧ (f.tracker i).state ≠ .idle)) :
    (f.wordArrives pin w).stage i = f.stage i := by
  have hmem : i ∉ (f.atCount w.arrival).openOrder ((f.atCount w.arrival).listeners pin) := by
    rw [(Floor.openOrder_perm _ _).mem_iff, Floor.mem_listeners]
    exact h
  refine (Floor.foldl_stage_of_not_mem _ (fun j g => g.trackerWord_stageEvent j w) i _ hmem _).trans ?_
  rw [Floor.stage, Floor.drawn_stages]
  rfl

/-- A tracker that takes the word makes of its stage what it stood as, whatever the others do (R42). -/
theorem Floor.wordArrives_stage_of_listener
    (h : selectedPin i (f.tracker i).source = pin ∧ (f.tracker i).state ≠ .idle) :
    ∃ g : Floor, g.stage i = f.stage i ∧ (f.wordArrives pin w).stage i = (g.trackerWord i w).stage i := by
  have hperm := (f.atCount w.arrival).openOrder_perm ((f.atCount w.arrival).listeners pin)
  obtain ⟨g, hg, hstage⟩ := Floor.foldl_stage_of_mem _ (fun j g => g.trackerWord_stageEvent j w) i _
    (hperm.nodup_iff.2 (Floor.listeners_nodup _ _)) (hperm.mem_iff.2 ((Floor.mem_listeners _ _ _).2 h))
    ((f.atCount w.arrival).drawn ((f.atCount w.arrival).listeners pin))
  refine ⟨g, hg.trans ?_, hstage⟩
  rw [Floor.stage, Floor.drawn_stages]
  rfl

/-- Where no other tracker takes the word, the arrival is the word at the one tracker. -/
theorem Floor.wordArrives_of_sole (h : f.SoleListener pin i) :
    f.wordArrives pin w = (f.atCount w.arrival).trackerWord i w := by
  have hl : (f.atCount w.arrival).listeners pin = [i] := h.listeners
  simp only [Floor.wordArrives, Floor.forEachOpen, hl, Floor.openOrder, Floor.drawn, List.foldl_cons, List.foldl_nil]

/-- A stage whose tracker changes nothing of it at the word is as before, whether it takes the word or not. -/
theorem Floor.wordArrives_keeps_stage
    (h : ∀ g : Floor, g.tracker i = f.tracker i → (g.tracker i).state ≠ .idle → (g.trackerWord i w).stage i = g.stage i) :
    (f.wordArrives pin w).stage i = f.stage i := by
  by_cases hlisten : selectedPin i (f.tracker i).source = pin ∧ (f.tracker i).state ≠ .idle
  · obtain ⟨g, hg, hstage⟩ := f.wordArrives_stage_of_listener pin w i hlisten
    have ht : g.tracker i = f.tracker i := congrArg Stage.tracker hg
    rw [hstage, h g ht (ht ▸ hlisten.2), hg]
  · exact f.wordArrives_stage_of_not_listener pin w i hlisten

/-- A tracker that keeps its record at the word is as before, whether it takes the word or not. -/
theorem Floor.wordArrives_keeps_tracker
    (h : ∀ g : Floor, g.tracker i = f.tracker i → (g.tracker i).state ≠ .idle →
      (g.trackerWord i w).tracker i = g.tracker i) :
    (f.wordArrives pin w).tracker i = f.tracker i := by
  by_cases hlisten : selectedPin i (f.tracker i).source = pin ∧ (f.tracker i).state ≠ .idle
  · obtain ⟨g, hg, hstage⟩ := f.wordArrives_stage_of_listener pin w i hlisten
    have ht : g.tracker i = f.tracker i := congrArg Stage.tracker hg
    rw [Floor.tracker, hstage, ← ht]
    exact h g ht (ht ▸ hlisten.2)
  · exact congrArg Stage.tracker (f.wordArrives_stage_of_not_listener pin w i hlisten)

/-- A tracker that takes the word becomes what the word makes of it. -/
theorem Floor.wordArrives_tracker (hpin : selectedPin i (f.tracker i).source = pin)
    (hstate : (f.tracker i).state ≠ .idle) {new : Tracker}
    (h : ∀ g : Floor, g.tracker i = f.tracker i → (g.trackerWord i w).tracker i = new) :
    (f.wordArrives pin w).tracker i = new := by
  obtain ⟨g, hg, hstage⟩ := f.wordArrives_stage_of_listener pin w i ⟨hpin, hstate⟩
  exact (congrArg Stage.tracker hstage).trans (h g (congrArg Stage.tracker hg))

end Arrival

/-! ## The classes of a word (R79) -/

theorem classify_eq_malformed_iff (r : Rate) (w : TimecodeWord) :
    classify r w = .malformed ↔ 24 ≤ w.hours ∨ 60 ≤ w.minutes ∨ 60 ≤ w.seconds ∨ 30 ≤ w.frames ∨
      (w.drop = true ∧ (wordLabel w).isDropped = true) := by
  unfold classify
  split_ifs with hm hr
  · simpa [or_assoc] using hm
  · simpa [or_assoc] using hm
  · simpa [or_assoc] using hm

/-- A flag that says whether the rate drops labels, or does not. -/
theorem drop_ne_iff (drop : Bool) (r : Rate) :
    (drop != (r == .fps2997drop)) = true ↔ ¬(drop = true ↔ r = .fps2997drop) := by
  rw [bne_iff_ne, ne_eq, Bool.eq_iff_iff, beq_iff_eq]

theorem classify_eq_rateMismatch_iff (r : Rate) (w : TimecodeWord) :
    classify r w = .rateMismatch ↔ classify r w ≠ .malformed ∧
      (¬(w.drop = true ↔ r = .fps2997drop) ∨ r.base ≤ w.frames) := by
  rw [← drop_ne_iff]
  unfold classify
  split_ifs with hm hr <;> simp_all

/-- A word is valid where its label is valid at the rate and its drop flag is that of the rate. -/
theorem classify_eq_valid_iff (r : Rate) (w : TimecodeWord) :
    classify r w = .valid ↔ (wordLabel w).isValid r = true ∧ (w.drop = true ↔ r = .fps2997drop) := by
  have hthree : classify r w = .valid ↔ classify r w ≠ .malformed ∧ classify r w ≠ .rateMismatch := by
    cases classify r w <;> simp
  have hbase : r.base ≤ 30 := by cases r <;> decide
  have hdropped : (wordLabel w).isDropped = true ↔ w.seconds = 0 ∧ w.frames ≤ 1 ∧ w.minutes % 10 ≠ 0 := by
    simp only [Label.isDropped, Bool.and_eq_true, beq_iff_eq, decide_eq_true_eq, bne_iff_ne, and_assoc]
    rfl
  rw [hthree, ne_eq, ne_eq, classify_eq_rateMismatch_iff, Label.isValid_iff, ne_eq, classify_eq_malformed_iff, hdropped]
  constructor
  · rintro ⟨hm, hr⟩
    have hdrop : w.drop = true ↔ r = .fps2997drop := by
      by_contra h
      exact hr ⟨hm, .inl h⟩
    have hframes : w.frames < r.base := by
      by_contra h
      exact hr ⟨hm, .inr (Nat.not_lt.1 h)⟩
    simp only [not_or, Nat.not_le] at hm
    obtain ⟨hhours, hminutes, hseconds, -, hlabel⟩ := hm
    exact ⟨⟨Nat.le_of_lt_succ hhours, Nat.le_of_lt_succ hminutes, Nat.le_of_lt_succ hseconds, hframes,
      fun h => hlabel ⟨hdrop.2 h.1, h.2⟩⟩, hdrop⟩
  · rintro ⟨⟨hhours, hminutes, hseconds, hframes, hlabel⟩, hdrop⟩
    simp only [wordLabel] at hhours hminutes hseconds hframes hlabel
    refine ⟨?_, fun h => h.2.elim (· hdrop) (Nat.not_le.2 hframes)⟩
    rintro (h | h | h | h | h)
    · omega
    · omega
    · omega
    · omega
    · exact hlabel ⟨hdrop.1 h.1, h.2⟩

/-! ## Frames and pins (R8, R77) -/

/-- The frame index one on in a direction, round the day (R8). -/
theorem Rate.stepFrame_forward (r : Rate) {n : Nat} (h : n < r.framesPerDay) :
    r.stepFrame .forward n = if n + 1 = r.framesPerDay then 0 else n + 1 := by
  change (n + 1) % r.framesPerDay = _
  split
  · next hend => rw [hend, Nat.mod_self]
  · exact Nat.mod_eq_of_lt (by omega)

theorem Rate.stepFrame_reverse (r : Rate) {n : Nat} (h : n < r.framesPerDay) :
    r.stepFrame .reverse n = if n = 0 then r.framesPerDay - 1 else n - 1 := by
  change (n + r.framesPerDay - 1) % r.framesPerDay = _
  split
  · next hzero => exact Nat.mod_eq_of_lt (by omega) |>.trans (by omega)
  · have hday : n + r.framesPerDay - 1 = n - 1 + r.framesPerDay := by omega
    rw [hday, Nat.add_mod_right, Nat.mod_eq_of_lt (by omega)]

/-! ## A word at one tracker -/

section Word

variable {f : Floor} {i : Fin 4} {w : TimecodeWord}

theorem Floor.trackerWord_malformed (hstate : (f.tracker i).state ≠ .idle)
    (hc : classify (f.tracker i).rate w = .malformed) : f.trackerWord i w = f.countOccurrence i .glitches := by
  simp only [Floor.trackerWord, hstate, hc, ↓reduceIte]

theorem Floor.trackerWord_mismatched (hstate : (f.tracker i).state ≠ .idle)
    (hc : classify (f.tracker i).rate w = .rateMismatch) : f.trackerWord i w = f.occurrence i .rateMismatch := by
  simp only [Floor.trackerWord, hstate, hc, ↓reduceIte]

theorem Floor.trackerWord_searching (hstate : (f.tracker i).state = .searching)
    (hc : classify (f.tracker i).rate w = .valid) : f.trackerWord i w = f.wordSearching i w := by
  simp [Floor.trackerWord, hstate, hc]

theorem Floor.trackerWord_acquiring (hstate : (f.tracker i).state = .acquiring)
    (hc : classify (f.tracker i).rate w = .valid) : f.trackerWord i w = f.wordAcquiring i w := by
  simp [Floor.trackerWord, hstate, hc]

/-! ## SEARCHING (R83) -/

/-- The first valid word starts an acquisition (R83). -/
theorem Floor.wordSearching_tracker : (f.wordSearching i w).tracker i = (f.tracker i).startAcquisition w := by
  simp [Floor.wordSearching]

/-- The stage whose runner and transmitter took the change of its tracker to a new one (R99, R108, R172). -/
def Floor.changedTo (f : Floor) (i : Fin 4) (new : Tracker) : Floor :=
  f.modStage i fun st => { st with
    tracker := new, runner := { st.runner with lastPosition := new.position }
    overlay := { st.overlay with lastFrame := none } }

/-- A first word is handed on as the change of state, and then stops a chase (R83, R108). -/
theorem Floor.wordSearching_eq :
    f.wordSearching i w = (f.changedTo i ((f.tracker i).startAcquisition w)).stopChase i := by
  have hstate : ((f.tracker i).startAcquisition w).state = .acquiring := rfl
  simp only [Floor.wordSearching, Floor.trackerChanged, Floor.modTracker_tracker, Floor.modRunner_tracker, hstate]
  congr 1
  simp only [Floor.forgetFrame, Floor.modOverlay, Floor.modRunner, Floor.modTracker, Floor.modStage_modStage,
    Floor.changedTo]
  exact Floor.modStage_congr _ _ _ _ rfl

/-- A first word at a runner that does not work changes no more. -/
theorem Floor.wordSearching_idle (h : (f.runner i).state.working = false) :
    f.wordSearching i w = f.changedTo i ((f.tracker i).startAcquisition w) := by
  have hrunner : ((f.changedTo i ((f.tracker i).startAcquisition w)).runner i).state = (f.runner i).state := by
    simp [Floor.changedTo, Floor.runner]
  rw [Floor.wordSearching_eq, Floor.stopChase, hrunner, h]
  rfl

/-- A first word at a runner that works takes its runs from it (R108, R122). -/
theorem Floor.wordSearching_working (h : (f.runner i).state.working = true) :
    f.LosesRuns (f.wordSearching i w) i (f.tracker i).position := by
  obtain ⟨g, hg⟩ : ∃ g, g = f.changedTo i ((f.tracker i).startAcquisition w) := ⟨_, rfl⟩
  have hstage : g.stage i = { f.stage i with
      tracker := (f.tracker i).startAcquisition w
      runner := { (f.stage i).runner with lastPosition := (f.tracker i).position }
      overlay := { (f.stage i).overlay with lastFrame := none } } := by
    rw [hg]; exact f.modStage_stage i _
  have hrunner : (g.runner i).state = (f.runner i).state := by rw [Floor.runner, hstage]; rfl
  have hposition : (g.tracker i).position = (f.tracker i).position := by rw [Floor.tracker, hstage]; rfl
  rw [Floor.wordSearching_eq, ← hg, Floor.stopChase, hrunner, h, if_pos rfl, hposition]
  refine (g.leaveWork_losesRuns i .standby _).of_agree (hg ▸ rfl) (hg ▸ rfl) (hg ▸ rfl) (fun j => ?_) ?_ ?_ ?_ ?_
  · by_cases hj : j = i
    · rw [hj, Floor.runner, hstage]; rfl
    · rw [Floor.runner, hg, Floor.changedTo, Floor.modStage_stage_ne _ _ _ _ hj]; rfl
  · simp only [Floor.runner, hstage]
  · simp only [Floor.path, hstage]
  · simp only [Floor.overlay, hstage]
  · simp only [Floor.tracker, hstage]
    rfl

/-! ## ACQUIRING (R84, R85, R94 to R96) -/

variable {a : Acquisition}

theorem Floor.wordAcquiring_restarts (ha : (f.tracker i).acquisition = some a)
    (hc : continuesWord (f.tracker i).rate a.direction a.label w = false) :
    f.wordAcquiring i w = f.modTracker i fun _ => (f.tracker i).startAcquisition w := by
  simp only [Floor.wordAcquiring, ha, hc, Bool.false_eq_true, ↓reduceIte]
  exact Floor.modStage_congr _ _ _ _ rfl

theorem Floor.wordAcquiring_counts (ha : (f.tracker i).acquisition = some a)
    (hc : continuesWord (f.tracker i).rate a.direction a.label w = true)
    (hn : a.count + 1 < (f.tracker i).lockCount) :
    f.wordAcquiring i w = f.modTracker i fun _ => (f.tracker i).countWord a w := by
  simp only [Floor.wordAcquiring, ha, hc, ↓reduceIte, Nat.not_le.2 hn]
  exact Floor.modStage_congr _ _ _ _ rfl

/-- A tracker that locks at a word, with the position set from it (R85, R96). -/
def Tracker.lockedAt (t : Tracker) (w : TimecodeWord) : Tracker :=
  { ({ t with state := .locked, direction := w.direction, lastBoundary := some w.arrival, acquisition := none } :
      Tracker).computeSpeed with position := wordFrame t.rate w * 64 }

/-- A lock hands on its boundary, at the position that it sets (R85, R99). -/
theorem Floor.lock_eq (f : Floor) (i : Fin 4) (w : TimecodeWord) :
    f.lock i w = (f.modStage i fun st => { st with
      tracker := (f.tracker i).lockedAt w
      runner := { st.runner with lastPosition := wordFrame (f.tracker i).rate w * 64 } }).boundary i := by
  simp only [Floor.lock]
  congr 1
  simp only [Floor.trackerChanged, Floor.modTracker_tracker, Floor.modRunner_tracker, Tracker.computeSpeed, Floor.place]
  simp only [Floor.modTracker, Floor.modRunner, Floor.modStage_modStage]
  exact Floor.modStage_congr _ _ _ _ rfl

theorem Floor.wordAcquiring_locks (ha : (f.tracker i).acquisition = some a)
    (hc : continuesWord (f.tracker i).rate a.direction a.label w = true)
    (hn : (f.tracker i).lockCount ≤ a.count + 1) :
    f.wordAcquiring i w = (f.modStage i fun st => { st with
      tracker := ((f.tracker i).countWord a w).lockedAt w
      runner := { st.runner with lastPosition := wordFrame (f.tracker i).rate w * 64 } }).boundary i := by
  simp only [Floor.wordAcquiring, ha, hc, ↓reduceIte, hn]
  rw [Floor.lock_eq, Floor.modTracker_tracker, Floor.modTracker, Floor.modStage_modStage]
  rfl

/-- A word continues an earlier one where it has its direction and the label after its (R80). -/
theorem continuesWord_iff (r : Rate) (d : Direction) (earlier : Label) (w : TimecodeWord) :
    continuesWord r d earlier w = true ↔
      w.direction = d ∧ wordLabel w = Label.ofFrame r (r.stepFrame d (earlier.frameIndex r)) := by
  simp only [continuesWord, Bool.and_eq_true, beq_iff_eq]
  rfl

/-- The estimate at a continuing word (R84, R94, R95). -/
theorem Tracker.countWord_e8 (t : Tracker) (a : Acquisition) (w : TimecodeWord) :
    (t.countWord a w).e8 = match t.timingRef with
      | none => t.e8
      | some ref =>
        let p := min (max (w.arrival - ref) (t.rate.nominal / 2)) (2 * t.rate.nominal)
        if a.count = 1 then 8 * p else t.e8 - t.e8 / 8 + p := by
  unfold Tracker.countWord
  cases t.timingRef <;> simp [clampPeriod, updateE8]

end Word

/-- Settles O39: each word by its class, its pin and the state that it meets. -/
theorem wordReachesTracker : Obligations.WordReachesTracker := by
  refine ⟨fun i => ⟨rfl, rfl, rfl⟩, fun r n p hn => ⟨r.stepFrame_forward hn, r.stepFrame_reverse hn, rfl⟩, ?_⟩
  intro pin w s i t f word malformed mismatched valid restarted changed
  have hmalformed : malformed ↔ classify t.rate w = .malformed := (classify_eq_malformed_iff t.rate w).symm
  have hmismatched : mismatched ↔ classify t.rate w = .rateMismatch := by
    rw [classify_eq_rateMismatch_iff, ne_eq, ← hmalformed]
  have hvalid : valid ↔ classify t.rate w = .valid := (classify_eq_valid_iff t.rate w).symm
  have hsole : s.floor.SoleListener pin i → s.floor.wordArrives pin w = f.trackerWord i w ∧ t.state ≠ .idle :=
    fun h => ⟨Floor.wordArrives_of_sole _ _ _ _ h, ((h i).2 rfl).2⟩
  have hother := s.floor.wordArrives_stage_of_not_listener pin w i
  refine ⟨s.modFloor fun f => f.wordArrives pin w, rfl, rfl, s.floor.wordArrives_now pin w, fun hm => ?_, fun hm h => ?_,
    fun hpin => hother fun h => hpin h.1, fun hidle => hother fun h => h.2 hidle, fun hm => ?_, fun hm h => ?_,
    fun hpin hv hstate => ⟨?_, fun h => ?_⟩, fun a hpin hv hstate ha => ?_⟩
  · refine s.floor.wordArrives_keeps_stage pin w i fun g hg hstate => ?_
    rw [Floor.trackerWord_malformed hstate (hg ▸ hmalformed.1 hm)]
    rfl
  · exact (hsole h).1.trans (Floor.trackerWord_malformed (hsole h).2 (hmalformed.1 hm))
  · refine s.floor.wordArrives_keeps_tracker pin w i fun g hg hstate => ?_
    rw [Floor.trackerWord_mismatched hstate (hg ▸ hmismatched.1 hm), Floor.occurrence_tracker]
  · exact (hsole h).1.trans (Floor.trackerWord_mismatched (hsole h).2 (hmismatched.1 hm))
  · refine s.floor.wordArrives_tracker pin w i hpin (ne_of_eq_of_ne hstate (by decide)) fun g hg => ?_
    rw [Floor.trackerWord_searching (hg ▸ hstate) (hg ▸ hvalid.1 hv), Floor.wordSearching_tracker, hg]
    rfl
  · have hu : s.floor.wordArrives pin w = f.wordSearching i w :=
      (hsole h).1.trans (Floor.trackerWord_searching hstate (hvalid.1 hv))
    simp only [State.modFloor_floor, hu]
    exact ⟨fun hwork => Floor.wordSearching_idle hwork, fun hwork => Floor.wordSearching_working hwork⟩
  · intro continues e8 v new counted locked
    have hcontinues : continues ↔ continuesWord t.rate a.direction a.label w = true := (continuesWord_iff _ _ _ _).symm
    have he8 : (t.countWord a w).e8 = e8 := t.countWord_e8 a w
    have hcounted : t.countWord a w = counted := by
      simp only [counted, ← he8]
      rfl
    have hlocked : (t.countWord a w).lockedAt w = locked := by
      rw [hcounted]
      simp only [locked, Bool.decide_and]
      rfl
    have htracker : ∀ new, (∀ g : Floor, g.tracker i = t → (g.wordAcquiring i w).tracker i = new) →
        (s.floor.wordArrives pin w).tracker i = new := fun new hnew =>
      s.floor.wordArrives_tracker pin w i hpin (ne_of_eq_of_ne hstate (by decide)) fun g hg => by
        rw [Floor.trackerWord_acquiring (hg ▸ hstate) (hg ▸ hvalid.1 hv), hnew g hg]
    have hu : s.floor.SoleListener pin i → s.floor.wordArrives pin w = f.wordAcquiring i w := fun h =>
      (hsole h).1.trans (Floor.trackerWord_acquiring hstate (hvalid.1 hv))
    rw [← hcounted, ← hlocked, hcontinues]
    refine ⟨fun hc => ?_, fun hc hn => ?_, fun hc hn => ?_⟩
    · have hc := Bool.eq_false_iff.2 hc
      refine ⟨htracker _ fun g hg => ?_, fun h => (hu h).trans (Floor.wordAcquiring_restarts ha hc)⟩
      rw [Floor.wordAcquiring_restarts (hg ▸ ha) (hg ▸ hc), Floor.modTracker_tracker, hg]
      rfl
    · refine ⟨htracker _ fun g hg => ?_, fun h => (hu h).trans (Floor.wordAcquiring_counts ha hc hn)⟩
      rw [Floor.wordAcquiring_counts (hg ▸ ha) (hg ▸ hc) (hg ▸ hn), Floor.modTracker_tracker, hg]
    · refine ⟨htracker _ fun g hg => ?_, fun h => (hu h).trans (Floor.wordAcquiring_locks ha hc hn)⟩
      rw [Floor.wordAcquiring_locks (hg ▸ ha) (hg ▸ hc) (hg ▸ hn), Floor.boundary_tracker, Floor.tracker,
        Floor.modStage_stage, hg]

end Sys2Proof.Machine
end

section
/-! The numbers of request fields, codes and statuses (R201, R202, section 11.4). -/

namespace Sys2Proof.Machine

/-! ## Tables: a number stands for the value at its place, one past the end for none (R201) -/

theorem Rate.ofCode_eq : ∀ n, Rate.ofCode n = [Rate.fps23976, .fps24, .fps25, .fps2997drop, .fps2997, .fps30][n]?
  | 0 | 1 | 2 | 3 | 4 | 5 | _ + 6 => rfl

theorem Enable.ofCode_eq : ∀ n, Enable.ofCode n = [Enable.enabled, .muted][n]?
  | 0 | 1 | _ + 2 => rfl

theorem Approval.ofCode_eq : ∀ n, Approval.ofCode n = [Approval.approvalOpen, .approvalHold, .printed][n]?
  | 0 | 1 | 2 | _ + 3 => rfl

theorem SourceChoice.ofCode_eq : ∀ n, SourceChoice.ofCode n = [SourceChoice.choiceA, .choiceB, .choiceC][n]?
  | 0 | 1 | 2 | _ + 3 => rfl

theorem RecordMode.ofCode_eq : ∀ n, RecordMode.ofCode n = [RecordMode.rehearse, .record][n]?
  | 0 | 1 | _ + 2 => rfl

theorem ResponseMode.ofCode_eq :
    ∀ n, ResponseMode.ofCode n = [ResponseMode.halt, .resumeSlow, .resumeFast, .report, .ignore][n]?
  | 0 | 1 | 2 | 3 | 4 | _ + 5 => rfl

theorem BankMode.ofCode_eq : ∀ n, BankMode.ofCode n = [BankMode.dedicated, .routed][n]?
  | 0 | 1 | _ + 2 => rfl

theorem Drive.ofCode_eq : ∀ n, Drive.ofCode n = [Drive.pushPull, .openDrain][n]?
  | 0 | 1 | _ + 2 => rfl

theorem Polarity.ofCode_eq : ∀ n, Polarity.ofCode n = [Polarity.normal, .inverted][n]?
  | 0 | 1 | _ + 2 => rfl

theorem flagOfCode_eq : ∀ n, flagOfCode n = [false, true][n]?
  | 0 | 1 | _ + 2 => rfl

theorem CounterSource.ofCode_eq : ∀ n, CounterSource.ofCode n = [CounterSource.frames, .lockedFrames, .speedBand,
    .recordFrames, .starvedFrames, .runOccupancy, .takesComplete, .takesAborted, .jumps, .glitches, .rateMismatches][n]?
  | 0 | 1 | 2 | 3 | 4 | 5 | 6 | 7 | 8 | 9 | 10 | _ + 11 => rfl

theorem filterOfCode_eq :
    ∀ n, filterOfCode n = [some Phase.armed, some .sweep, some .speaking, some .tail, none][n]?
  | 0 | 1 | 2 | 3 | 4 | _ + 5 => rfl

theorem StageNotice.ofPlace_eq : ∀ n, StageNotice.ofPlace n =
    [StageNotice.dropout, .offSpeed, .rateMismatch, .jumpInCue, .cueStarved, .latePunch][n]?
  | 0 | 1 | 2 | 3 | 4 | 5 | _ + 6 => rfl

/-- A notice stands at the place that names it. -/
theorem StageNotice.place_of_ofPlace {n : Nat} {notice : StageNotice} (h : StageNotice.ofPlace n = some notice) :
    notice.place = n := by
  unfold StageNotice.ofPlace at h
  split at h <;> cases h <;> rfl

/-! ## Rates, enumerations and flags that a request carries -/

/-- What a selection's code gives: none where it is not given, else its value, or BAD_REQUEST. -/
theorem givenCode_spec {α : Type} (decode : Nat → Option α) (n : Nat) : givenCode decode none = .ok none ∧
    (∀ x, decode n = some x → givenCode decode (some n) = .ok (some x)) ∧
    (decode n = none → givenCode decode (some n) = .error .badRequest) := by
  refine ⟨rfl, fun x hx => ?_, fun hnone => ?_⟩
  · rw [givenCode, hx]; rfl
  · rw [givenCode, hnone]; rfl

theorem Rate.ofCode_code (r : Rate) : Rate.ofCode r.code = some r := by cases r <;> rfl
theorem SourceChoice.ofCode_code (c : SourceChoice) : SourceChoice.ofCode c.code = some c := by cases c <;> rfl
theorem RecordMode.ofCode_code (m : RecordMode) : RecordMode.ofCode m.code = some m := by cases m <;> rfl
theorem ResponseMode.ofCode_code (m : ResponseMode) : ResponseMode.ofCode m.code = some m := by cases m <;> rfl

/-! ## Stages, podiums, line sources (R163, R164) -/

theorem stageOfNat_val (i : Fin 4) : stageOfNat i.val = some i := dif_pos i.isLt
theorem podiumOfNat_val (k : Fin 6) : podiumOfNat k.val = some k := dif_pos k.isLt
theorem stageOfNat_none {n : Nat} (h : 3 < n) : stageOfNat n = none := dif_neg (by omega)
theorem podiumOfNat_none {n : Nat} (h : 5 < n) : podiumOfNat n = none := dif_neg (by omega)

/-- The sources of R163 in the order of its table, with a stage and a podium for the rows that carry them. -/
def lineSources (i : Fin 4) (k : Fin 6) : List LineSource :=
  [.constantInactive, .constantActive, .record i, .talkback i, .beep i, .streamerActive i, .armed i, .anySpeak i,
    .stageFault i, .podiumSpeak i k, .podiumStandby i k, .podiumBicolour i k, .attention]

theorem lineSourceOf_eq (i : Fin 4) (k : Fin 6) :
    ∀ n, lineSourceOf ⟨n, i.val, k.val⟩ = (lineSources i k)[n]?
  | 0 | 1 | 12 | _ + 13 => rfl
  | 2 | 3 | 4 | 5 | 6 | 7 | 8 => by simp only [lineSourceOf, stageOfNat_val]; rfl
  | 9 | 10 | 11 => by simp only [lineSourceOf, stageOfNat_val, podiumOfNat_val]; rfl

/-- A line source is laid out as its number and the parameters of its row (log 15). -/
theorem lineSources_bytes (i : Fin 4) (k : Fin 6) : ∀ (n : Nat) (source : LineSource),
    (lineSources i k)[n]? = some source → source.bytes =
      byte n :: (if 2 ≤ n ∧ n ≤ 11 then [byte i.val] else []) ++ (if 9 ≤ n ∧ n ≤ 11 then [byte k.val] else [])
  | 0, _, h | 1, _, h | 2, _, h | 3, _, h | 4, _, h | 5, _, h | 6, _, h | 7, _, h | 8, _, h | 9, _, h | 10, _, h
  | 11, _, h | 12, _, h => by cases h; rfl
  | n + 13, _, h => by cases h

/-- A row without parameters reads none. -/
theorem lineSourceOf_plain {n : Nat} (h : n ≤ 1 ∨ n = 12) (a b : Nat) :
    lineSourceOf ⟨n, a, b⟩ = lineSourceOf ⟨n, 0, 0⟩ := by
  obtain rfl | rfl | rfl : n = 0 ∨ n = 1 ∨ n = 12 := by omega
  all_goals rfl

/-- A row without a podium reads none. -/
theorem lineSourceOf_stage (a b : Nat) : ∀ n, n ≤ 8 → lineSourceOf ⟨n, a, b⟩ = lineSourceOf ⟨n, a, 0⟩
  | 0, _ | 1, _ | 2, _ | 3, _ | 4, _ | 5, _ | 6, _ | 7, _ | 8, _ => rfl

/-- A row with a stage names none above 3 (R164). -/
theorem lineSourceOf_badStage {a : Nat} (b : Nat) (ha : 3 < a) :
    ∀ n, 2 ≤ n → n ≤ 11 → lineSourceOf ⟨n, a, b⟩ = none
  | 2, _, _ | 3, _, _ | 4, _, _ | 5, _, _ | 6, _, _ | 7, _, _ | 8, _, _ | 9, _, _ | 10, _, _ | 11, _, _ => by
    simp [lineSourceOf, stageOfNat_none ha]

/-- A row with a podium names none above 5 (R164). -/
theorem lineSourceOf_badPodium (a : Nat) {b : Nat} (hb : 5 < b) :
    ∀ n, 9 ≤ n → n ≤ 11 → lineSourceOf ⟨n, a, b⟩ = none
  | 9, _, _ | 10, _, _ | 11, _, _ => by simp [lineSourceOf, podiumOfNat_none hb]

theorem lineSourceOf_outside (a b : Nat) : ∀ n, 12 < n → lineSourceOf ⟨n, a, b⟩ = none
  | _ + 13, _ => rfl

/-! ## Notices (R153, R154; log 23) -/

theorem noticeOfName_stage (i : Fin 4) (n : Nat) :
    noticeOfName ⟨i.val, n⟩ = (StageNotice.ofPlace n).map (.ofStage i) := by
  have hscope : i.val ≠ 15 := by omega
  simp [noticeOfName, hscope, stageOfNat_val]

theorem noticeOfName_device (n : Nat) : noticeOfName ⟨15, n⟩ =
    if n = 6 then some .linkDropped else if n = 7 then some .reelClosed else none := by
  simp only [noticeOfName, ↓reduceIte]
  split
  · rfl
  · rfl
  · next h6 h7 => rw [if_neg h6, if_neg h7]

theorem noticeOfName_outside {m : Nat} (h : 3 < m) (hm : m ≠ 15) (n : Nat) : noticeOfName ⟨m, n⟩ = none := by
  simp [noticeOfName, hm, stageOfNat_none h]

/-! ## Windows (R194, R196, section 11.4) -/

/-- Each code of the index is the first byte of a window of its request; a CUE_RETIRE with the force flag 1 is the row
FORCED_RETIRE (log 34). -/
theorem requestIndex_windowCommand (bytes : List Byte) :
    let w {α : Type} : Request α := .window bytes
    (requestIndex.map fun code => windowCommand (code :: bytes)) = [
      Instr.cueCreate w, .cueEdit w, if bytes[3]? = some 1 then .forcedRetire w else .cueRetire w, .cueRead w, .cueMark w,
      .reelOpen w, .reelSetDefaults w, .reelSetRate w, .reelRead w, .reelClose w, .cueFind w, .cueNext w, .cueList w,
      .charDefine w, .charRetire w, .charRead w, .castAssign w, .castRelease w, .castRead w, .trackerSet w, .trackerRead w,
      .stageEnable w, .stageDisable w, .stageReset w, .stageSelectReel w, .stageSet w, .stageRead w, .talkback w,
      .pathSet w, .pathRead w, .faultClear w, .faultSet w, .faultRead w, .noticeRead w, .noticeMask w, .noticeClear w,
      .lineBankSet w, .lineSet w, .lineRead w, .overlaySet w, .overlayRead w, .monConfig w, .monClear w, .monFreeze w,
      .monSetBands w, .monRead w, .deviceReset w].map some := by
  intro w
  have hforce : (bytes[3]?.map BitVec.toNat = some 1) = (bytes[3]? = some 1) := by
    cases bytes[3]? with
    | none => simp
    | some b => simp [BitVec.toNat_eq]
  have hretire : windowCommand (0x12 :: bytes) =
      some (if bytes[3]?.map BitVec.toNat = some 1 then .forcedRetire w else .cueRetire w) := rfl
  simp only [hforce] at hretire
  simp only [requestIndex, List.map_cons, List.map_nil, hretire]
  rfl

/-- A window whose declared length is that of its payload, and whose presence field marks no absent field, reads as its
fields (R196). -/
theorem readRequest_window {α : Type} (parse : List Byte → Option α) (fieldCount : Option Nat) (payload : List Byte)
    (x : α) (hx : parse payload = some x) (hlen : payload.length ≤ 250)
    (hmask : ∀ n a b rest, fieldCount = some n → payload = a :: b :: rest → a.toNat * 256 + b.toNat < 2 ^ n) :
    readRequest fieldCount parse (.window (byte payload.length :: payload)) = .ok x := by
  have hpresence : presenceBad fieldCount payload = false :=
    match fieldCount, payload, hmask with
    | none, _, _ | some _, [], _ | some _, [_], _ => rfl
    | some n, a :: b :: rest, hmask => decide_eq_false (Nat.not_le.2 (hmask n a b rest rfl rfl))
  have hdeclared : (byte payload.length).toNat = payload.length := by
    simp only [byte, BitVec.toNat_ofNat]
    omega
  have hlength : (decide (250 < (byte payload.length).toNat) ||
      1 + (byte payload.length :: payload).length != 2 + (byte payload.length).toNat) = false := by
    rw [hdeclared, Bool.or_eq_false_iff]
    refine ⟨decide_eq_false (Nat.not_lt.2 hlen), ?_⟩
    rw [List.length_cons, bne_eq_false_iff_eq]
    omega
  simp only [readRequest, checkWindow, hpresence, hlength, hx, Bool.false_eq_true, ↓reduceIte]

end Sys2Proof.Machine
end

section
/-! The layouts of request windows (R201, section 11.5): what the readers of one field take from the front of a payload,
and the payload of each request read as its fields. -/

namespace Sys2Proof.Machine

/-! ## Numbers and presence fields -/

theorem byte_toNat {n : Nat} (h : n < 256) : (byte n).toNat = n := by
  simp only [byte, BitVec.toNat_ofNat]
  omega

/-- The presence field that marks the fields given, from bit 0 on (R201). -/
def maskOf (marks : List Bool) : Nat := marks.foldr (fun mark n => 2 * n + mark.toNat) 0

theorem maskOf_lt (marks : List Bool) : maskOf marks < 2 ^ marks.length := by
  induction marks with
  | nil => exact Nat.one_pos
  | cons mark marks ih =>
    have hbit : mark.toNat ≤ 1 := Bool.toNat_le mark
    have hstep : maskOf (mark :: marks) = 2 * maskOf marks + mark.toNat := rfl
    rw [hstep, List.length_cons, Nat.pow_succ]
    omega

/-- A presence field marks a field where its bit says so. -/
theorem maskOf_testBit (marks : List Bool) (k : Nat) : (maskOf marks).testBit k = marks.getD k false := by
  induction marks generalizing k with
  | nil => simp [maskOf]
  | cons mark marks ih =>
    have hstep : maskOf (mark :: marks) = 2 * maskOf marks + mark.toNat := rfl
    have hbit : mark.toNat < 2 := Bool.toNat_lt mark
    cases k with
    | zero =>
      rw [hstep, Nat.testBit_zero]
      cases mark <;> simp
    | succ k =>
      have hhalf : (2 * maskOf marks + mark.toNat) / 2 = maskOf marks := by omega
      rw [hstep, Nat.testBit_succ, hhalf, ih]
      rfl

theorem read1_cons (a : Byte) (rest : List Byte) : read1 (a :: rest) = some (a.toNat, rest) := rfl

theorem read2_cons (a b : Byte) (rest : List Byte) : read2 (a :: b :: rest) = some (256 * a.toNat + b.toNat, rest) := by
  simp only [read2, number2, Nat.mul_comm]

/-- A presence field of at most 16 marks reads as its number. -/
theorem read2_maskOf (marks : List Bool) (rest : List Byte) (h : marks.length ≤ 16) :
    read2 (bytes2 (maskOf marks) ++ rest) = some (maskOf marks, rest) := by
  have hlt : maskOf marks < 65536 := (maskOf_lt marks).trans_le (Nat.pow_le_pow_right (by decide) h)
  simp only [bytes2, List.cons_append, List.nil_append, read2_cons, byte, BitVec.toNat_ofNat, Option.some.injEq,
    Prod.mk.injEq, and_true]
  omega

/-! ## Fields given or not given, lists, positions -/

/-- A field given or not given is read where the presence field marks it so. -/
theorem readGiven_flatMap {α β : Type} {item : List Byte → Option (α × List Byte)} {layout : β → List Byte}
    {value : β → α} (x : Option β) (hitem : ∀ b rest, x = some b → item (layout b ++ rest) = some (value b, rest)) (mask k : Nat)
    (rest : List Byte) (hmask : mask.testBit k = x.isSome) :
    readGiven mask k item (x.toList.flatMap layout ++ rest) = some (x.map value, rest) := by
  unfold readGiven
  rw [hmask]
  cases x with
  | none => rfl
  | some b =>
    simp only [Option.toList_some, List.flatMap_cons, List.flatMap_nil, List.append_nil, hitem b rest rfl]
    rfl

theorem readGiven_byte (x : Option Byte) (mask k : Nat) (rest : List Byte) (hmask : mask.testBit k = x.isSome) :
    readGiven mask k read1 (x.toList ++ rest) = some (x.map BitVec.toNat, rest) := by
  have h := readGiven_flatMap (layout := fun b : Byte => [b]) x (fun b rest _ => read1_cons b rest) mask k rest hmask
  rwa [List.flatMap_singleton'] at h

theorem readMany_flatMap {α β : Type} {item : List Byte → Option (α × List Byte)} {layout : β → List Byte} {value : β → α}
    (hitem : ∀ b rest, item (layout b ++ rest) = some (value b, rest)) (l : List β) (rest : List Byte) :
    readMany item l.length (l.flatMap layout ++ rest) = some (l.map value, rest) := by
  induction l with
  | nil => rfl
  | cons b l ih =>
    simp only [List.length_cons, readMany, List.flatMap_cons, List.append_assoc, hitem, Option.bind_eq_bind,
      Option.bind_some, ih]
    rfl

/-- A list of fewer than 256 items is read by its count byte. -/
theorem readList_flatMap {α β : Type} {item : List Byte → Option (α × List Byte)} {layout : β → List Byte} {value : β → α}
    (hitem : ∀ b rest, item (layout b ++ rest) = some (value b, rest)) (l : List β) (rest : List Byte)
    (h : l.length < 256) : readList item (byte l.length :: (l.flatMap layout ++ rest)) = some (l.map value, rest) := by
  simp only [readList, read1_cons, byte_toNat h, Option.bind_eq_bind, Option.bind_some]
  exact readMany_flatMap hitem l rest

theorem readList_bytes (l : List Byte) (rest : List Byte) (h : l.length < 256) :
    readList read1 (byte l.length :: (l ++ rest)) = some (l.map BitVec.toNat, rest) := by
  have hl := readList_flatMap (layout := fun b : Byte => [b]) read1_cons l rest h
  rwa [List.flatMap_singleton'] at hl

theorem readList_readByte (l : List Byte) (rest : List Byte) (h : l.length < 256) :
    readList readByte (byte l.length :: (l ++ rest)) = some (l, rest) := by
  have hl := readList_flatMap (item := readByte) (layout := fun b : Byte => [b]) (value := id) (fun _ _ => rfl) l rest h
  rwa [List.flatMap_singleton', List.map_id] at hl

/-- The position field of five bytes (R9, R201). -/
def placeOf (v : Vector Byte 5) : PositionField := ⟨v[0].toNat, v[1].toNat, v[2].toNat, v[3].toNat, v[4].toNat⟩

theorem readPosition_vector (v : Vector Byte 5) (rest : List Byte) :
    readPosition (v.toList ++ rest) = some (placeOf v, rest) := by
  obtain ⟨⟨l⟩, hl⟩ := v
  match l, hl with
  | [_, _, _, _, _], _ => rfl

/-- The seven timing fields of seven bytes, each given or not given (R22, R201). -/
def timingOf (v : Vector (Option Byte) 7) : TimingFields :=
  ⟨v[0].map BitVec.toNat, v[1].map BitVec.toNat, v[2].map BitVec.toNat, v[3].map BitVec.toNat, v[4].map BitVec.toNat,
    v[5].map BitVec.toNat, v[6].map BitVec.toNat⟩

theorem Vector.toList_seven {α : Type} (v : Vector α 7) : v.toList = [v[0], v[1], v[2], v[3], v[4], v[5], v[6]] := by
  obtain ⟨⟨l⟩, hl⟩ := v
  match l, hl with
  | [_, _, _, _, _, _, _], _ => rfl

/-- The seven timing fields of a selection, where the marks from k on are theirs. -/
theorem readTiming_vector (v : Vector (Option Byte) 7) (before : List Bool) (rest : List Byte) :
    readTiming (maskOf (before ++ v.toList.map Option.isSome)) before.length (v.toList.flatMap Option.toList ++ rest) =
      some (timingOf v, rest) := by
  have hread : ∀ (j : Nat) (x : Option Byte) (rest : List Byte), v.toList[j]? = some x →
      readGiven (maskOf (before ++ v.toList.map Option.isSome)) (before.length + j) read1 (x.toList ++ rest) =
        some (x.map BitVec.toNat, rest) := fun j x rest hx => by
    refine readGiven_byte x _ _ rest ?_
    rw [maskOf_testBit, List.getD_append_right _ _ _ _ (Nat.le_add_right _ _), Nat.add_sub_cancel_left,
      List.getD_eq_getElem?_getD, List.getElem?_map, hx]
    rfl
  generalize maskOf (before ++ v.toList.map Option.isSome) = mask at *
  rw [Vector.toList_seven v] at *
  have hlead := fun rest => hread 0 v[0] rest rfl
  rw [Nat.add_zero] at hlead
  simp only [readTiming, List.flatMap_cons, List.flatMap_nil, List.append_assoc, List.nil_append, hlead,
    hread 1 v[1] _ rfl, hread 2 v[2] _ rfl, hread 3 v[3] _ rfl, hread 4 v[4] _ rfl, hread 5 v[5] _ rfl,
    hread 6 v[6] _ rfl, Option.bind_eq_bind, Option.bind_some]
  rfl

/-- A one-byte field that a presence field marks as given or not given. -/
@[simp] theorem readGiven_maskOf (marks : List Bool) (k : Nat) (x : Option Byte) (rest : List Byte)
    (h : marks.getD k false = x.isSome) :
    readGiven (maskOf marks) k read1 (x.toList ++ rest) = some (x.map BitVec.toNat, rest) :=
  readGiven_byte x _ _ rest ((maskOf_testBit marks k).trans h)

/-- The same, where it is the last of its payload. -/
@[simp] theorem readGiven_maskOf_end (marks : List Bool) (k : Nat) (x : Option Byte)
    (h : marks.getD k false = x.isSome) :
    readGiven (maskOf marks) k read1 x.toList = some (x.map BitVec.toNat, []) := by
  have hread := readGiven_maskOf marks k x [] h
  rwa [List.append_nil] at hread

/-- A field that a presence field does not mark is not read. -/
theorem readGiven_unmarked {α : Type} (item : List Byte → Option (α × List Byte)) (marks : List Bool) (k : Nat)
    (p : List Byte) (h : marks.getD k false = false) : readGiven (maskOf marks) k item p = some (none, p) := by
  rw [readGiven, maskOf_testBit, h]
  rfl

/-- A field that a presence field marks is read as its item. -/
theorem readGiven_marked {α : Type} {item : List Byte → Option (α × List Byte)} {p rest : List Byte} {x : α}
    (hitem : item p = some (x, rest)) (marks : List Bool) (k : Nat) (h : marks.getD k false = true) :
    readGiven (maskOf marks) k item p = some (some x, rest) := by
  rw [readGiven, maskOf_testBit, h, if_pos rfl, hitem]
  rfl

/-! ## The layouts (section 11.5) -/

section Selections

variable (a b c d e : Option Byte) (h l : Byte)

theorem parseCueMark_layout :
    parseCueMark (bytes2 (maskOf [a.isSome, b.isSome]) ++ [h, l] ++ [a, b].flatMap Option.toList) =
      some ⟨256 * h.toNat + l.toNat, a.map BitVec.toNat, b.map BitVec.toNat⟩ := by
  simp [parseCueMark, read2_maskOf, read2_cons, readEnd]

theorem parseTrackerSet_layout :
    parseTrackerSet (bytes2 (maskOf [a.isSome, b.isSome, c.isSome, d.isSome, e.isSome]) ++ [h] ++
        [a, b, c, d, e].flatMap Option.toList) =
      some ⟨h.toNat, a.map BitVec.toNat, b.map BitVec.toNat, c.map BitVec.toNat, d.map BitVec.toNat,
        e.map BitVec.toNat⟩ := by
  simp [parseTrackerSet, read2_maskOf, read1_cons, readEnd]

theorem parseStageSet_layout :
    parseStageSet (bytes2 (maskOf [a.isSome, b.isSome, c.isSome]) ++ [h] ++ [a, b, c].flatMap Option.toList) =
      some ⟨h.toNat, a.map BitVec.toNat, b.map BitVec.toNat, c.map BitVec.toNat⟩ := by
  simp [parseStageSet, read2_maskOf, read1_cons, readEnd]

theorem parseFaultSet_layout :
    parseFaultSet (bytes2 (maskOf [a.isSome, b.isSome, c.isSome, d.isSome]) ++ [h] ++
        [a, b, c, d].flatMap Option.toList) =
      some ⟨h.toNat, a.map BitVec.toNat, b.map BitVec.toNat, c.map BitVec.toNat, d.map BitVec.toNat⟩ := by
  simp [parseFaultSet, read2_maskOf, read1_cons, readEnd]

theorem parseLineSet_layout_unsourced :
    parseLineSet (bytes2 (maskOf [false, b.isSome, c.isSome]) ++ [h] ++ [b, c].flatMap Option.toList) =
      some ⟨h.toNat, none, b.map BitVec.toNat, c.map BitVec.toNat⟩ := by
  simp [parseLineSet, read2_maskOf, read1_cons, readGiven_unmarked, readEnd]

/-- How many parameter bytes a row of R163 carries: a stage in rows 2 to 11, a podium in rows 9 to 11. -/
theorem sourceParameters_eq : ∀ n, n ≤ 12 → sourceParameters n =
    some ((if 2 ≤ n ∧ n ≤ 11 then 1 else 0) + if 9 ≤ n ∧ n ≤ 11 then 1 else 0)
  | 0, _ | 1, _ | 2, _ | 3, _ | 4, _ | 5, _ | 6, _ | 7, _ | 8, _ | 9, _ | 10, _ | 11, _ | 12, _ => rfl

/-- A line source of the table is read with the parameters of its row (R163, R164; log 15). -/
theorem readSource_layout (x : LineSourceField) (hsource : x.source ≤ 12) (hstage : x.stage < 256)
    (hpodium : x.podium < 256) (hnoStage : x.source < 2 ∨ x.source = 12 → x.stage = 0)
    (hnoPodium : x.source < 9 ∨ x.source = 12 → x.podium = 0)
    (after : Nat) (rest : List Byte) :
    readSource after (byte x.source :: ((if 2 ≤ x.source ∧ x.source ≤ 11 then [byte x.stage] else []) ++
      ((if 9 ≤ x.source ∧ x.source ≤ 11 then [byte x.podium] else []) ++ rest))) = some (x, rest) := by
  obtain ⟨source, stage, podium⟩ := x
  simp only at hsource hstage hpodium hnoStage hnoPodium ⊢
  simp only [readSource, read1_cons, byte_toNat (show source < 256 by omega), sourceParameters_eq source hsource,
    Option.bind_eq_bind, Option.bind_some, Option.getD_some]
  by_cases hs : 2 ≤ source ∧ source ≤ 11
  · by_cases hp : 9 ≤ source ∧ source ≤ 11
    · simp [hs, hp, read1_cons, byte_toNat hstage, byte_toNat hpodium]
    · have hp' : ¬9 ≤ source := by omega
      simp [hs, hp', read1_cons, byte_toNat hstage, hnoPodium (by omega)]
  · have hp : ¬(9 ≤ source ∧ source ≤ 11) := by omega
    simp [hs, hp, hnoStage (by omega), hnoPodium (by omega)]

theorem parseLineSet_layout (x : LineSourceField) (hsource : x.source ≤ 12) (hstage : x.stage < 256)
    (hpodium : x.podium < 256) (hnoStage : x.source < 2 ∨ x.source = 12 → x.stage = 0)
    (hnoPodium : x.source < 9 ∨ x.source = 12 → x.podium = 0) :
    parseLineSet (bytes2 (maskOf [true, b.isSome, c.isSome]) ++ [h, byte x.source] ++
        (if 2 ≤ x.source ∧ x.source ≤ 11 then [byte x.stage] else []) ++
        (if 9 ≤ x.source ∧ x.source ≤ 11 then [byte x.podium] else []) ++ [b, c].flatMap Option.toList) =
      some ⟨h.toNat, some x, b.map BitVec.toNat, c.map BitVec.toNat⟩ := by
  have hread := fun after rest => readGiven_marked
    (readSource_layout x hsource hstage hpodium hnoStage hnoPodium after rest) [true, b.isSome, c.isSome] 0 rfl
  simp only [parseLineSet, List.append_assoc, read2_maskOf _ _ (show [true, b.isSome, c.isSome].length ≤ 16 by simp),
    List.cons_append, List.nil_append, read1_cons, Option.bind_eq_bind, Option.bind_some, hread]
  simp [readEnd]

end Selections

theorem parseCharDefine_layout (a : Byte) (l : List Byte) (h : l.length < 256) :
    parseCharDefine (a :: byte l.length :: l) = some ⟨a.toNat, l⟩ := by
  have hread := readList_readByte l [] h
  rw [List.append_nil] at hread
  simp [parseCharDefine, read1_cons, hread, readEnd]

theorem parseCounters_layout (l : List Byte) (h : l.length < 256) :
    parseCounters (byte l.length :: l) = some (l.map BitVec.toNat) := by
  have hread := readList_bytes l [] h
  rw [List.append_nil] at hread
  simp [parseCounters, hread, readEnd]

/-- A list of notices is read as their names (log 38). -/
theorem readList_readNotice (l : List (Byte × Byte)) (rest : List Byte) (h : l.length < 256) :
    readList readNotice (byte l.length :: ((l.flatMap fun e => [e.1, e.2]) ++ rest)) =
      some (l.map fun e => ⟨e.1.toNat, e.2.toNat⟩, rest) :=
  readList_flatMap (fun _ _ => rfl) l rest h

theorem parseNotices_layout (l : List (Byte × Byte)) (h : l.length < 256) :
    parseNotices (byte l.length :: l.flatMap fun e => [e.1, e.2]) = some (l.map fun e => ⟨e.1.toNat, e.2.toNat⟩) := by
  have hread := readList_readNotice l [] h
  rw [List.append_nil] at hread
  simp [parseNotices, hread, readEnd]

theorem parseNoticeMask_layout (a : Byte) (l : List (Byte × Byte)) (h : l.length < 256) :
    parseNoticeMask (byte l.length :: (l.flatMap fun e => [e.1, e.2]) ++ [a]) =
      some ⟨l.map fun e => ⟨e.1.toNat, e.2.toNat⟩, a.toNat⟩ := by
  rw [List.cons_append]
  simp [parseNoticeMask, readList_readNotice l [a] h, read1_cons, readEnd]

/-- The bounds of a MON_SET_BANDS, each given or not given, are read as pairs of a band and its bound (R191). -/
theorem parseBands_layout (v : Vector (Option (Byte × Byte)) 4) :
    parseBands (bytes2 (maskOf (v.toList.map Option.isSome)) ++
      v.toList.flatMap fun x => x.toList.flatMap fun e => [e.1, e.2]) =
      some ((List.finRange 4).filterMap fun k => v[k].map fun e => (k.val, 256 * e.1.toNat + e.2.toNat)) := by
  obtain ⟨⟨l⟩, hl⟩ := v
  match l, hl with
  | [w, x, y, z], _ =>
    have hread := fun (k : Nat) (o : Option (Byte × Byte)) (rest : List Byte)
        (hk : [w.isSome, x.isSome, y.isSome, z.isSome].getD k false = o.isSome) =>
      readGiven_flatMap (layout := fun e : Byte × Byte => [e.1, e.2]) o (fun e rest _ => read2_cons e.1 e.2 rest) _ k rest
        ((maskOf_testBit [w.isSome, x.isSome, y.isSome, z.isSome] k).trans hk)
    have hw := fun rest => hread 0 w rest rfl
    have hx := fun rest => hread 1 x rest rfl
    have hy := fun rest => hread 2 y rest rfl
    have hz := hread 3 z [] rfl
    rw [List.append_nil] at hz
    have hfour : List.finRange 4 = [0, 1, 2, 3] := by decide
    simp [parseBands, read2_maskOf, hw, hx, hy, hz, readEnd, hfour, List.filterMap_eq_flatMap_toList,
      Function.comp_def]

theorem parseReelDefaults_layout (t : Vector (Option Byte) 7) (reel : Byte) :
    parseReelDefaults (bytes2 (maskOf (t.toList.map Option.isSome)) ++ [reel] ++ t.toList.flatMap Option.toList) =
      some ⟨reel.toNat, timingOf t⟩ := by
  have htiming := readTiming_vector t [] []
  simp only [List.nil_append, List.append_nil, List.length_nil] at htiming
  simp [parseReelDefaults, read2_maskOf, read1_cons, htiming, readEnd]

theorem parseCueCreate_layout (t : Vector (Option Byte) 7) (reel n m suffix : Byte) (l : List Byte) (p q : Vector Byte 5)
    (h : l.length < 256) :
    parseCueCreate (bytes2 (maskOf (t.toList.map Option.isSome)) ++ [reel, n, m, suffix, byte l.length] ++ l ++
        p.toList ++ q.toList ++ t.toList.flatMap Option.toList) =
      some ⟨reel.toNat, 256 * n.toNat + m.toNat, suffix.toNat, l.map BitVec.toNat, placeOf p, placeOf q, timingOf t⟩ := by
  have htiming := readTiming_vector t [] []
  simp only [List.nil_append, List.append_nil, List.length_nil] at htiming
  simp [parseCueCreate, read2_maskOf, read1_cons, read2_cons, readList_bytes _ _ h, readPosition_vector, htiming, readEnd]

theorem parseCueEdit_layout (t : Vector (Option Byte) 7) (h k : Byte) (n : Option (Byte × Byte)) (suffix : Option Byte)
    (l : Option (List Byte)) (p q : Option (Vector Byte 5)) (hl : ∀ ids, l = some ids → ids.length < 256) :
    parseCueEdit (bytes2 (maskOf ([n.isSome, suffix.isSome, l.isSome, p.isSome, q.isSome] ++ t.toList.map Option.isSome))
        ++ [h, k] ++ (n.toList.flatMap fun e => [e.1, e.2]) ++ suffix.toList ++
        (l.toList.flatMap fun ids => byte ids.length :: ids) ++ (p.toList.flatMap Vector.toList) ++
        (q.toList.flatMap Vector.toList) ++ t.toList.flatMap Option.toList) =
      some ⟨256 * h.toNat + k.toNat, n.map fun e => 256 * e.1.toNat + e.2.toNat, suffix.map BitVec.toNat,
        l.map fun ids => ids.map BitVec.toNat, p.map placeOf, q.map placeOf, timingOf t⟩ := by
  generalize hmarks : [n.isSome, suffix.isSome, l.isSome, p.isSome, q.isSome] ++ t.toList.map Option.isSome = marks
  have htiming := readTiming_vector t [n.isSome, suffix.isSome, l.isSome, p.isSome, q.isSome] []
  have hlength : marks.length ≤ 16 := by simp [← hmarks]
  have hbit : ∀ k, (maskOf marks).testBit k = marks.getD k false := maskOf_testBit marks
  have hnumber := fun rest => readGiven_flatMap (layout := fun e : Byte × Byte => [e.1, e.2]) n
    (fun e rest _ => read2_cons e.1 e.2 rest) (maskOf marks) 0 rest ((hbit 0).trans (by rw [← hmarks]; rfl))
  have hsuffix := fun rest => readGiven_maskOf marks 1 suffix rest (by rw [← hmarks]; rfl)
  have hlist := fun rest => readGiven_flatMap (layout := fun ids : List Byte => byte ids.length :: ids) l
    (fun ids rest hids => readList_bytes ids rest (hl ids hids)) (maskOf marks) 2 rest
    ((hbit 2).trans (by rw [← hmarks]; rfl))
  have hin := fun rest => readGiven_flatMap p (fun v rest _ => readPosition_vector v rest) (maskOf marks) 3 rest
    ((hbit 3).trans (by rw [← hmarks]; rfl))
  have hout := fun rest => readGiven_flatMap q (fun v rest _ => readPosition_vector v rest) (maskOf marks) 4 rest
    ((hbit 4).trans (by rw [← hmarks]; rfl))
  rw [hmarks, List.append_nil] at htiming
  simp only [List.length_cons, List.length_nil, Nat.zero_add, Nat.reduceAdd] at htiming
  simp only [parseCueEdit, List.append_assoc, read2_maskOf marks _ hlength, List.cons_append, List.nil_append, read2_cons,
    hnumber, hsuffix, hlist, hin, hout, htiming, Option.bind_eq_bind, Option.bind_some, readEnd]

/-- The layouts of a fixed length, of numbers of one and two bytes. -/
theorem fixed_layouts (a b c d : Byte) :
    parse1 [a] = some a.toNat ∧ parseHandle [a, b] = some (256 * a.toNat + b.toNat) ∧
    parseRetire [a, b, c] = some ⟨256 * a.toNat + b.toNat, c.toNat⟩ ∧ parseReelRate [a, b] = some ⟨a.toNat, b.toNat⟩ ∧
    parseCueFind [a, b, c, d] = some ⟨a.toNat, 256 * b.toNat + c.toNat, d.toNat⟩ ∧
    parseCueList [a, b, c, d] = some ⟨a.toNat, 256 * b.toNat + c.toNat, d.toNat⟩ ∧
    parseCastAssign [a, b, c, d] = some ⟨a.toNat, b.toNat, c.toNat, d.toNat⟩ ∧
    parseSelectReel [a, b, c] = some ⟨a.toNat, b.toNat, c.toNat⟩ ∧
    parseStageValue [a, b] = some ⟨a.toNat, b.toNat⟩ ∧ parseBankSet [a, b, c] = some ⟨a.toNat, b.toNat, c.toNat⟩ := by
  refine ⟨rfl, ?_, ?_, rfl, ?_, ?_, rfl, rfl, rfl, rfl⟩
  · simp [parseHandle, read2_cons, readEnd]
  · simp [parseRetire, read1_cons, read2_cons, readEnd]
  · simp [parseCueFind, read1_cons, read2_cons, readEnd]
  · simp [parseCueList, read1_cons, read2_cons, readEnd]

theorem parseCueNext_layout (a : Byte) (p : Vector Byte 5) :
    parseCueNext (a :: p.toList) = some ⟨a.toNat, placeOf p⟩ := by
  have hread := readPosition_vector p []
  rw [List.append_nil] at hread
  simp [parseCueNext, read1_cons, hread, readEnd]

/-- Settles O15: the tables of numbers, the request codes and statuses, and the layout of each request window. -/
theorem requestNumbersAndLayouts : Obligations.RequestNumbersAndLayouts := by
  refine ⟨fun n => ⟨Rate.ofCode_eq n, Enable.ofCode_eq n, Approval.ofCode_eq n, SourceChoice.ofCode_eq n,
      RecordMode.ofCode_eq n, ResponseMode.ofCode_eq n, BankMode.ofCode_eq n, Drive.ofCode_eq n, Polarity.ofCode_eq n,
      flagOfCode_eq n, CounterSource.ofCode_eq n, filterOfCode_eq n, rfl, rfl, rfl⟩, rfl,
    fun a b c d => ⟨a.ofCode_code, b.ofCode_code, c.ofCode_code, d.ofCode_code⟩,
    fun α decode n => givenCode_spec decode n, fun i k n a b => ?_, fun i m n => ?_, rfl, requestIndex_windowCommand, rfl,
    fun α parse fieldCount payload x => readRequest_window parse fieldCount payload x, ?_⟩
  · exact ⟨lineSourceOf_eq i k n, fun source h => lineSources_bytes i k n source ((lineSourceOf_eq i k n).symm.trans h),
      fun h => lineSourceOf_plain h a b, lineSourceOf_stage i.val b n,
      fun hlo hhi ha => lineSourceOf_badStage b ha n hlo hhi,
      fun hlo hhi hb => lineSourceOf_badPodium a hb n hlo hhi, lineSourceOf_outside a b n⟩
  · intro places
    have hplaces : StageNotice.ofPlace n = places[n]? := StageNotice.ofPlace_eq n
    refine ⟨(noticeOfName_stage i n).trans (by rw [hplaces]), noticeOfName_device n,
      fun h hm => noticeOfName_outside h hm n, fun notice h => ?_, rfl, rfl⟩
    exact congrArg (6 * i.val + ·) (StageNotice.place_of_ofPlace (hplaces.trans h))
  · exact ⟨rfl, fixed_layouts, parseCueNext_layout, fun _ _ _ _ _ _ _ _ _ => rfl,
      fun a l h => ⟨parseCharDefine_layout a l h, parseCounters_layout l h⟩,
      fun a l h => ⟨parseNotices_layout l h, parseNoticeMask_layout a l h⟩,
      fun a b c d e h l => ⟨parseCueMark_layout a b h l, parseTrackerSet_layout a b c d e h, parseStageSet_layout a b c h,
        parseFaultSet_layout a b c d h, parseLineSet_layout_unsourced b c h, fun x => parseLineSet_layout b c h x⟩,
      parseBands_layout, parseReelDefaults_layout, parseCueCreate_layout, parseCueEdit_layout⟩

end Sys2Proof.Machine
end

section
/-! Run lists and in-flight counts under the events of the stages (R40, R106, R115): an event leaves the stores as they
stand, names each cue once in a stage's run list, and moves the in-flight counts with the run lists. -/

namespace Sys2Proof.Machine

/-! ## The stores under an event -/

/-- What of a cue record the rules of the stores speak of, besides its in-flight count. -/
def Cue.placed (c : Cue) : Nat × CueFields × Lock := (c.reel, c.fields, c.lock)

/-- From f to g the reels, the characters, and the place, the fields and the lock of every cue stand. -/
structure Floor.SameStore (f g : Floor) : Prop where
  reels : g.reels = f.reels
  chars : g.chars = f.chars
  cues : g.cues.map (fun e => (e.1, e.2.placed)) = f.cues.map (fun e => (e.1, e.2.placed))

theorem Floor.SameStore.refl (f : Floor) : f.SameStore f := ⟨rfl, rfl, rfl⟩

theorem Floor.SameStore.trans {f g h : Floor} (a : f.SameStore g) (b : g.SameStore h) : f.SameStore h :=
  ⟨b.reels.trans a.reels, b.chars.trans a.chars, b.cues.trans a.cues⟩

theorem Floor.SameStore.of_eq {f g : Floor} (hr : g.reels = f.reels) (hch : g.chars = f.chars) (hc : g.cues = f.cues) :
    f.SameStore g := ⟨hr, hch, by rw [hc]⟩

theorem Floor.StageEvent.sameStore {f g : Floor} {i : Fin 4} (e : Floor.StageEvent i f g) : f.SameStore g where
  reels := e.reels
  chars := e.chars
  cues := by
    have h := congrArg (List.map fun x : Nat × Nat × CueFields × Enable × Approval × Lock =>
      (x.1, x.2.1, x.2.2.1, x.2.2.2.2.2)) e.cues
    rw [List.map_map, List.map_map] at h
    exact h

/-- A table read after a change of its entries, each in its place. -/
theorem Table.find_map {α β : Type} (g : α → β) (k : Nat) (t : List (Nat × α)) :
    Table.find k (t.map fun e => (e.1, g e.2)) = (Table.find k t).map g := by
  induction t with
  | nil => rfl
  | cons e t ih =>
    simp only [List.map_cons, Table.find_cons, ih]
    split <;> rfl

theorem Floor.SameStore.cue {f g : Floor} (e : f.SameStore g) (h : Nat) :
    (g.cue h).map Cue.placed = (f.cue h).map Cue.placed := by
  rw [Floor.cue, Floor.cue, ← Table.find_map, ← Table.find_map, e.cues]

/-! ## The run lists -/

/-- The handles that the run list of a stage names. -/
def Floor.handles (f : Floor) (i : Fin 4) : List Nat := (f.runner i).runs.map Run.handle

theorem Floor.runs_eq_nil_iff (f : Floor) (i : Fin 4) : (f.runner i).runs = [] ↔ f.handles i = [] := by
  simp [Floor.handles]

theorem Floor.handles_of_stage {f g : Floor} {i : Fin 4} (h : g.stage i = f.stage i) : g.handles i = f.handles i := by
  simp [Floor.handles, Floor.runner, h]

theorem Floor.runsNaming_eq (f : Floor) (h : Nat) : f.runsNaming h =
    (f.handles 0).count h + (f.handles 1).count h + (f.handles 2).count h + (f.handles 3).count h := by
  have hl : List.finRange 4 = [0, 1, 2, 3] := by decide
  simp [Floor.runsNaming, Floor.handles, hl, Nat.add_assoc]

/-- Where one stage's run list changes, the run contexts that name a cue change by it. -/
theorem Floor.runsNaming_of_stage {f g : Floor} {i : Fin 4} (hj : ∀ j, j ≠ i → g.handles j = f.handles j) (h : Nat) :
    g.runsNaming h + (f.handles i).count h = f.runsNaming h + (g.handles i).count h := by
  rw [Floor.runsNaming_eq, Floor.runsNaming_eq]
  fin_cases i <;> simp [hj] <;> omega

theorem Floor.runsNaming_congr {f g : Floor} (hj : ∀ i, g.handles i = f.handles i) (h : Nat) :
    g.runsNaming h = f.runsNaming h := by simp [Floor.runsNaming_eq, hj]

theorem Floor.runsNaming_eq_zero_iff (f : Floor) (h : Nat) : f.runsNaming h = 0 ↔ ∀ i, h ∉ f.handles i := by
  rw [Floor.runsNaming_eq]
  simp only [Nat.add_eq_zero_iff, List.count_eq_zero, Fin.forall_fin_succ, Fin.succ_zero_eq_one, IsEmpty.forall_iff,
    and_true, and_assoc]
  rfl

/-- What the run lists, the in-flight counts and the order lists say of each other. Besides the rules of R40, R52, R106 and
R115 it carries two properties through an event: `idle` of handles that no run may name, and `live` of a stage, what it has
selected, and a slot whose cues it may have runs of. -/
structure Floor.RunLedger (idle : Nat → Prop) (live : Fin 4 → Option Nat → Nat → Prop) (f : Floor) : Prop where
  members : ∀ slot reel, f.reel slot = some reel → ∀ h ∈ reel.order, ∃ c, f.cue h = some c ∧ c.reel = slot
  opened : ∀ slot reel, f.reel slot = some reel → reel.state = .reelOpened → ∀ i, live i (some slot) slot
  working : ∀ i, f.handles i ≠ [] → (f.runner i).state.working = true
  once : ∀ i, (f.handles i).Nodup
  named : ∀ i, ∀ h ∈ f.handles i, ∃ c, f.cue h = some c ∧ live i (f.runner i).selected c.reel
  inFlight : ∀ h c, f.cue h = some c → c.inFlight = f.runsNaming h
  idle : ∀ h, idle h → f.runsNaming h = 0 ∧ ∀ c, f.cue h = some c → c.lock ≠ .unlocked

/-- From f to g the stores stand, and the run lists go on to agree with the in-flight counts. -/
def Floor.Works (f g : Floor) : Prop :=
  f.SameStore g ∧ ∀ idle live, f.RunLedger idle live → g.RunLedger idle live

variable (f : Floor) (i : Fin 4)

theorem Floor.Works.refl : f.Works f := ⟨.refl f, fun _ _ h => h⟩

theorem Floor.Works.trans {f g h : Floor} (a : f.Works g) (b : g.Works h) : f.Works h :=
  ⟨a.1.trans b.1, fun idle live l => b.2 idle live (a.2 idle live l)⟩

/-- A cue under an event that moves no in-flight count. -/
theorem Floor.SameStore.cue_some {f g : Floor} (e : f.SameStore g)
    (hf : ∀ h, (g.cue h).map Cue.inFlight = (f.cue h).map Cue.inFlight) {h : Nat} {c : Cue} (hc : f.cue h = some c) :
    ∃ d, g.cue h = some d ∧ d.reel = c.reel ∧ d.fields = c.fields ∧ d.lock = c.lock ∧ d.inFlight = c.inFlight := by
  have hp := e.cue h
  have hi := hf h
  rw [hc] at hp hi
  obtain ⟨d, hd⟩ : ∃ d, g.cue h = some d := by
    cases hg : g.cue h with
    | none => simp [hg] at hp
    | some d => exact ⟨d, rfl⟩
  simp only [hd, Option.map_some, Option.some.injEq, Cue.placed, Prod.mk.injEq] at hp hi
  exact ⟨d, hd, hp.1, hp.2.1, hp.2.2, hi⟩

theorem Floor.SameStore.cue_reel {f g : Floor} (e : f.SameStore g) {h : Nat} {c : Cue} (hc : f.cue h = some c) :
    ∃ d, g.cue h = some d ∧ d.reel = c.reel := by
  have hp := e.cue h
  rw [hc] at hp
  obtain ⟨d, hd, hdp⟩ := Option.map_eq_some_iff.1 hp
  exact ⟨d, hd, congrArg Prod.fst hdp⟩

theorem Floor.SameStore.symm {f g : Floor} (e : f.SameStore g) : g.SameStore f := ⟨e.reels.symm, e.chars.symm, e.cues.symm⟩

/-- An event that leaves the run lists and the in-flight counts, and of each working runner with runs the selection and
that it works. -/
theorem Floor.SameStore.works {f g : Floor} (e : f.SameStore g) (hh : ∀ i, g.handles i = f.handles i)
    (hw : ∀ i, f.handles i ≠ [] → (f.runner i).state.working = true →
      (g.runner i).selected = (f.runner i).selected ∧ (g.runner i).state.working = true)
    (hf : ∀ h, (g.cue h).map Cue.inFlight = (f.cue h).map Cue.inFlight) : f.Works g := by
  refine ⟨e, fun idle live l => ?_⟩
  have hreel : ∀ slot, g.reel slot = f.reel slot := fun slot => by rw [Floor.reel, Floor.reel, e.reels]
  have hback : ∀ h d, g.cue h = some d → ∃ c, f.cue h = some c ∧ c.reel = d.reel ∧ c.lock = d.lock ∧
      c.inFlight = d.inFlight := fun h d hd => by
    obtain ⟨c, hc, hr, -, hl, hi⟩ := e.symm.cue_some (fun h => (hf h).symm) hd
    exact ⟨c, hc, hr, hl, hi⟩
  refine ⟨fun slot reel hr h hm => ?_, fun slot reel hr => l.opened slot reel (hreel slot ▸ hr), fun i hi => ?_,
    fun i => hh i ▸ l.once i, fun i h hm => ?_, fun h d hd => ?_, fun h hidle => ⟨?_, fun d hd => ?_⟩⟩
  · obtain ⟨c, hc, hslot⟩ := l.members slot reel (hreel slot ▸ hr) h hm
    obtain ⟨d, hd, hdr, -⟩ := e.cue_some hf hc
    exact ⟨d, hd, hdr.trans hslot⟩
  · rw [hh] at hi
    exact (hw i hi (l.working i hi)).2
  · rw [hh] at hm
    obtain ⟨c, hc, hlive⟩ := l.named i h hm
    obtain ⟨d, hd, hdr, -⟩ := e.cue_some hf hc
    have hne := List.ne_nil_of_mem hm
    exact ⟨d, hd, by rw [(hw i hne (l.working i hne)).1, hdr]; exact hlive⟩
  · obtain ⟨c, hc, -, -, hi⟩ := hback h d hd
    rw [Floor.runsNaming_congr hh, ← l.inFlight h c hc, hi]
  · rw [Floor.runsNaming_congr hh]
    exact (l.idle h hidle).1
  · obtain ⟨c, hc, -, hl, -⟩ := hback h d hd
    exact hl ▸ (l.idle h hidle).2 c hc

/-- An event of one stage that leaves its run list and the in-flight counts. -/
theorem Floor.StageEvent.works {f g : Floor} {i : Fin 4} (e : Floor.StageEvent i f g) (hh : g.handles i = f.handles i)
    (hw : f.handles i ≠ [] → (f.runner i).state.working = true →
      (g.runner i).selected = (f.runner i).selected ∧ (g.runner i).state.working = true)
    (hf : ∀ h, (g.cue h).map Cue.inFlight = (f.cue h).map Cue.inFlight) : f.Works g := by
  refine e.sameStore.works (fun j => ?_) (fun j hj hwork => ?_) hf
  · by_cases hji : j = i
    · rw [hji, hh]
    · exact Floor.handles_of_stage (e.stages j hji)
  · by_cases hji : j = i
    · subst hji
      exact hw hj hwork
    · have hs : g.runner j = f.runner j := congrArg Stage.runner (e.stages j hji)
      rw [hs]
      exact ⟨rfl, hwork⟩

/-! ## Changes that leave the run lists -/

/-- A change of what neither the stores nor the run lists hold. -/
theorem Floor.Works.of_stages {f g : Floor} (hs : g.stages = f.stages) (hr : g.reels = f.reels) (hch : g.chars = f.chars)
    (hc : g.cues = f.cues) : f.Works g := by
  have hrunner : ∀ i, g.runner i = f.runner i := fun i => by simp only [Floor.runner, Floor.stage, hs]
  refine (Floor.SameStore.of_eq hr hch hc).works (fun i => ?_) (fun i _ hw => ?_) fun h => ?_
  · simp only [Floor.handles, hrunner]
  · rw [hrunner]; exact ⟨rfl, hw⟩
  · simp only [Floor.cue, hc]

theorem Floor.modRunner_works (g : Runner → Runner) (hr : (g (f.runner i)).runs.map Run.handle = f.handles i)
    (hw : f.handles i ≠ [] → (f.runner i).state.working = true →
      (g (f.runner i)).selected = (f.runner i).selected ∧ (g (f.runner i)).state.working = true) :
    f.Works (f.modRunner i g) := by
  refine (Floor.StageEvent.modRunner f i g).works ?_ ?_ fun _ => rfl
  · simp only [Floor.handles, Floor.modRunner_runner]; exact hr
  · simp only [Floor.modRunner_runner]; exact hw

/-- A change of a stage that leaves its runner. -/
theorem Floor.modStage_works (g : Stage → Stage) (hg : ∀ st, (g st).runner = st.runner) : f.Works (f.modStage i g) := by
  have hr : (f.modStage i g).runner i = f.runner i := by simp [Floor.runner, hg]
  exact (Floor.StageEvent.modStage f i g).works (by rw [Floor.handles, hr, Floor.handles])
    (fun _ hw => by rw [hr]; exact ⟨rfl, hw⟩) fun _ => rfl

theorem Floor.modTracker_works (g : Tracker → Tracker) : f.Works (f.modTracker i g) := f.modStage_works i _ fun _ => rfl
theorem Floor.modPath_works (g : Path → Path) : f.Works (f.modPath i g) := f.modStage_works i _ fun _ => rfl
theorem Floor.modOverlay_works (g : Overlay → Overlay) : f.Works (f.modOverlay i g) := f.modStage_works i _ fun _ => rfl
theorem Floor.modFaults_works (g : FaultModes → FaultModes) : f.Works (f.modFaults i g) := f.modStage_works i _ fun _ => rfl

theorem Floor.setNotice_works (n : Notice) : f.Works (f.setNotice n) := .of_stages rfl rfl rfl rfl
theorem Floor.clearNotice_works (n : Notice) : f.Works (f.clearNotice n) := .of_stages rfl rfl rfl rfl
theorem Floor.modCounters_works (g : Counter → Counter) : f.Works (f.modCounters g) := .of_stages rfl rfl rfl rfl
theorem Floor.countOccurrence_works (c : CounterSource) : f.Works (f.countOccurrence i c) := .of_stages rfl rfl rfl rfl
theorem Floor.atCount_works (n : Nat) : f.Works (f.atCount n) := .of_stages rfl rfl rfl rfl

theorem Floor.drawn_works {α : Type} (l : List α) : f.Works (f.drawn l) := by
  unfold Floor.drawn
  split
  · exact .refl f
  · exact .refl f
  · exact .of_stages rfl rfl rfl rfl

/-- A change of a cue that leaves its place, its fields, its lock and its in-flight count. -/
theorem Floor.modCue_works (h : Nat) (g : Cue → Cue) (hg : ∀ c, (g c).placed = c.placed ∧ (g c).inFlight = c.inFlight) :
    f.Works (f.modCue h g) := by
  have hcues : f.SameStore (f.modCue h g) := ⟨rfl, rfl, by
    simp only [Floor.modCue, Table.modify, List.map_map]
    apply List.map_congr_left
    intro e _
    simp only [Function.comp_apply]
    split <;> simp [hg]⟩
  refine hcues.works (fun _ => rfl) (fun _ _ hw => ⟨rfl, hw⟩) fun k => ?_
  rw [Floor.cue, Floor.modCue, Table.find_modify]
  split
  · rw [Option.map_map]
    exact congrArg (Option.map · _) (funext fun c => (hg c).2)
  · rfl

theorem Floor.PathOnly.works {f g : Floor} {i : Fin 4} (a : Floor.PathOnly i f g) : f.Works g := by
  have hh := a.handles.1
  obtain ⟨p, c, -, rfl⟩ := a
  exact (Floor.StageEvent.modStage f i _).works hh (fun _ hw => by simpa [Floor.runner] using hw) fun _ => rfl

theorem Floor.settlePath_works : f.Works (f.settlePath i) := (f.settlePath_pathOnly i).works

theorem Floor.settlePath_handles : (f.settlePath i).handles i = f.handles i := (f.settlePath_pathOnly i).handles.1

@[simp] theorem Floor.modCue_runner (h : Nat) (g : Cue → Cue) : (f.modCue h g).runner i = f.runner i := rfl

/-! ## The end of a run -/

theorem Floor.takeReport_works (h : Nat) (t : Take) : f.Works (f.takeReport h t) := by
  unfold Floor.takeReport
  refine .trans (f.modCue_works h _ fun c => ?_) (Floor.countOccurrence_works _ _ _)
  exact ⟨rfl, rfl⟩

theorem Floor.reportRun_works (r : Run) (e : Nat) (o : TakeOutcome) : f.Works (f.reportRun i r e o) := by
  unfold Floor.reportRun
  split
  · exact f.takeReport_works _ _
  · exact .refl f

theorem Floor.reportRun_handles (r : Run) (e : Nat) (o : TakeOutcome) (j : Fin 4) :
    (f.reportRun i r e o).handles j = f.handles j := by
  unfold Floor.reportRun
  split <;> rfl

theorem Floor.dropRun_handles (h : Nat) : (f.dropRun i h).handles i = (f.handles i).filter fun k => k != h := by
  have hr : (f.dropRun i h).runner i = { f.runner i with runs := (f.runner i).runs.filter fun x => x.handle != h } := by
    simp only [Floor.dropRun, Floor.dropMark, Floor.modOverlay_runner, Floor.modCue_runner, Floor.modRunner_runner]
  simp only [Floor.handles, hr, List.filter_map, Function.comp_def]

theorem Floor.dropRun_cue (h k : Nat) : (f.dropRun i h).cue k =
    if k = h then (f.cue k).map fun c => { c with inFlight := c.inFlight - 1 } else f.cue k :=
  Table.find_modify k h (fun c : Cue => { c with inFlight := c.inFlight - 1 }) f.cues

/-- A run that leaves the run list takes its count in flight with it (R40). -/
theorem Floor.dropRun_works {h : Nat} (hmem : h ∈ f.handles i) : f.Works (f.dropRun i h) := by
  have e := f.dropRun_stageEvent i h
  refine ⟨e.sameStore, fun idle live l => ?_⟩
  have hh := f.dropRun_handles i h
  have hj : ∀ j, j ≠ i → (f.dropRun i h).handles j = f.handles j := fun j hj => Floor.handles_of_stage (e.stages j hj)
  have hsub : ∀ j, (f.dropRun i h).handles j ⊆ f.handles j := fun j => by
    by_cases hji : j = i
    · rw [hji, hh]; exact List.filter_subset_self _
    · rw [hj j hji]; exact List.Subset.refl _
  have hrunner : ∀ j, (f.dropRun i h).runner j =
      { f.runner j with runs := ((f.dropRun i h).runner j).runs } := fun j => by
    by_cases hji : j = i
    · subst hji
      simp [Floor.dropRun, Floor.dropMark, Floor.runner, Floor.modCue, Floor.stage, Floor.modOverlay, Floor.modRunner,
        Floor.modStage]
    · have hs : (f.dropRun i h).runner j = f.runner j := congrArg Stage.runner (e.stages j hji)
      rw [hs]
  have hnaming : ∀ k, (f.dropRun i h).runsNaming k = if k = h then f.runsNaming k - 1 else f.runsNaming k := fun k => by
    have hsum := Floor.runsNaming_of_stage hj k
    rw [hh] at hsum
    split
    · next hk =>
      subst hk
      rw [List.count_eq_one_of_mem (l.once i) hmem, List.count_eq_zero.2 (by simp)] at hsum
      omega
    · next hk =>
      rw [List.count_filter (by simpa using hk)] at hsum
      omega
  have hcue : ∀ k c, f.cue k = some c → ∃ d, (f.dropRun i h).cue k = some d ∧ d.reel = c.reel := fun k c hc => by
    rw [Floor.dropRun_cue, hc]
    split
    · exact ⟨_, rfl, rfl⟩
    · exact ⟨c, rfl, rfl⟩
  have hback : ∀ k d, (f.dropRun i h).cue k = some d → ∃ c, f.cue k = some c ∧ d.lock = c.lock ∧
      d.inFlight = if k = h then c.inFlight - 1 else c.inFlight := fun k d hd => by
    rw [Floor.dropRun_cue] at hd
    split at hd
    · obtain ⟨c, hc, rfl⟩ := Option.map_eq_some_iff.1 hd
      exact ⟨c, hc, rfl, by simp [*]⟩
    · exact ⟨d, hd, rfl, by simp [*]⟩
  have hreel : ∀ slot, (f.dropRun i h).reel slot = f.reel slot := fun slot => by rw [Floor.reel, Floor.reel, e.reels]
  refine ⟨fun slot reel hr k hm => ?_, fun slot reel hr => l.opened slot reel (hreel slot ▸ hr), fun j hne => ?_,
    fun j => ?_, fun j k hm => ?_, fun k d hd => ?_, fun k hidle => ⟨?_, fun d hd => ?_⟩⟩
  · obtain ⟨c, hc, hslot⟩ := l.members slot reel (hreel slot ▸ hr) k hm
    obtain ⟨d, hd, hdr⟩ := hcue k c hc
    exact ⟨d, hd, hdr.trans hslot⟩
  · rw [hrunner]
    obtain ⟨k, hk⟩ := List.exists_mem_of_ne_nil _ hne
    exact l.working j (List.ne_nil_of_mem (hsub j hk))
  · by_cases hji : j = i
    · rw [hji, hh]; exact (l.once i).filter _
    · rw [hj j hji]; exact l.once j
  · obtain ⟨c, hc, hlive⟩ := l.named j k (hsub j hm)
    obtain ⟨d, hd, hdr⟩ := hcue k c hc
    rw [hrunner]
    exact ⟨d, hd, hdr ▸ hlive⟩
  · obtain ⟨c, hc, -, hi⟩ := hback k d hd
    rw [hi, hnaming, l.inFlight k c hc]
  · rw [hnaming, (l.idle k hidle).1]
    split <;> rfl
  · obtain ⟨c, hc, hl, -⟩ := hback k d hd
    exact hl ▸ (l.idle k hidle).2 c hc

theorem Floor.abortRun_handles (r : Run) (e : Nat) :
    (f.abortRun i r e).handles i = (f.handles i).filter fun k => k != r.handle := by
  rw [Floor.abortRun, Floor.dropRun_handles, Floor.reportRun_handles]

theorem Floor.abortRun_works (r : Run) (e : Nat) (hr : r.handle ∈ f.handles i) : f.Works (f.abortRun i r e) :=
  (f.reportRun_works i r e _).trans (Floor.dropRun_works _ i (by rwa [Floor.reportRun_handles]))

theorem Floor.completeRun_works (r : Run) (e : Nat) (hr : r.handle ∈ f.handles i) : f.Works (f.completeRun i r e) :=
  (f.reportRun_works i _ e _).trans (Floor.dropRun_works _ i (by rwa [Floor.reportRun_handles]))

theorem Floor.completeRun_handles (r : Run) (e : Nat) :
    (f.completeRun i r e).handles i = (f.handles i).filter fun k => k != r.handle := by
  rw [Floor.completeRun, Floor.dropRun_handles, Floor.reportRun_handles]

/-- Something done for runs of a stage one after another, each still in the run list at its turn. -/
theorem Floor.foldl_runs_works {op : Floor → Run → Floor} {i : Fin 4}
    (hop : ∀ (g : Floor) (r : Run), r.handle ∈ g.handles i → g.Works (op g r))
    (hleft : ∀ (g : Floor) (r : Run), ∀ k ∈ g.handles i, k ≠ r.handle → k ∈ (op g r).handles i) (l : List Run)
    (hl : (l.map Run.handle).Nodup) (f : Floor) (hsub : ∀ r ∈ l, r.handle ∈ f.handles i) : f.Works (l.foldl op f) := by
  induction l generalizing f with
  | nil => exact .refl f
  | cons r l ih =>
    obtain ⟨hr, hnodup⟩ := List.nodup_cons.1 hl
    refine (hop f r (hsub r List.mem_cons_self)).trans (ih hnodup (op f r) fun x hx => ?_)
    refine hleft f r _ (hsub x (List.mem_cons_of_mem _ hx)) fun heq => hr ?_
    exact heq ▸ List.mem_map_of_mem hx

/-- The same for runs that the run list holds as it stands. -/
theorem Floor.foldl_sublist_works {op : Floor → Run → Floor} {i : Fin 4}
    (hstore : ∀ (g : Floor) (r : Run), g.SameStore (op g r))
    (hop : ∀ (g : Floor) (r : Run), r.handle ∈ g.handles i → g.Works (op g r))
    (hleft : ∀ (g : Floor) (r : Run), ∀ k ∈ g.handles i, k ≠ r.handle → k ∈ (op g r).handles i) (f : Floor) (l : List Run)
    (hl : l.Sublist (f.runner i).runs) : f.Works (l.foldl op f) := by
  refine ⟨?_, fun idle live ledger => ?_⟩
  · clear hl
    induction l generalizing f with
    | nil => exact .refl f
    | cons r l ih => exact (hstore f r).trans (ih (op f r))
  · exact (Floor.foldl_runs_works hop hleft l ((ledger.once i).sublist (hl.map _)) f
      fun r hr => List.mem_map_of_mem (hl.subset hr)).2 idle live ledger

theorem Floor.foldl_abortRun_works (e : Nat) (l : List Run) (hl : l.Sublist (f.runner i).runs) :
    f.Works (l.foldl (fun f r => f.abortRun i r e) f) :=
  Floor.foldl_sublist_works (fun g r => (g.abortRun_stageEvent i r e).sameStore) (fun g r hr => g.abortRun_works i r e hr)
    (fun g r k hk hne => by rw [Floor.abortRun_handles]; exact List.mem_filter.2 ⟨hk, by simpa using hne⟩) f l hl

theorem Floor.abortRuns_works (w : Run → Bool) (e : Nat) : f.Works (f.abortRuns i w e) :=
  (f.foldl_abortRun_works i e _ List.filter_sublist).trans (Floor.settlePath_works _ i)

theorem Floor.abortAll_handles (e : Nat) : (f.abortAll i e).handles i = [] := by
  have hstage := f.foldl_abortRun_all i e
  rw [Floor.abortAll, Floor.abortRuns, Floor.settlePath_handles, List.filter_true, Floor.handles, Floor.runner, hstage]
  rfl

/-! ## Runners that leave their work, and occurrences -/

/-- A runner with an empty run list may take any state and any selection. -/
theorem Floor.modRunner_works_of_nil (g : Runner → Runner) (hnil : f.handles i = []) (hr : (g (f.runner i)).runs = []) :
    f.Works (f.modRunner i g) :=
  f.modRunner_works i g (by rw [hr, hnil]; rfl) fun hne => absurd hnil hne

theorem Floor.leaveWork_works (n : RunnerState) (e : Nat) : f.Works (f.leaveWork i n e) :=
  (f.abortRuns_works i _ e).trans (Floor.modRunner_works_of_nil _ i _ (f.abortAll_handles i e)
    ((Floor.runs_eq_nil_iff _ i).2 (f.abortAll_handles i e)))

theorem Floor.leaveWork_handles (n : RunnerState) (e : Nat) : (f.leaveWork i n e).handles i = [] := by
  have h := f.abortAll_handles i e
  simpa [Floor.leaveWork, Floor.handles] using h

theorem Floor.stopChase_works : f.Works (f.stopChase i) := by
  unfold Floor.stopChase
  split
  · exact f.leaveWork_works i _ _
  · exact .refl f

theorem Floor.enterHalted_works (e : Nat) : f.Works (f.enterHalted i e) := by
  unfold Floor.enterHalted
  dsimp only
  split
  · exact (f.leaveWork_works i _ e).trans (Floor.modRunner_works_of_nil _ i _ (f.leaveWork_handles i _ e)
      ((Floor.runs_eq_nil_iff _ i).2 (f.leaveWork_handles i _ e)))
  · next hw => exact f.modRunner_works i _ rfl fun _ h => absurd h hw

theorem Floor.enterHold_works (h e : Nat) : f.Works (f.enterHold i h e) := by
  unfold Floor.enterHold
  split
  · exact .refl f
  · exact f.modRunner_works i _ rfl fun _ hw => ⟨rfl, hw⟩
  · exact .refl f
  · next hs => exact f.modRunner_works i _ rfl fun _ hw => by simp [hs, RunnerState.working] at hw
  · exact (f.leaveWork_works i _ e).trans (Floor.modRunner_works_of_nil _ i _ (f.leaveWork_handles i _ e)
      ((Floor.runs_eq_nil_iff _ i).2 (f.leaveWork_handles i _ e)))

theorem Floor.occurrence_works (c : Condition) : f.Works (f.occurrence i c) := by
  unfold Floor.occurrence
  dsimp only
  split
  · exact .refl f
  · have h : f.Works (if c = .rateMismatch then f.countOccurrence i .rateMismatches else f) := by
      split
      · exact f.countOccurrence_works i _
      · exact .refl f
    refine h.trans ?_
    generalize (if c = .rateMismatch then f.countOccurrence i .rateMismatches else f) = g
    split
    · exact (g.setNotice_works _).trans (Floor.enterHalted_works _ i _)
    · exact (g.setNotice_works _).trans (Floor.enterHold_works _ i _ _)
    · exact (g.setNotice_works _).trans (Floor.enterHold_works _ i _ _)
    · exact g.setNotice_works _
    · exact .refl g

/-! ## Points -/

/-- A change of runs in their places, each with its handle. -/
theorem Floor.mapRuns_works (u : Run → Run) (hu : ∀ x, (u x).handle = x.handle) :
    f.Works (f.modRunner i fun q => { q with runs := q.runs.map u }) :=
  f.modRunner_works i _ (by simp [Floor.handles, Function.comp_def, hu]) fun _ hw => ⟨rfl, hw⟩

theorem Floor.mapRuns_handles (u : Run → Run) (hu : ∀ x, (u x).handle = x.handle) :
    (f.modRunner i fun q => { q with runs := q.runs.map u }).handles i = f.handles i := by
  simp [Floor.handles, Function.comp_def, hu]

theorem Floor.claimed_handle (t : Nat) (r : Run) : (f.claimed i t r).handle = r.handle := by
  unfold Floor.claimed
  split <;> rfl

/-- What a point makes of a run of the list, where the run that takes it does not complete (R119, R120). -/
theorem Floor.runAtPoint_handle (t : Nat) (r : Run) (phase : Phase) (x : Run) :
    (if x.handle = r.handle then { (if f.claims i t x then f.claimed i t x else x) with phase := phase } else x).handle =
      x.handle := by
  split
  · split
    · exact f.claimed_handle i t x
    · rfl
  · rfl

theorem Floor.runAtPoint_works (t : Nat) (r : Run) (hr : r.handle ∈ f.handles i) : f.Works (f.runAtPoint i t r) := by
  unfold Floor.runAtPoint
  split
  · exact .refl f
  · split
    · exact f.completeRun_works i r t hr
    · exact f.mapRuns_works i _ fun x => f.runAtPoint_handle i t r _ x

theorem Floor.runAtPoint_left (t : Nat) (r : Run) (k : Nat) (hk : k ∈ f.handles i) (hne : k ≠ r.handle) :
    k ∈ (f.runAtPoint i t r).handles i := by
  unfold Floor.runAtPoint
  split
  · exact hk
  · split
    · rw [Floor.completeRun_handles]; exact List.mem_filter.2 ⟨hk, by simpa using hne⟩
    · rw [f.mapRuns_handles i _ fun x => f.runAtPoint_handle i t r _ x]; exact hk

theorem Floor.runsAtPoint_works (t : Nat) : f.Works (f.runsAtPoint i t) :=
  (Floor.foldl_sublist_works (fun g r => (g.runAtPoint_stageEvent i t r).sameStore)
    (fun g r hr => g.runAtPoint_works i t r hr) (fun g r k hk hne => g.runAtPoint_left i t r k hk hne) f _
    (List.Sublist.refl _)).trans (Floor.settlePath_works _ i)

theorem Floor.packetPoint_works (t : Nat) : f.Works (f.packetPoint i t) := by
  unfold Floor.packetPoint
  dsimp only
  split
  · exact f.modOverlay_works i _
  · exact .refl f

theorem Floor.place_works (p : Nat) : f.Works (f.place i p) :=
  (f.modTracker_works i _).trans (Floor.modRunner_works _ i _ rfl fun _ hw => ⟨rfl, hw⟩)

theorem Floor.reach_works (t : Nat) : f.Works (f.reach i t) := by
  unfold Floor.reach
  dsimp only
  refine (f.place_works i t).trans ?_
  generalize f.place i t = g
  split
  · refine Floor.Works.trans (g := { g with draws := g.draws + 1 }) (.of_stages rfl rfl rfl rfl) ?_
    split
    · exact (Floor.packetPoint_works _ i t).trans (Floor.runsAtPoint_works _ i t)
    · exact (Floor.runsAtPoint_works _ i t).trans (Floor.packetPoint_works _ i t)
  · exact (Floor.runsAtPoint_works _ i t).trans (Floor.packetPoint_works _ i t)

theorem Floor.reachThrough_works (old n : Nat) : f.Works (f.reachThrough i old n) := by
  induction n with
  | zero => exact .refl f
  | succ n ih => exact ih.trans (Floor.reach_works _ i _)

/-- A forward move keeps the run lists with the in-flight counts (R98). -/
theorem Floor.forwardMove_works (new : Nat) : f.Works (f.forwardMove i new) := by
  unfold Floor.forwardMove
  dsimp only
  split
  · exact (f.reachThrough_works i _ _).trans ((Floor.abortRuns_works _ i _ _).trans
      ((Floor.reach_works _ i _).trans (Floor.place_works _ i _)))
  · exact (f.reachThrough_works i _ _).trans (Floor.place_works _ i _)

/-! ## Changes of tracker state, boundaries, jumps -/

theorem Floor.forgetFrame_works : f.Works (f.forgetFrame i) := f.modOverlay_works i _

theorem Floor.trackerChanged_works : f.Works (f.trackerChanged i) := by
  unfold Floor.trackerChanged
  dsimp only
  refine (f.modRunner_works i (fun r => { r with lastPosition := (f.tracker i).position }) rfl
    fun _ hw => ⟨rfl, hw⟩).trans ?_
  split
  · exact .refl _
  · split
    · exact Floor.occurrence_works _ i _
    · exact .refl _
  · exact (Floor.modOverlay_works _ i _).trans (Floor.stopChase_works _ i)

theorem Floor.armCue_handles (p h : Nat) (c : Cue) : (f.armCue i p h c).handles i = f.handles i ++ [h] := by
  have hr : ((f.armCue i p h c).runner i).runs = (f.runner i).runs ++
      [{ handle := h, phase := c.fields.phaseAt p, punch := .unpunched, punchedAt := none, claim := none,
         lateGrant := none }] := by
    simp [Floor.armCue, Floor.dropMark, Floor.runner, Floor.modCue, Floor.stage, Floor.modOverlay, Floor.modRunner,
      Floor.modStage]
  simp [Floor.handles, hr]

theorem Floor.armCue_runner (p h : Nat) (c : Cue) :
    (f.armCue i p h c).runner i = { f.runner i with runs := ((f.armCue i p h c).runner i).runs } := by
  simp [Floor.armCue, Floor.dropMark, Floor.runner, Floor.modCue, Floor.stage, Floor.modOverlay, Floor.modRunner,
    Floor.modStage]

theorem Floor.armCue_cue (p h k : Nat) (c : Cue) : (f.armCue i p h c).cue k =
    if k = h then (f.cue k).map fun c => { c with inFlight := c.inFlight + 1 } else f.cue k :=
  Table.find_modify k h (fun c : Cue => { c with inFlight := c.inFlight + 1 }) f.cues

/-- A working runner arms an unlocked cue of the reel it has selected, which it has no run of (R115, R116). -/
theorem Floor.RunLedger.armCue {f : Floor} {i : Fin 4} {idle : Nat → Prop} {live : Fin 4 → Option Nat → Nat → Prop} (l : f.RunLedger idle live) {p h : Nat}
    {c : Cue} (hwork : (f.runner i).state.working = true) (hc : f.cue h = some c) (hunlocked : c.lock = .unlocked)
    (hnew : h ∉ f.handles i) (hlive : live i (f.runner i).selected c.reel) : (f.armCue i p h c).RunLedger idle live := by
  have e := f.armCue_stageEvent i p h c
  have hh := f.armCue_handles i p h c
  have hj : ∀ j, j ≠ i → (f.armCue i p h c).handles j = f.handles j := fun j hj => Floor.handles_of_stage (e.stages j hj)
  have hrunner : ∀ j, (f.armCue i p h c).runner j =
      { f.runner j with runs := ((f.armCue i p h c).runner j).runs } := fun j => by
    by_cases hji : j = i
    · subst hji; exact f.armCue_runner j p h c
    · have hs : (f.armCue i p h c).runner j = f.runner j := congrArg Stage.runner (e.stages j hji)
      rw [hs]
  have hnaming : ∀ k, (f.armCue i p h c).runsNaming k = if k = h then f.runsNaming k + 1 else f.runsNaming k := fun k => by
    have hsum := Floor.runsNaming_of_stage hj k
    rw [hh, List.count_append, List.count_singleton] at hsum
    split
    · next hk => simp only [hk, beq_self_eq_true, ↓reduceIte] at hsum ⊢; omega
    · next hk => simp only [beq_iff_eq, Ne.symm hk, ↓reduceIte] at hsum; omega
  have hcue : ∀ k d, f.cue k = some d → ∃ d', (f.armCue i p h c).cue k = some d' ∧ d'.reel = d.reel := fun k d hd => by
    rw [Floor.armCue_cue, hd]
    split
    · exact ⟨_, rfl, rfl⟩
    · exact ⟨d, rfl, rfl⟩
  have hback : ∀ k d, (f.armCue i p h c).cue k = some d → ∃ d', f.cue k = some d' ∧ d.lock = d'.lock ∧
      d.inFlight = if k = h then d'.inFlight + 1 else d'.inFlight := fun k d hd => by
    rw [Floor.armCue_cue] at hd
    split at hd
    · obtain ⟨d', hd', rfl⟩ := Option.map_eq_some_iff.1 hd
      exact ⟨d', hd', rfl, by simp [*]⟩
    · exact ⟨d, hd, rfl, by simp [*]⟩
  have hreel : ∀ slot, (f.armCue i p h c).reel slot = f.reel slot := fun slot => by rw [Floor.reel, Floor.reel, e.reels]
  refine ⟨fun slot reel hr k hm => ?_, fun slot reel hr => l.opened slot reel (hreel slot ▸ hr), fun j hne => ?_,
    fun j => ?_, fun j k hm => ?_, fun k d hd => ?_, fun k hidle => ⟨?_, fun d hd => ?_⟩⟩
  · obtain ⟨d, hd, hslot⟩ := l.members slot reel (hreel slot ▸ hr) k hm
    obtain ⟨d', hd', hdr⟩ := hcue k d hd
    exact ⟨d', hd', hdr.trans hslot⟩
  · rw [hrunner]
    by_cases hji : j = i
    · rw [hji]; exact hwork
    · exact l.working j (hj j hji ▸ hne)
  · by_cases hji : j = i
    · rw [hji, hh]
      exact List.nodup_append.2 ⟨l.once i, List.nodup_singleton h,
        fun a ha b hb heq => hnew ((List.mem_singleton.1 hb) ▸ heq ▸ ha)⟩
    · rw [hj j hji]; exact l.once j
  · rw [hrunner]
    by_cases hold : k ∈ f.handles j
    · obtain ⟨d, hd, hdlive⟩ := l.named j k hold
      obtain ⟨d', hd', hdr⟩ := hcue k d hd
      exact ⟨d', hd', hdr ▸ hdlive⟩
    · have hji : j = i := by
        by_contra hji
        exact hold (hj j hji ▸ hm)
      subst hji
      rw [hh] at hm
      have hk : k = h := by simpa [hold] using hm
      subst hk
      obtain ⟨d', hd', hdr⟩ := hcue k c hc
      exact ⟨d', hd', hdr ▸ hlive⟩
  · obtain ⟨d', hd', -, hi⟩ := hback k d hd
    rw [hi, hnaming, l.inFlight k d' hd']
  · have hk : k ≠ h := fun hk => (l.idle k hidle).2 c (hk ▸ hc) hunlocked
    rw [hnaming, if_neg hk]
    exact (l.idle k hidle).1
  · obtain ⟨d', hd', hl, -⟩ := hback k d hd
    exact hl ▸ (l.idle k hidle).2 d' hd'

/-- One cue of the order list of the selected OPEN reel, at a boundary of a working runner (R115, R116). -/
theorem Floor.RunLedger.armOne {idle : Nat → Prop} {live : Fin 4 → Option Nat → Nat → Prop} {i : Fin 4} {p slot : Nat} {acc : Floor × Bool}
    (l : acc.1.RunLedger idle live) (hwork : (acc.1.runner i).state.working = true)
    (hsel : (acc.1.runner i).selected = some slot) (hlive : live i (some slot) slot) {h : Nat}
    (hslot : ∃ c, acc.1.cue h = some c ∧ c.reel = slot) : (armOne i p acc h).1.RunLedger idle live := by
  obtain ⟨c, hc, rfl⟩ := hslot
  unfold Machine.armOne
  simp only [hc]
  split
  · next hq =>
    split
    · obtain ⟨⟨⟨⟨⟨⟨-, -⟩, hunlocked⟩, hnew⟩, -⟩, -⟩, -⟩ := by
        simpa only [Floor.qualifies, Bool.and_eq_true] using hq
      refine l.armCue hwork hc (beq_iff_eq.1 hunlocked) (fun hm => ?_) (hsel ▸ hlive)
      obtain ⟨r, hr, hrh⟩ := List.mem_map.1 hm
      have hany : ((acc.1.runner i).runs.any fun x => x.handle == h) = true :=
        List.any_eq_true.2 ⟨r, hr, beq_iff_eq.2 hrh⟩
      simp [hany] at hnew
    · exact l
  · exact l

theorem armOne_runner (p : Nat) (acc : Floor × Bool) (h : Nat) :
    ((armOne i p acc h).1.runner i).state = (acc.1.runner i).state ∧
      ((armOne i p acc h).1.runner i).selected = (acc.1.runner i).selected := by
  unfold armOne
  split
  · exact ⟨rfl, rfl⟩
  · split
    · split
      · rw [Floor.armCue_runner]; exact ⟨rfl, rfl⟩
      · exact ⟨rfl, rfl⟩
    · exact ⟨rfl, rfl⟩

theorem Floor.selectedOpenReel_eq_some {f : Floor} {i : Fin 4} {reel : Reel} (h : f.selectedOpenReel i = some reel) :
    ∃ slot, (f.runner i).selected = some slot ∧ f.reel slot = some reel ∧ reel.state = .reelOpened := by
  unfold Floor.selectedOpenReel at h
  split at h
  · cases h
  · next slot hsel =>
    split at h
    · next r hr =>
      split at h
      · next ho => cases h; exact ⟨slot, hsel, hr, ho⟩
      · cases h
    · cases h

/-- Arming at a boundary of a working runner (R115 to R117). -/
theorem Floor.arm_works (hwork : (f.runner i).state.working = true) : f.Works (f.arm i).1 := by
  refine ⟨(f.arm_stageEvent i).sameStore, fun idle live l => ?_⟩
  unfold Floor.arm
  split
  · exact l
  · next reel hreel =>
    obtain ⟨slot, hsel, hslot, hopen⟩ := Floor.selectedOpenReel_eq_some hreel
    have hlive := l.opened slot reel hslot hopen i
    have hfold : ∀ (t : List Nat) (acc : Floor × Bool), acc.1.RunLedger idle live →
        (acc.1.runner i).state.working = true → (acc.1.runner i).selected = some slot →
        (∀ h ∈ t, ∃ c, acc.1.cue h = some c ∧ c.reel = slot) →
        (t.foldl (Machine.armOne i (f.tracker i).position) acc).1.RunLedger idle live := by
      intro t
      induction t with
      | nil => exact fun _ l _ _ _ => l
      | cons h t ih =>
        intro acc l hw hs ht
        obtain ⟨hstate, hselected⟩ := armOne_runner i (f.tracker i).position acc h
        refine ih _ (l.armOne hw hs hlive (ht h List.mem_cons_self)) (hstate ▸ hw) (hselected ▸ hs) fun k hk => ?_
        obtain ⟨c, hc, hcr⟩ := ht k (List.mem_cons_of_mem _ hk)
        obtain ⟨d, hd, hdr⟩ := (armOne_stageEvent i (f.tracker i).position acc h).sameStore.cue_reel hc
        exact ⟨d, hd, hdr.trans hcr⟩
    have hacc := hfold reel.order (f, false) l hwork hsel (l.members slot reel hslot)
    have hsettled := (Floor.settlePath_works _ i).2 idle live hacc
    dsimp only
    split
    · exact (Floor.setNotice_works _ _).2 idle live hsettled
    · exact hsettled

theorem Floor.takeCast_works : f.Works (f.takeCast i) := f.modRunner_works i _ rfl fun _ hw => ⟨rfl, hw⟩

theorem Floor.RunLedger.mono {f : Floor} {idle : Nat → Prop} {live live' : Fin 4 → Option Nat → Nat → Prop}
    (l : f.RunLedger idle live) (hlive : ∀ slot i, live i (some slot) slot → live' i (some slot) slot)
    (hnamed : ∀ i, f.handles i ≠ [] → ∀ slot, live i (f.runner i).selected slot → live' i (f.runner i).selected slot) :
    f.RunLedger idle live' :=
  { l with
    opened := fun slot reel hr ho i => hlive slot i (l.opened slot reel hr ho i)
    named := fun i h hm => by
      obtain ⟨c, hc, hl⟩ := l.named i h hm
      exact ⟨c, hc, hnamed i (List.ne_nil_of_mem hm) _ hl⟩ }

theorem Floor.stopChase_handles (h : f.handles i ≠ [] → (f.runner i).state.working = true) :
    (f.stopChase i).handles i = [] := by
  unfold Floor.stopChase
  split
  · exact f.leaveWork_handles i _ _
  · next hw => exact not_not.1 (mt h hw)

/-- A selection is taken, and a working runner stops its chase (R109, R110): its runs, which the new selection would not
allow, are gone when the event is over. -/
theorem Floor.reselect_works (g : Runner → Runner) (hg : ∀ r, (g r).runs = r.runs ∧ (g r).state = r.state) :
    f.Works ((f.modRunner i g).stopChase i) := by
  refine ⟨((Floor.StageEvent.modRunner f i g).trans (Floor.stopChase_stageEvent _ i)).sameStore, fun idle live l => ?_⟩
  have hh : ∀ j, (f.modRunner i g).handles j = f.handles j := fun j => by
    by_cases hji : j = i
    · subst hji; simp [Floor.handles, hg]
    · exact Floor.handles_of_stage (f.modRunner_stage_ne i j g hji)
  have hrunner : ∀ j, j ≠ i → (f.modRunner i g).runner j = f.runner j := fun j hj =>
    congrArg Stage.runner (f.modRunner_stage_ne i j g hj)
  have hstate : ∀ j, ((f.modRunner i g).runner j).state = (f.runner j).state := fun j => by
    by_cases hji : j = i
    · subst hji; simp [hg]
    · rw [hrunner j hji]
  have lenient : (f.modRunner i g).RunLedger idle fun j selected slot => j = i ∨ live j selected slot :=
    { members := l.members
      opened := fun slot reel hr ho j => .inr (l.opened slot reel hr ho j)
      working := fun j hj => by rw [hstate]; exact l.working j (hh j ▸ hj)
      once := fun j => hh j ▸ l.once j
      named := fun j h hm => by
        obtain ⟨c, hc, hl⟩ := l.named j h (hh j ▸ hm)
        by_cases hji : j = i
        · exact ⟨c, hc, .inl hji⟩
        · exact ⟨c, hc, .inr (by rw [hrunner j hji]; exact hl)⟩
      inFlight := fun h c hc => by rw [Floor.runsNaming_congr hh]; exact l.inFlight h c hc
      idle := fun h hi => by rw [Floor.runsNaming_congr hh]; exact l.idle h hi }
  have hnil := Floor.stopChase_handles (f.modRunner i g) i (lenient.working i)
  have stopped := (Floor.stopChase_works (f.modRunner i g) i).2 _ _ lenient
  have hopened : ∀ slot reel, ((f.modRunner i g).stopChase i).reel slot = some reel → reel.state = .reelOpened →
      ∀ j, live j (some slot) slot := fun slot reel hr => l.opened slot reel (by
    rw [← hr, Floor.reel, Floor.reel, (Floor.stopChase_stageEvent (f.modRunner i g) i).reels]; rfl)
  exact { stopped with
    opened := hopened
    named := fun j h hm => by
      obtain ⟨c, hc, hl⟩ := stopped.named j h hm
      refine ⟨c, hc, hl.resolve_left fun hji => ?_⟩
      subst hji
      rw [hnil] at hm
      cases hm }

theorem Floor.selectAuto_works : f.Works (f.selectAuto i) := by
  unfold Floor.selectAuto
  split
  · exact f.reselect_works i _ fun _ => ⟨rfl, rfl⟩
  · exact .refl f

theorem Floor.chaseTest_works (b : Bool) : f.Works (f.chaseTest i b) := by
  unfold Floor.chaseTest
  split
  · split
    · exact f.modRunner_works i _ rfl fun _ hw => ⟨rfl, rfl⟩
    · exact .refl f
  · split
    · exact f.stopChase_works i
    · exact .refl f

theorem Floor.countBlanking_works : f.Works (f.countBlanking i) := by
  unfold Floor.countBlanking
  split
  · refine f.modRunner_works i _ rfl fun _ hw => ⟨rfl, ?_⟩
    dsimp only
    split <;> rfl
  · exact .refl f

theorem Floor.countHold_works : f.Works (f.countHold i) := by
  unfold Floor.countHold
  split
  · next hs =>
    have hhold : (f.runner i).state = .hold := of_decide_eq_true (Bool.and_eq_true_iff.1 hs).1
    exact f.modRunner_works i _ rfl fun _ hw => by simp [hhold, RunnerState.working] at hw
  · exact .refl f

theorem Floor.boundaryOccurrences_works : f.Works (f.boundaryOccurrences i) := by
  unfold Floor.boundaryOccurrences
  split
  · have h : f.Works (if f.ratesDisagree i then f.occurrence i .rateMismatch else f) := by
      split
      · exact f.occurrence_works i _
      · exact .refl f
    refine h.trans ?_
    dsimp only
    generalize (if f.ratesDisagree i then f.occurrence i .rateMismatch else f) = g
    split
    · exact .refl _
    · exact Floor.occurrence_works _ i _
  · exact .refl f

theorem Floor.countBlanking_state (h : (f.runner i).state = .chasing) : f.countBlanking i = f := by
  simp [Floor.countBlanking, h]

theorem Floor.presentBoundary_works (b : Bool) : f.Works (f.presentBoundary i b) := f.modCounters_works _

/-- A boundary keeps the run lists with the in-flight counts: a runner that arms is CHASING (R107). -/
theorem Floor.boundary_works : f.Works (f.boundary i) := by
  unfold Floor.boundary
  dsimp only
  refine .trans ?_ (Floor.boundaryOccurrences_works _ i)
  refine .trans ?_ (Floor.presentBoundary_works _ i _)
  refine .trans ?_ (Floor.countHold_works _ i)
  have htest : f.Works (((f.takeCast i).selectAuto i).chaseTest i ((f.runner i).state == .standby)) :=
    .trans (.trans (f.takeCast_works i) (Floor.selectAuto_works _ i)) (Floor.chaseTest_works _ i _)
  generalize ((f.takeCast i).selectAuto i).chaseTest i ((f.runner i).state == .standby) = g at htest ⊢
  refine htest.trans ?_
  split
  · next harms =>
    have hchasing : (g.runner i).state = .chasing := eq_of_beq harms
    rw [g.countBlanking_state i hchasing]
    exact g.arm_works i (by rw [hchasing]; rfl)
  · exact g.countBlanking_works i

theorem Floor.runAtJump_works (p : Nat) (r : Run) (hr : r.handle ∈ f.handles i) : f.Works (f.runAtJump i p r) := by
  unfold Floor.runAtJump
  dsimp only
  split_ifs
  · exact (f.mapRuns_works i _ fun x => by split <;> rfl).trans (Floor.modOverlay_works _ i _)
  · exact f.abortRun_works i r _ hr

theorem Floor.runAtJump_left (p : Nat) (r : Run) (k : Nat) (hk : k ∈ f.handles i) (hne : k ≠ r.handle) :
    k ∈ (f.runAtJump i p r).handles i := by
  unfold Floor.runAtJump
  dsimp only
  split_ifs
  · have hmark : ∀ g : Floor, (g.dropMark i r.handle).handles i = g.handles i := fun g => by
      simp [Floor.handles, Floor.dropMark]
    rw [hmark, f.mapRuns_handles i _ fun x => by split <;> rfl]
    exact hk
  · rw [Floor.abortRun_handles]; exact List.mem_filter.2 ⟨hk, by simpa using hne⟩

theorem Floor.blank_works : f.Works (f.blank i) := by
  unfold Floor.blank
  refine f.modRunner_works i _ rfl fun _ _ => ⟨rfl, ?_⟩
  dsimp only
  split <;> rfl

/-- A jump keeps the run lists with the in-flight counts (R127 to R129). -/
theorem Floor.jump_works (p : Nat) : f.Works (f.jump i p) := by
  unfold Floor.jump
  dsimp only
  refine (f.countOccurrence_works i .jumps).trans (.trans (Floor.forgetFrame_works _ i) ?_)
  generalize (f.countOccurrence i .jumps).forgetFrame i = g
  have hlast : ∀ h : Floor, h.Works (h.modRunner i fun r => { r with lastPosition := p }) := fun h =>
    h.modRunner_works i _ rfl fun _ hw => ⟨rfl, hw⟩
  split
  · have hruns : g.Works ((g.runner i).runs.foldl (fun f r => f.runAtJump i p r) g) :=
      Floor.foldl_sublist_works (fun g r => (g.runAtJump_stageEvent i p r).sameStore)
        (fun g r hr => g.runAtJump_works i p r hr) (fun g r k hk hne => g.runAtJump_left i p r k hk hne) g _
        (List.Sublist.refl _)
    have hblank := hruns.trans ((hlast _).trans ((Floor.settlePath_works _ i).trans (Floor.blank_works _ i)))
    split
    · exact hblank.trans (Floor.occurrence_works _ i _)
    · exact hblank
  · exact hlast g

/-! ## The tracker -/

theorem Floor.markBoundary_works (p : Nat) : f.Works (f.markBoundary i p) := by
  unfold Floor.markBoundary
  split
  · exact (f.forwardMove_works i p).trans (Floor.boundary_works _ i)
  · exact (f.place_works i p).trans (Floor.boundary_works _ i)

theorem Floor.wordBoundary_works (a : Nat) : f.Works (f.wordBoundary i a) :=
  (f.modTracker_works i _).trans (Floor.markBoundary_works _ i _)

theorem Floor.acceptJump_works (w : TimecodeWord) : f.Works (f.acceptJump i w) :=
  (f.modTracker_works i _).trans ((Floor.jump_works _ i _).trans (Floor.boundary_works _ i))

theorem Floor.holdCandidate_works (w : TimecodeWord) (n : Nat) : f.Works (f.holdCandidate i w n) := by
  unfold Floor.holdCandidate
  split
  · exact f.acceptJump_works i w
  · exact (f.modTracker_works i _).trans (Floor.wordBoundary_works _ i _)

theorem Floor.changed_works (g : Tracker → Tracker) : f.Works ((f.modTracker i g).trackerChanged i) :=
  (f.modTracker_works i g).trans (Floor.trackerChanged_works _ i)

theorem Floor.lock_works (w : TimecodeWord) : f.Works (f.lock i w) :=
  (f.changed_works i _).trans ((Floor.place_works _ i _).trans (Floor.boundary_works _ i))

theorem Floor.wordAcquiring_works (w : TimecodeWord) : f.Works (f.wordAcquiring i w) := by
  unfold Floor.wordAcquiring
  dsimp only
  split
  · exact f.modTracker_works i _
  · split
    · split
      · exact (f.modTracker_works i _).trans (Floor.lock_works _ i w)
      · exact f.modTracker_works i _
    · exact f.modTracker_works i _

theorem Floor.wordLocked_works (w : TimecodeWord) : f.Works (f.wordLocked i w) := by
  unfold Floor.wordLocked
  dsimp only
  split
  · exact f.changed_works i _
  · split
    · have h : f.Works (if (f.tracker i).candidate.isSome then f.countOccurrence i .glitches else f) := by
        split
        · exact f.countOccurrence_works i _
        · exact .refl f
      exact h.trans ((Floor.modTracker_works _ i _).trans (Floor.wordBoundary_works _ i _))
    · split
      · split <;> exact f.holdCandidate_works i w _
      · exact f.holdCandidate_works i w _

theorem Floor.wordFreewheel_works (w : TimecodeWord) : f.Works (f.wordFreewheel i w) := by
  unfold Floor.wordFreewheel
  dsimp only
  split
  · exact (f.changed_works i _).trans (Floor.markBoundary_works _ i _)
  · exact f.changed_works i _

theorem Floor.trackerWord_works (w : TimecodeWord) : f.Works (f.trackerWord i w) := by
  unfold Floor.trackerWord
  dsimp only
  split
  · exact .refl f
  · split
    · exact f.countOccurrence_works i _
    · exact f.occurrence_works i _
    · split
      · exact .refl f
      · exact f.changed_works i _
      · exact f.wordAcquiring_works i w
      · exact f.wordLocked_works i w
      · exact f.wordFreewheel_works i w

theorem Floor.Works.foldl {α : Type} (op : α → Floor → Floor) (h : ∀ (x : α) (g : Floor), g.Works (op x g)) (l : List α) (f : Floor) :
    f.Works (l.foldl (fun f x => op x f) f) := by
  induction l generalizing f with
  | nil => exact .refl f
  | cons x l ih => exact (h x f).trans (ih (op x f))

theorem Floor.forEachOpen_works {α : Type} (l : List α) (op : α → Floor → Floor) (h : ∀ (x : α) (g : Floor), g.Works (op x g)) :
    f.Works (f.forEachOpen l op) := (f.drawn_works l).trans (Floor.Works.foldl op h _ _)

/-! ## Events of the pins and of the clock -/

theorem Floor.wordArrives_works (pin : Fin 6) (w : TimecodeWord) : f.Works (f.wordArrives pin w) :=
  (f.atCount_works _).trans (Floor.forEachOpen_works _ _ _ fun i g => g.trackerWord_works i w)

theorem Floor.acquisitionExpires_works : f.Works (f.acquisitionExpires i) := by
  unfold Floor.acquisitionExpires
  split
  · exact .refl f
  · exact (f.atCount_works _).trans (Floor.changed_works _ i _)

theorem Floor.lockedExpires_works : f.Works (f.lockedExpires i) := by
  unfold Floor.lockedExpires
  split
  · exact .refl f
  · next d _ =>
    refine (f.atCount_works d).trans ?_
    dsimp only
    split
    · exact Floor.changed_works _ i _
    · exact (Floor.changed_works _ i _).trans (Floor.markBoundary_works _ i _)

theorem Floor.syntheticFallsDue_works : f.Works (f.syntheticFallsDue i) := by
  unfold Floor.syntheticFallsDue
  split
  · exact .refl f
  · next d _ =>
    refine (f.atCount_works d).trans ?_
    dsimp only
    split
    · exact (Floor.modTracker_works _ i _).trans (Floor.markBoundary_works _ i _)
    · exact Floor.changed_works _ i _

theorem Floor.subframeIncreases_works : f.Works (f.subframeIncreases i) := by
  unfold Floor.subframeIncreases
  split
  · exact .refl f
  · exact (f.atCount_works _).trans (Floor.forwardMove_works _ i _)

theorem Floor.gapExpires_works : f.Works (f.gapExpires i) := by
  unfold Floor.gapExpires
  split
  · exact .refl f
  · next e _ =>
    refine (f.atCount_works e).trans ?_
    obtain ⟨g, hg, hend | hend⟩ := (f.atCount e).endGap_pathOnly i
    · rw [hend]; exact hg.works
    · rw [hend]; exact hg.works.trans (g.setNotice_works _)

theorem Floor.packetEnds_works : f.Works (f.packetEnds i) := by
  unfold Floor.packetEnds
  split
  · exact .refl f
  · exact (f.atCount_works _).trans (Floor.modOverlay_works _ i _)

/-! ## Requests at the stages -/

theorem Floor.RunLedger.handles_nil {f : Floor} {idle : Nat → Prop} {live : Fin 4 → Option Nat → Nat → Prop}
    (l : f.RunLedger idle live) {i : Fin 4} (h : (f.runner i).state.working = false) : f.handles i = [] := by
  by_contra hne
  rw [l.working i hne] at h
  cases h

/-- A runner that does not work takes any state and any selection: it has no runs. -/
theorem Floor.modRunner_works_of_not_working (g : Runner → Runner) (hw : (f.runner i).state.working = false)
    (hg : ∀ r, (g r).runs = r.runs) : f.Works (f.modRunner i g) := by
  refine ⟨(Floor.StageEvent.modRunner f i g).sameStore, fun idle live l => ?_⟩
  have hnil := l.handles_nil hw
  exact (f.modRunner_works_of_nil i g hnil (by rw [hg, Floor.runs_eq_nil_iff, hnil])).2 idle live l

theorem Floor.enable_works (h : (f.runner i).state = .offline) : f.Works (f.enable i) := by
  have hwork : ((f.modTracker i Tracker.enterSearching).runner i).state.working = false := by
    rw [Floor.modTracker_runner, h]; rfl
  unfold Floor.enable
  refine (f.modTracker_works i Tracker.enterSearching).trans (.trans ?_ (Floor.trackerChanged_works _ i))
  exact Floor.modRunner_works_of_not_working _ i _ hwork fun _ => rfl

theorem Floor.disable_works : f.Works (f.disable i) := by
  unfold Floor.disable
  dsimp only
  have hnil : ((f.runner i).runs.foldl (fun g r => g.abortRun i r (f.tracker i).position) f).handles i = [] := by
    rw [Floor.handles, Floor.runner, Floor.foldl_abortRun_all]; rfl
  refine (f.foldl_abortRun_works i (f.tracker i).position _ (List.Sublist.refl _)).trans ?_
  generalize (f.runner i).runs.foldl (fun g r => g.abortRun i r (f.tracker i).position) f = g at hnil ⊢
  have hoffline := g.modRunner_works_of_nil i (Runner.goOffline (f.tracker i).position) hnil
    ((g.runs_eq_nil_iff i).2 hnil)
  refine hoffline.trans ?_
  exact (Floor.modTracker_works _ i _).trans ((Floor.modPath_works _ i _).trans
    ((Floor.modOverlay_works _ i _).trans (Floor.modCounters_works _ _)))

theorem Floor.clearStageNotices_works : f.Works (f.clearStageNotices i) :=
  Floor.Works.foldl (fun n f => f.clearNotice (.ofStage i n)) (fun _ g => g.clearNotice_works _) _ f

theorem Floor.resetStage_works : f.Works (f.resetStage i) :=
  (f.disable_works i).trans ((Floor.place_works _ i _).trans (Floor.clearStageNotices_works _ i))

theorem Floor.select_works (mode : SelectionMode) (manual selected : Option Nat) :
    f.Works (f.select i mode manual selected) := by
  unfold Floor.select
  dsimp only
  split
  · exact .refl f
  · exact f.reselect_works i _ fun _ => ⟨rfl, rfl⟩

theorem Floor.toRehearse_works : f.Works (f.toRehearse i) := by
  unfold Floor.toRehearse
  dsimp only
  refine (Floor.Works.foldl (fun r g => g.reportRun i r (f.tracker i).position .aborted)
    (fun r g => g.reportRun_works i r _ _) (f.runner i).runs f).trans (.trans ?_ (Floor.settlePath_works _ i))
  exact Floor.modRunner_works _ i _ (by simp [Floor.handles, Function.comp_def]) fun _ hw => ⟨rfl, hw⟩

theorem Floor.setRecordMode_works (m : RecordMode) : f.Works (f.setRecordMode i m) := by
  unfold Floor.setRecordMode
  split
  · exact .refl f
  · split
    · exact f.toRehearse_works i
    · exact .trans (f.modRunner_works i _ rfl fun _ hw => ⟨rfl, hw⟩) (Floor.settlePath_works _ i)

theorem Floor.setTracker_works (x : TrackerSettings) : f.Works (f.setTracker i x) := by
  unfold Floor.setTracker
  dsimp only
  split
  · exact f.changed_works i _
  · exact f.modTracker_works i _

/-- A cue whose runs are aborted keeps its in-flight count with them (R38). -/
theorem Floor.abortCue_works (h : Nat) : f.Works (f.abortCue h) :=
  f.forEachOpen_works _ _ fun i g => g.abortRuns_works i _ _

end Sys2Proof.Machine
end

section
/-! What a step can do to the stores, the maintenance unit and the port, said once for every command. -/

namespace Sys2Proof.Machine

/-! ## Checks in sequence: what is true of every value they answer -/

/-- Every value that a check or a chain of checks answers has a property; a refusal answers none. -/
def Yields {β : Type} (P : β → Prop) (r : Except Status β) : Prop := ∀ b, r = .ok b → P b

theorem Yields.ok {β : Type} {P : β → Prop} {b : β} (h : P b) : Yields P (.ok b) := fun _ hb => Except.ok.inj hb ▸ h

theorem Yields.pure {β : Type} {P : β → Prop} {b : β} (h : P b) : Yields P (Pure.pure b) := Yields.ok h

theorem Yields.error {β : Type} {P : β → Prop} {st : Status} : Yields P (.error st) := fun _ hb => nomatch hb

theorem Yields.bind {α β : Type} {P : β → Prop} {r : Except Status α} {k : α → Except Status β}
    (h : ∀ a, r = .ok a → Yields P (k a)) : Yields P (r >>= k) := by
  cases r with
  | ok a => exact h a rfl
  | error st => exact fun _ hb => nomatch hb

theorem require_eq_ok {b : Bool} {st : Status} {u : Unit} (h : require b st = .ok u) : b = true := by
  cases b with
  | true => rfl
  | false => cases h

theorem orElse_eq_ok {α : Type} {x : Option α} {st : Status} {a : α} (h : orElse x st = .ok a) : x = some a := by
  cases x with
  | some y => cases h; rfl
  | none => cases h

/-! ## The stores and the maintenance unit under one step -/

/-- What the rules of the stores speak of: the floor, and both sides of the maintenance unit. -/
structure Books where
  floor : Floor
  operation : Option StoreOp
  closure : Option Nat

def State.books (s : State) : Books := ⟨s.floor, s.operation, s.closure⟩

/-- The lock that an accepted edit sets (R35). -/
def Floor.lockEditing (f : Floor) (handle : Nat) : Floor := f.modCue handle fun c => { c with lock := .editing }

/-- The lock that an accepted retire sets (R37). -/
def Floor.lockRetiring (f : Floor) (handle : Nat) : Floor := f.modCue handle fun c => { c with lock := .retiring }

/-- What an accepted retire does: the lock, and where it is forced the aborts (R37, R38). -/
def Floor.beginRetire (f : Floor) (handle : Nat) (force : Bool) : Floor :=
  if force then (f.lockRetiring handle).abortCue handle else f.lockRetiring handle

/-- A reel as it is opened (R48). -/
def newReel (number : Nat) (rate : Rate) : Reel :=
  { state := .reelOpened, number := number, rate := rate, defaults := derivedDefaults rate.base, order := [] }

/-- A reel is opened in the lowest FREE slot (R48). -/
def Floor.openReel (f : Floor) (number : Nat) (rate : Rate) : Floor :=
  { f with reels := Table.put (Table.lowestFree f.reels) (newReel number rate) f.reels }

/-- A reel becomes CLOSING. -/
def Floor.markClosing (f : Floor) (slot : Nat) : Floor := f.modReel slot fun r => { r with state := .reelClosing }

/-- What an accepted REEL_CLOSE does: the reel is CLOSING and its chases stop (R58, R59). -/
def Floor.beginClosure (f : Floor) (slot : Nat) : Floor :=
  (f.markClosing slot).forEachOpen ((f.markClosing slot).stagesChasing slot) fun i f => f.stopChase i

/-- A closed reel's slot is FREE, its selections are cleared and REEL_CLOSED is set (R61). -/
def Floor.endClosure (f : Floor) (slot : Nat) : Floor :=
  ({ f with reels := Table.erase slot f.reels, stages := f.stages.map (Stage.clearSelection slot) } : Floor).setNotice
    .reelClosed

/-- The closure ends where the reel has no cue left (R61). -/
def Books.closeIfEmpty (b : Books) (slot : Nat) : Books :=
  match b.floor.reel slot with
  | some r => if r.order.isEmpty then { b with floor := b.floor.endClosure slot, closure := none } else b
  | none => b

theorem State.closeIfEmpty_books (s : State) (slot : Nat) :
    (s.closeIfEmpty slot).books = s.books.closeIfEmpty slot := by
  unfold State.closeIfEmpty Books.closeIfEmpty
  cases hr : s.floor.reel slot with
  | none => simp [State.books, hr]
  | some r =>
    simp only [State.books, hr]
    split <;> rfl

theorem State.closeIfEmpty_port (s : State) (slot : Nat) :
    (s.closeIfEmpty slot).link = s.link ∧ (s.closeIfEmpty slot).operation = s.operation := by
  unfold State.closeIfEmpty
  split
  · split <;> exact ⟨rfl, rfl⟩
  · exact ⟨rfl, rfl⟩

/-- What one step can do to the books: the stages work while the stores stand, a reset, or one operation of the stores.
`taken` is what is known of the port where a request does it. -/
inductive Books.Change (taken : Prop) (b : Books) : Books → Prop
  /-- The stages work, or nothing of the books changes. -/
  | works {g : Floor} (h : b.floor.Works g) : Change taken b { b with floor := g }
  /-- A reset. -/
  | cleared {g : Floor} (cues : g.cues = []) (reels : g.reels = []) (chars : g.chars = [])
      (runs : ∀ i, (g.runner i).runs = []) : Change taken b ⟨g, none, none⟩
  /-- CUE_CREATE is accepted (R31). -/
  | createBegins {x : CueCreateFields} {op : StoreOp} (h : taken) (hop : b.floor.checkCreate x = .ok op) :
      Change taken b { b with operation := some op }
  /-- CUE_EDIT is accepted (R35). -/
  | editBegins {x : CueEditFields} {op : StoreOp} (h : taken) (hop : b.floor.checkEdit x = .ok op) :
      Change taken b { b with floor := b.floor.lockEditing x.handle, operation := some op }
  /-- CUE_RETIRE is accepted (R37, R38). -/
  | retireBegins {x : RetireFields} {force : Bool} (h : taken) (hforce : b.floor.checkRetire x = .ok force) :
      Change taken b
        { b with floor := b.floor.beginRetire x.handle force, operation := some (.retire x.handle .ok) }
  /-- A creation completes (R33). -/
  | createEnds {slot : Nat} {fields : CueFields} {st : Status} (hop : b.operation = some (.create slot fields st)) :
      Change taken b
        { b with floor := b.floor.makeLive (Table.lowestFree b.floor.cues) slot fields, operation := none }
  /-- An edit completes (R36). -/
  | editEnds {handle : Nat} {fields : CueFields} {st : Status} (hop : b.operation = some (.edit handle fields st)) :
      Change taken b { b with floor := b.floor.writeEdit handle fields, operation := none }
  /-- A retire completes (R39). -/
  | retireEnds {handle : Nat} {st : Status} (hop : b.operation = some (.retire handle st)) :
      Change taken b { b with floor := b.floor.retireCue handle, operation := none }
  /-- A reel is opened (R48). -/
  | reelOpens {number : Nat} {rate : Rate} (hlo : 1 ≤ number) (hhi : number ≤ 99)
      (hnew : ∀ e ∈ b.floor.reels, e.2.number ≠ number) (hroom : b.floor.reels.length < Config.reelSlotCount) :
      Change taken b { b with floor := b.floor.openReel number rate }
  /-- A reel takes defaults (R49). -/
  | defaultsSet {slot : Nat} {asked : Timing} :
      Change taken b { b with floor := b.floor.modReel slot fun r => { r with defaults := asked.fitted } }
  /-- A reel without cues takes a rate (R50). -/
  | rateSet {number slot : Nat} {reel : Reel} {rate : Rate} (h : taken)
      (hreel : b.floor.resolveReel number = .ok (slot, reel)) (hempty : reel.order = []) :
      Change taken b { b with floor := b.floor.modReel slot fun r => { r with rate := rate } }
  /-- A reel begins to close (R58, R59); without cues it is closed at once (R61). -/
  | reelCloses {number slot : Nat} {reel : Reel} (h : taken) (hreel : b.floor.resolveReel number = .ok (slot, reel))
      (hfree : b.closure = none) :
      Change taken b (Books.closeIfEmpty { b with floor := b.floor.beginClosure slot, closure := some slot } slot)
  /-- A character is defined (R65). -/
  | charDefined {id : Nat} {name : List Byte} (hid : id < Config.characterCount) (hfree : b.floor.character id = none) :
      Change taken b
        { b with floor := { b.floor with chars := Table.put id { name := name, useCount := 0 } b.floor.chars } }
  /-- A character is renamed (R65). -/
  | charRenamed {id : Nat} {name : List Byte} : Change taken b
      { b with floor := { b.floor with chars := Table.modify id (fun c => { c with name := name }) b.floor.chars } }
  /-- A character is retired that nothing uses (R67). -/
  | charRetired {id : Nat} {c : Character} (h : taken) (hc : b.floor.character id = some c) (hunused : c.useCount = 0) :
      Change taken b { b with floor := { b.floor with chars := Table.erase id b.floor.chars } }
  /-- The last cue of a closing reel is freed, and where none is left the closure ends (R60, R61). -/
  | lastFreed {slot handle : Nat} {reel : Reel} (hclosure : b.closure = some slot)
      (hreel : b.floor.reel slot = some reel) (hlast : reel.order.getLast? = some handle) :
      Change taken b (Books.closeIfEmpty { b with floor := b.floor.freeLast slot handle } slot)
  /-- A closure step finds no cue left (R61). -/
  | closureEnds {slot : Nat} (hclosure : b.closure = some slot) : Change taken b (b.closeIfEmpty slot)

theorem Books.Change.refl {taken : Prop} (b : Books) : b.Change taken b := .works (.refl b.floor)

/-! ## What an owner hands back to the port -/

/-- What an owner of a request leaves of the port, from s on: its response is placed, its store operation is in progress, or
the port is reset. -/
inductive State.Hands (s t : State) : Prop
  | answered (code : Byte) (st : Status) (p : List Byte) (link : t.link = (s.respond code st p).link)
      (operation : t.operation = s.operation)
  | accepted (op : StoreOp) (link : t.link = (s.beginOperation op).link) (operation : t.operation = some op)
  | reset (link : t.link = Link.reset) (operation : t.operation = none)

/-- An owner's work: what it hands back, and what it does to the books. -/
structure State.Owned (taken : Prop) (s t : State) : Prop where
  hands : s.Hands t
  books : s.books.Change taken t.books

/-- A state that an owner answers with: the port as it was, and a change of the books. -/
structure State.Carries (taken : Prop) (s t : State) : Prop where
  link : t.link = s.link
  operation : t.operation = s.operation
  books : s.books.Change taken t.books

variable {taken : Prop} {s : State}

theorem State.Carries.refl (s : State) : s.Carries taken s := ⟨rfl, rfl, .refl _⟩

/-- A change of the floor under which the stages work. -/
theorem State.Carries.works {g : Floor → Floor} (h : s.floor.Works (g s.floor)) : s.Carries taken (s.modFloor g) :=
  ⟨rfl, rfl, .works h⟩

/-- An owner that answers with a change of the state. -/
theorem Yields.carried {t : State} {st : Status} {p : List Byte} (h : s.Carries taken t) :
    Yields (fun b : State × Status × List Byte => s.Carries taken b.1) (.ok (t, st, p)) := .ok h

/-- An owner that answers with a change of the floor under which the stages work. -/
theorem Yields.floor {g : Floor → Floor} {st : Status} {p : List Byte} (h : s.floor.Works (g s.floor)) :
    Yields (fun b : State × Status × List Byte => s.Carries taken b.1) (.ok (s.modFloor g, st, p)) :=
  .ok (.works h)

theorem State.owned_respond {t : State} (h : s.Carries taken t) (code : Byte) (st : Status) (p : List Byte) :
    s.Owned taken (t.respond code st p) where
  hands := .answered code st p (by simp only [State.respond, h.link]) h.operation
  books := h.books

theorem State.owned_refuse (code : Byte) (st : Status) : s.Owned taken (s.refuse code st) :=
  State.owned_respond (.refl s) code st []

theorem State.owned_answer {code : Byte} {r : Except Status (State × Status × List Byte)}
    (h : Yields (fun b => s.Carries taken b.1) r) : s.Owned taken (s.answer code r) := by
  match r, h with
  | .error st, _ => exact State.owned_refuse code st
  | .ok (t, st, p), h => exact State.owned_respond (h _ rfl) code st p

theorem State.owned_beginOperation {t : State} {op : StoreOp} (hlink : t.link = s.link)
    (h : s.books.Change taken { t.books with operation := some op }) : s.Owned taken (t.beginOperation op) where
  hands := .accepted op (by simp only [State.beginOperation, hlink]) rfl
  books := h

/-! ## The cue store -/

theorem State.ownCreate_owned (ht : taken) (x : CueCreateFields) : s.Owned taken (s.ownCreate x) := by
  unfold State.ownCreate
  split
  · exact State.owned_refuse _ _
  · next op hop => exact State.owned_beginOperation rfl (.createBegins ht hop)

theorem State.ownEdit_owned (ht : taken) (x : CueEditFields) : s.Owned taken (s.ownEdit x) := by
  unfold State.ownEdit
  split
  · exact State.owned_refuse _ _
  · next op hop => exact State.owned_beginOperation rfl (.editBegins ht hop)

theorem State.ownRetire_owned (ht : taken) (x : RetireFields) : s.Owned taken (s.ownRetire x) := by
  unfold State.ownRetire
  split
  · exact State.owned_refuse _ _
  · next force hforce => exact State.owned_beginOperation rfl (.retireBegins ht hforce)

theorem State.ownCueRead_owned (h : Nat) : s.Owned taken (s.ownCueRead h) :=
  State.owned_answer (.bind fun _ _ => .pure (.refl s))

theorem State.ownCueMark_owned (x : CueMarkFields) : s.Owned taken (s.ownCueMark x) :=
  State.owned_answer (.bind fun _ _ => .bind fun _ _ => .bind fun _ _ => .bind fun _ _ => .bind fun _ _ =>
    .floor (Floor.modCue_works _ _ _ fun _ => ⟨rfl, rfl⟩))

/-! ## Reels -/

theorem State.ownReelOpen_owned (x : ReelRateFields) : s.Owned taken (s.ownReelOpen x) := by
  refine State.owned_answer (.bind fun _ hnumber => .bind fun rate _ => .bind fun _ hopened => .bind fun _ hclosing =>
    .bind fun _ hroom => .pure ⟨rfl, rfl, ?_⟩)
  have hrange : 1 ≤ x.reel ∧ x.reel ≤ 99 := by simpa using require_eq_ok hnumber
  refine .reelOpens (rate := rate) hrange.1 hrange.2 (fun e he hn => ?_) (of_decide_eq_true (require_eq_ok hroom))
  have hheld : ∀ state, s.floor.reelHeld x.reel state = false → e.2.state ≠ state := fun state hno hstate => by
    have := List.any_eq_false.1 hno e he
    simp [hn, hstate] at this
  have ho := hheld .reelOpened (by simpa using require_eq_ok hopened)
  have hc := hheld .reelClosing (by simpa using require_eq_ok hclosing)
  cases hs : e.2.state with
  | reelOpened => exact ho hs
  | reelClosing => exact hc hs

theorem State.ownReelSetDefaults_owned (x : ReelDefaultsFields) : s.Owned taken (s.ownReelSetDefaults x) :=
  State.owned_answer (.bind fun _ _ => .bind fun _ _ => .pure ⟨rfl, rfl, .defaultsSet⟩)

theorem State.ownReelSetRate_owned (ht : taken) (x : ReelRateFields) : s.Owned taken (s.ownReelSetRate x) :=
  State.owned_answer (.bind fun _ _ => .bind fun _ hreel => .bind fun _ hempty =>
    .pure ⟨rfl, rfl, .rateSet ht hreel (List.isEmpty_iff.1 (require_eq_ok hempty))⟩)

theorem State.ownReelRead_owned (n : Nat) : s.Owned taken (s.ownReelRead n) :=
  State.owned_answer (.bind fun _ _ => .pure (.refl s))

theorem State.ownReelClose_owned (ht : taken) (n : Nat) : s.Owned taken (s.ownReelClose n) := by
  refine State.owned_answer (.bind fun e hreel => .bind fun _ hfree => .pure ?_)
  obtain ⟨hlink, hop⟩ := State.closeIfEmpty_port
    { s.modFloor fun f => f.beginClosure e.1 with closure := some e.1 } e.1
  refine ⟨hlink, hop, ?_⟩
  have hbooks := State.closeIfEmpty_books { s.modFloor fun f => f.beginClosure e.1 with closure := some e.1 } e.1
  exact hbooks ▸ .reelCloses ht hreel (Option.isNone_iff_eq_none.1 (require_eq_ok hfree))

theorem State.ownCueFind_owned (x : CueFindFields) : s.Owned taken (s.ownCueFind x) :=
  State.owned_answer (.bind fun _ _ => .bind fun _ _ => .bind fun _ _ => .pure (.refl s))

theorem State.ownCueNext_owned (x : CueNextFields) : s.Owned taken (s.ownCueNext x) :=
  State.owned_answer (.bind fun _ _ => .bind fun _ _ => .pure (.refl s))

theorem State.ownCueList_owned (x : CueListFields) : s.Owned taken (s.ownCueList x) :=
  State.owned_answer (.bind fun _ _ => .bind fun _ _ => .pure (.refl s))

/-! ## Characters and casts -/

theorem State.ownCharDefine_owned (x : CharDefineFields) : s.Owned taken (s.ownCharDefine x) := by
  refine State.owned_answer (.bind fun _ hx => ?_)
  have hid : x.character < Config.characterCount := of_decide_eq_true (Bool.and_eq_true_iff.1 (require_eq_ok hx)).1
  split
  · next hfree => exact .pure ⟨rfl, rfl, .charDefined hid hfree⟩
  · exact .pure ⟨rfl, rfl, .charRenamed⟩

theorem State.ownCharRetire_owned (ht : taken) (id : Nat) : s.Owned taken (s.ownCharRetire id) := by
  refine State.owned_answer (.bind fun c hc => .bind fun _ hunused => .pure ⟨rfl, rfl, ?_⟩)
  have hfound : s.floor.character id = some c := by
    unfold Floor.resolveCharacter at hc
    split at hc
    · exact orElse_eq_ok hc
    · cases hc
  exact .charRetired ht hfound (eq_of_beq (Bool.and_eq_true_iff.1 (require_eq_ok hunused)).1)

theorem State.ownCharRead_owned (id : Nat) : s.Owned taken (s.ownCharRead id) := by
  refine State.owned_answer (.bind fun _ _ => ?_)
  split <;> exact .pure (.refl s)

theorem Floor.setPodium_works (f : Floor) (i : Fin 4) (k : Fin 6) (x : Option Nat) : f.Works (f.setPodium i k x) :=
  .of_stages rfl rfl rfl rfl

theorem Floor.uncast_works (f : Floor) (id : Nat) : f.Works (f.uncast id) := by
  unfold Floor.uncast
  split
  · exact f.setPodium_works _ _ _
  · exact .refl f

theorem State.ownCastAssign_owned (x : CastAssignFields) : s.Owned taken (s.ownCastAssign x) :=
  State.owned_answer (.bind fun _ _ => .bind fun _ _ => .bind fun _ _ => .bind fun _ _ => .bind fun _ _ =>
    .bind fun _ _ => .floor ((s.floor.uncast_works _).trans (Floor.setPodium_works _ _ _ _)))

theorem State.ownCastRelease_owned (id : Nat) : s.Owned taken (s.ownCastRelease id) :=
  State.owned_answer (.bind fun _ _ => .floor (s.floor.uncast_works id))

theorem State.ownCastRead_owned (stage : Nat) : s.Owned taken (s.ownCastRead stage) :=
  State.owned_answer (.bind fun _ _ => .pure (.refl s))

/-! ## Trackers and stages -/

theorem State.ownTrackerSet_owned (x : TrackerSetFields) : s.Owned taken (s.ownTrackerSet x) :=
  State.owned_answer (.bind fun _ _ => .bind fun _ _ => .bind fun _ _ => .bind fun _ _ =>
    .floor (s.floor.setTracker_works _ _))

theorem State.ownTrackerRead_owned (stage : Nat) : s.Owned taken (s.ownTrackerRead stage) :=
  State.owned_answer (.bind fun _ _ => .pure (.refl s))

theorem State.ownStageEnable_owned (stage : Nat) : s.Owned taken (s.ownStageEnable stage) :=
  State.owned_answer (.bind fun _ _ => .bind fun _ hoffline =>
    .floor (s.floor.enable_works _ (eq_of_beq (require_eq_ok hoffline))))

theorem State.ownStageDisable_owned (stage : Nat) : s.Owned taken (s.ownStageDisable stage) :=
  State.owned_answer (.bind fun _ _ => .floor (s.floor.disable_works _))

theorem State.ownStageReset_owned (stage : Nat) : s.Owned taken (s.ownStageReset stage) :=
  State.owned_answer (.bind fun _ _ => .floor (s.floor.resetStage_works _))

theorem State.ownStageSelectReel_owned (x : SelectReelFields) : s.Owned taken (s.ownStageSelectReel x) := by
  refine State.owned_answer (.bind fun _ _ => ?_)
  split
  · exact .bind fun _ _ => .bind fun _ _ => .floor (s.floor.select_works _ _ _ _)
  · exact .floor (s.floor.select_works _ _ _ _)
  · exact .floor (s.floor.select_works _ _ _ _)
  · exact .error

theorem State.ownStageSet_owned (x : StageSetFields) : s.Owned taken (s.ownStageSet x) :=
  State.owned_answer (.bind fun _ _ => .bind fun _ _ => .bind fun _ _ => .bind fun _ _ =>
    .floor ((s.floor.modRunner_works _ _ rfl fun _ hw => ⟨rfl, hw⟩).trans (Floor.setRecordMode_works _ _ _)))

theorem State.ownStageRead_owned (stage : Nat) : s.Owned taken (s.ownStageRead stage) :=
  State.owned_answer (.bind fun _ _ => .pure (.refl s))

theorem State.ownTalkback_owned (x : StageValueFields) : s.Owned taken (s.ownTalkback x) := by
  refine State.owned_answer (.bind fun i _ => .bind fun on _ => .floor ?_)
  split
  · exact (s.floor.talkbackOn_pathOnly i).works
  · exact (s.floor.talkbackOff_pathOnly i).works

theorem State.ownPathSet_owned (x : StageValueFields) : s.Owned taken (s.ownPathSet x) :=
  State.owned_answer (.bind fun _ _ => .floor ((s.floor.modPath_works _ _).trans (Floor.settlePath_works _ _)))

theorem State.ownPathRead_owned (stage : Nat) : s.Owned taken (s.ownPathRead stage) :=
  State.owned_answer (.bind fun _ _ => .pure (.refl s))

theorem State.ownFaultClear_owned (stage : Nat) : s.Owned taken (s.ownFaultClear stage) := by
  refine State.owned_answer (.bind fun i _ => .bind fun _ hstate => .floor ?_)
  have hidle : (s.floor.runner i).state.working = false := by
    have h := require_eq_ok hstate
    revert h
    cases (s.floor.runner i).state <;> simp [RunnerState.working]
  exact s.floor.modRunner_works_of_not_working i _ hidle fun _ => rfl

theorem State.ownFaultSet_owned (x : FaultSetFields) : s.Owned taken (s.ownFaultSet x) :=
  State.owned_answer (.bind fun _ _ => .bind fun _ _ => .bind fun _ _ => .bind fun _ _ => .bind fun _ _ =>
    .bind fun _ _ => .floor (s.floor.modFaults_works _ _))

theorem State.ownFaultRead_owned (stage : Nat) : s.Owned taken (s.ownFaultRead stage) :=
  State.owned_answer (.bind fun _ _ => .pure (.refl s))

/-! ## Notices, lines, the overlay feed and the monitor unit -/

theorem State.ownNoticeRead_owned (u : Unit) : s.Owned taken (s.ownNoticeRead u) := State.owned_respond (.refl s) _ _ _

theorem State.ownNoticeMask_owned (x : NoticeMaskFields) : s.Owned taken (s.ownNoticeMask x) :=
  State.owned_answer (.bind fun _ _ => .bind fun _ _ => .floor (.of_stages rfl rfl rfl rfl))

theorem State.ownNoticeClear_owned (names : List NoticeName) : s.Owned taken (s.ownNoticeClear names) :=
  State.owned_answer (.bind fun named _ => .floor
    (Floor.Works.foldl (fun n f => f.clearNotice n) (fun n g => g.clearNotice_works n) named s.floor))

theorem State.ownLineBankSet_owned (x : BankSetFields) : s.Owned taken (s.ownLineBankSet x) := by
  have hset : ∀ banks, s.Carries taken { s with banks := banks } := fun _ => ⟨rfl, rfl, .refl _⟩
  exact State.owned_answer (.bind fun _ _ => .bind fun _ _ => .bind fun _ _ => .carried (hset _))

theorem State.ownLineSet_owned (x : LineSetFields) : s.Owned taken (s.ownLineSet x) := by
  refine State.owned_answer (.bind fun l _ => .bind fun _ _ => .bind fun drive _ => .bind fun polarity _ => ?_)
  have hset : ∀ lines, s.Carries taken { s with lines := lines } := fun _ => ⟨rfl, rfl, .refl _⟩
  have hrest : ∀ source : LineSource, Yields (fun b : State × Status × List Byte => s.Carries taken b.1) (do
      require (sourceFits l source) .badRequest
      let t := { s with lines := s.lines.set l { source := source, drive := drive.getD s.lines[l].drive,
                                                 polarity := polarity.getD s.lines[l].polarity } }
      pure (t, .ok, t.lineBytes l)) := fun _ => .bind fun _ _ => .carried (hset _)
  split
  · exact .bind fun source _ => hrest source
  · exact hrest _

theorem State.ownLineRead_owned (u : Unit) : s.Owned taken (s.ownLineRead u) := State.owned_respond (.refl s) _ _ _

theorem State.ownOverlaySet_owned (x : StageValueFields) : s.Owned taken (s.ownOverlaySet x) :=
  State.owned_answer (.bind fun _ _ => .floor (s.floor.modOverlay_works _ _))

theorem State.ownOverlayRead_owned (stage : Nat) : s.Owned taken (s.ownOverlayRead stage) :=
  State.owned_answer (.bind fun _ _ => .pure (.refl s))

/-- A change of the monitor unit alone. -/
theorem State.carries_modMonitor (s : State) (g : Monitor → Monitor) : s.Carries taken (s.modMonitor g) :=
  .works (.of_stages rfl rfl rfl rfl)

theorem State.ownMonConfig_owned (x : MonConfigFields) : s.Owned taken (s.ownMonConfig x) :=
  State.owned_answer (.bind fun _ _ => .bind fun _ _ => .bind fun _ _ => .bind fun _ _ => .bind fun _ _ =>
    .bind fun _ _ => .bind fun _ _ => .bind fun _ _ => .carried (s.carries_modMonitor _))

theorem State.ownMonClear_owned (names : List Nat) : s.Owned taken (s.ownMonClear names) :=
  State.owned_answer (.bind fun _ _ => .bind fun _ _ => .carried (s.carries_modMonitor _))

theorem State.ownMonFreeze_owned (v : Nat) : s.Owned taken (s.ownMonFreeze v) :=
  State.owned_answer (.bind fun _ _ => .carried (s.carries_modMonitor _))

theorem State.ownMonSetBands_owned (pairs : List (Nat × Nat)) : s.Owned taken (s.ownMonSetBands pairs) :=
  State.owned_answer (.bind fun _ _ => .bind fun _ _ => .carried (s.carries_modMonitor _))

theorem State.ownMonRead_owned (u : Unit) : s.Owned taken (s.ownMonRead u) := State.owned_respond (.refl s) _ _ _

/-! ## Resets -/

/-- A reset leaves no cue, no reel, no character and no run (R45, R46, R63, R102). -/
theorem State.resetBlocks_books (b : Books) (s : State) (level : Fin 4) : b.Change taken (s.resetBlocks level).books := by
  refine .cleared rfl rfl rfl fun i => ?_
  have hstage : ({ Floor.reset with now := s.floor.now, draws := s.floor.draws } : Floor).stage i = Stage.reset := by
    simp [Floor.stage, Floor.reset]
  change (({ Floor.reset with now := s.floor.now, draws := s.floor.draws } : Floor).stage i).runner.runs = []
  rw [hstage]
  rfl

theorem State.ownDeviceReset_owned (u : Unit) : s.Owned taken (s.ownDeviceReset u) :=
  ⟨.reset rfl rfl, State.resetBlocks_books _ _ _⟩

/-! ## One step -/

/-- What every step does: the port goes on to agree with the maintenance unit, and the books change as `Books.Change`
says, by a request only where the port takes one. -/
structure State.Stepped (s t : State) : Prop where
  link : s.LinkAgrees → t.LinkAgrees
  books : s.books.Change s.Receives t.books

/-- Where the port takes a request no store operation is in progress (R27, R195). -/
theorem State.LinkAgrees.operation_none (h : s.LinkAgrees) (hr : s.Receives) : s.operation = none := by
  have hbusy : s.link.state ≠ .busy := by
    rcases hr with hw | ⟨-, -, hb⟩
    · rw [h.assembling hw]; decide
    · exact hb
  simpa using mt h.busy.2 hbusy

theorem State.LinkAgrees.congr {t : State} (h : s.LinkAgrees) (hstate : t.link.state = s.link.state)
    (hresponse : t.link.response = s.link.response) (hop : t.operation = s.operation)
    (hwindow : t.link.window = .assembling → s.link.window = .assembling) : t.LinkAgrees := by
  refine ⟨?_, ?_, fun hw => ?_⟩
  · rw [hstate, hop]; exact h.busy
  · rw [hstate, hresponse]; exact h.ready
  · rw [hstate]; exact h.assembling (hwindow hw)

/-- What an owner hands back agrees, from a state with the window ended and no store operation in progress. -/
theorem State.Hands.linkAgrees {t : State} (h : s.Hands t) (hwindow : s.link.window = .noWindow)
    (hidle : s.operation = none) : t.LinkAgrees := by
  cases h with
  | answered code st p hlink hop =>
    refine ⟨?_, ?_, ?_⟩ <;> simp [hlink, hop, State.respond, hidle, hwindow]
  | accepted op hlink hop =>
    refine ⟨?_, ?_, ?_⟩ <;> simp [hlink, hop, State.beginOperation, hwindow]
  | reset hlink hop =>
    refine ⟨?_, ?_, ?_⟩ <;> simp [hlink, hop, Link.reset]

theorem State.handover_books (s : State) : s.handover.books = s.books := by simp [State.books]

theorem State.windowEnded_stepped (s : State) (g : Floor) (h : s.floor.Works g) :
    s.Stepped { s.windowEnded with floor := g } :=
  ⟨fun l => l.congr rfl rfl rfl fun hw => (by cases hw), .works h⟩

/-- A request window at its end: the owner's work where the port takes it. -/
theorem State.request_stepped {α : Type} {code : Byte} {fieldCount : Option Nat} {parse : List Byte → Option α}
    {q : Request α} {owner : α → State → State}
    (howner : s.Receives → ∀ x, s.handover.Owned s.Receives (owner x s.handover)) :
    s.Stepped (s.request code fieldCount parse q owner) := by
  by_cases hr : s.Receives
  · have howned : ∀ t, s.handover.Owned s.Receives t → s.Stepped t := fun t h =>
      ⟨fun l => h.hands.linkAgrees (s.handover_window hr) (by rw [State.handover_operation, l.operation_none hr]),
        s.handover_books ▸ h.books⟩
    rw [State.request_received _ _ _ _ _ _ hr]
    split
    · exact howned _ (howner hr _)
    · next st _ =>
      rw [← s.handover_refuse hr]
      exact howned _ (State.owned_refuse code st)
  by_cases hd : s.Drops
  · rw [State.request_dropped _ _ _ _ _ _ hd]
    exact s.windowEnded_stepped _ (s.floor.setNotice_works _)
  by_cases hi : s.Ignores
  · rw [State.request_ignored _ _ _ _ _ _ hi]
    exact s.windowEnded_stepped _ (.refl _)
  · have hfetch : s.request code fieldCount parse q owner = s := by
      simp only [State.Receives, State.Drops, State.Ignores, not_or, not_and] at hr hd hi
      cases hw : s.link.window with
      | noWindow =>
        have hheld : s.resetHeld = false := by simpa using hi.2 hw
        exact absurd (hd.2 hw hheld) (hr.2 hw hheld)
      | assembling => exact absurd hw hr.1
      | dropped => exact absurd hw hd.1
      | fetching b => simp [State.request, hw]
      | ignored => exact absurd hw hi.1
    rw [hfetch]
    exact ⟨id, .refl _⟩

/-- An event of the floor under which the stages work. -/
theorem State.modFloor_stepped {g : Floor → Floor} (h : s.floor.Works (g s.floor)) : s.Stepped (s.modFloor g) :=
  ⟨fun l => l.congr rfl rfl rfl id, .works h⟩

/-- A change of the port alone. -/
theorem State.port_stepped {t : State} (hbooks : t.books = s.books) (h : s.LinkAgrees → t.LinkAgrees) : s.Stepped t :=
  ⟨h, hbooks ▸ .refl _⟩

/-- A store operation in progress completes, and its response is placed (R27, R197). -/
theorem State.endOperation_stepped {g : Floor → Floor} {op : StoreOp} {code : Byte} {st : Status} {p : List Byte}
    (hop : s.operation = some op)
    (h : s.books.Change s.Receives { s.books with floor := g s.floor, operation := none }) :
    s.Stepped ((s.modFloor g).endOperation code st p) := by
  refine ⟨fun l => ?_, h⟩
  have hbusy : s.link.state = .busy := l.busy.2 (by rw [hop]; rfl)
  refine ⟨by simp [State.endOperation, State.respond], by simp [State.endOperation, State.respond], fun hw => ?_⟩
  have hassembling : s.link.window = .assembling := hw
  rw [l.assembling hassembling] at hbusy
  cases hbusy

theorem State.firstByte_stepped (code : Byte) : s.Stepped (s.firstByte code) := by
  refine State.port_stepped ?_ fun l => ?_
  · rw [State.firstByte_link_only]; rfl
  · unfold State.firstByte
    split
    · exact l.congr rfl rfl rfl fun hw => (by cases hw)
    · split
      · exact l.congr rfl rfl rfl fun hw => (by cases hw)
      · next hstate =>
        have hidle : s.operation = none := by simpa using mt l.busy.2 hstate
        exact ⟨by simp [hidle], by simp, fun _ => rfl⟩

/-- A fetch reads a waiting response, which leaves a link that is not BUSY (R198). -/
theorem State.readOut_linkAgrees (l : s.LinkAgrees) (answers : Bool) (n : Nat)
    (hanswers : answers = true → s.link.window ≠ .assembling) : (s.readOut answers n).LinkAgrees := by
  unfold State.readOut
  split
  · next r hresponse =>
    have hready : s.link.state = .ready := l.ready.2 (by rw [hresponse]; rfl)
    have hidle : s.operation = none := by simpa using mt l.busy.2 (by rw [hready]; decide)
    dsimp only
    split
    · exact ⟨by simp [hidle], by simp, fun hw => absurd hw (hanswers rfl)⟩
    · exact l.congr rfl rfl rfl id
  · exact l.congr rfl rfl rfl id

theorem State.closeWindow_linkAgrees (l : s.LinkAgrees) : s.closeWindow.LinkAgrees :=
  l.congr rfl rfl rfl fun hw => (by cases hw)

theorem State.fetchWindow_stepped (n : Nat) (across : Bool) : s.Stepped (s.fetchWindow n across) := by
  refine State.port_stepped ?_ fun l => ?_
  · rw [State.fetchWindow_link_only]; rfl
  · unfold State.fetchWindow
    split
    · exact State.closeWindow_linkAgrees l
    · next answers hw =>
      split
      · exact State.closeWindow_linkAgrees l
      · exact State.closeWindow_linkAgrees (State.readOut_linkAgrees l answers n fun _ => by rw [hw]; simp)
    · split
      · exact l
      · refine State.readOut_linkAgrees l _ n fun hready hw => ?_
        rw [l.assembling hw] at hready
        cases hready

theorem State.pinReset_stepped (level : Fin 4) (held : Bool) : s.Stepped (s.pinReset level held) := by
  refine ⟨fun _ => ?_, State.resetBlocks_books s.books s level⟩
  refine ⟨by simp [State.pinReset, State.resetBlocks, State.reset, Link.reset],
    by simp [State.pinReset, State.resetBlocks, State.reset, Link.reset], fun hw => ?_⟩
  revert hw
  simp only [State.pinReset, Link.ignoreWindow]
  split <;> simp

theorem State.idle_stepped : s.Stepped s.idle := by
  unfold State.idle
  split
  · exact ⟨fun l => l.congr rfl rfl rfl id, .works (.of_stages rfl rfl rfl rfl)⟩
  · exact ⟨fun l => l.congr rfl rfl rfl id, .works (Floor.drawn_works _ _)⟩

theorem execClosureStep_stepped {t : State} (h : execClosureStep s = .next t) : s.Stepped t := by
  have hcloses : ∀ (u : State) (slot : Nat), u.link = s.link → u.operation = s.operation →
      s.books.Change s.Receives (u.books.closeIfEmpty slot) → s.Stepped (u.closeIfEmpty slot) := by
    intro u slot hlink hop hbooks
    obtain ⟨hl, ho⟩ := u.closeIfEmpty_port slot
    refine ⟨fun l => l.congr ?_ ?_ (ho.trans hop) ?_, u.closeIfEmpty_books slot ▸ hbooks⟩ <;> rw [hl, hlink]
    exact id
  unfold execClosureStep at h
  split at h
  · cases h; exact ⟨id, .refl _⟩
  · next slot hclosure =>
    split at h
    · cases h
      exact hcloses s slot rfl rfl (.closureEnds hclosure)
    · next handle hlast =>
      cases h
      obtain ⟨reel, hreel, hlast⟩ := Option.bind_eq_some_iff.1 hlast
      exact hcloses _ slot rfl rfl (.lastFreed hclosure hreel hlast)

theorem execDroppedRequest_stepped {t : State} (h : execDroppedRequest s = .next t) : s.Stepped t := by
  have hdrop : s.Stepped s.dropWindow := s.windowEnded_stepped _ (s.floor.setNotice_works _)
  unfold execDroppedRequest at h
  split at h
  · cases h; exact hdrop
  · split at h
    · cases h; exact ⟨id, .refl _⟩
    · cases h; exact hdrop
  · cases h; exact ⟨id, .refl _⟩

/-- Every command: what it does to the port and to the books. -/
theorem exec_stepped {c : Instr} {t : State} (h : exec c s = .next t) : s.Stepped t := by
  cases c with
  | cueCreate q => cases h; exact State.request_stepped fun hr x => State.ownCreate_owned hr x
  | cueEdit q => cases h; exact State.request_stepped fun hr x => State.ownEdit_owned hr x
  | cueRetire q => cases h; exact State.request_stepped fun hr x => State.ownRetire_owned hr x
  | forcedRetire q => cases h; exact State.request_stepped fun hr x => State.ownRetire_owned hr x
  | cueCreateCompletion =>
    simp only [exec, execCueCreateCompletion] at h
    split at h
    · next hop => cases h; exact State.endOperation_stepped hop (.createEnds hop)
    · cases h; exact ⟨id, .refl _⟩
  | cueEditCompletion =>
    simp only [exec, execCueEditCompletion] at h
    split at h
    · next hop => cases h; exact State.endOperation_stepped hop (.editEnds hop)
    · cases h; exact ⟨id, .refl _⟩
  | cueRetireCompletion =>
    simp only [exec, execCueRetireCompletion] at h
    split at h
    · next hop => cases h; exact State.endOperation_stepped hop (.retireEnds hop)
    · cases h; exact ⟨id, .refl _⟩
  | cueRead q => cases h; exact State.request_stepped fun _ => State.ownCueRead_owned
  | cueMark q => cases h; exact State.request_stepped fun _ => State.ownCueMark_owned
  | reelOpen q => cases h; exact State.request_stepped fun _ => State.ownReelOpen_owned
  | reelSetDefaults q => cases h; exact State.request_stepped fun _ => State.ownReelSetDefaults_owned
  | reelSetRate q => cases h; exact State.request_stepped fun hr => State.ownReelSetRate_owned hr
  | reelRead q => cases h; exact State.request_stepped fun _ => State.ownReelRead_owned
  | reelClose q => cases h; exact State.request_stepped fun hr => State.ownReelClose_owned hr
  | cueFind q => cases h; exact State.request_stepped fun _ => State.ownCueFind_owned
  | cueNext q => cases h; exact State.request_stepped fun _ => State.ownCueNext_owned
  | cueList q => cases h; exact State.request_stepped fun _ => State.ownCueList_owned
  | charDefine q => cases h; exact State.request_stepped fun _ => State.ownCharDefine_owned
  | charRetire q => cases h; exact State.request_stepped fun hr => State.ownCharRetire_owned hr
  | charRead q => cases h; exact State.request_stepped fun _ => State.ownCharRead_owned
  | castAssign q => cases h; exact State.request_stepped fun _ => State.ownCastAssign_owned
  | castRelease q => cases h; exact State.request_stepped fun _ => State.ownCastRelease_owned
  | castRead q => cases h; exact State.request_stepped fun _ => State.ownCastRead_owned
  | trackerSet q => cases h; exact State.request_stepped fun _ => State.ownTrackerSet_owned
  | trackerRead q => cases h; exact State.request_stepped fun _ => State.ownTrackerRead_owned
  | stageEnable q => cases h; exact State.request_stepped fun _ => State.ownStageEnable_owned
  | stageDisable q => cases h; exact State.request_stepped fun _ => State.ownStageDisable_owned
  | stageReset q => cases h; exact State.request_stepped fun _ => State.ownStageReset_owned
  | stageSelectReel q => cases h; exact State.request_stepped fun _ => State.ownStageSelectReel_owned
  | stageSet q => cases h; exact State.request_stepped fun _ => State.ownStageSet_owned
  | stageRead q => cases h; exact State.request_stepped fun _ => State.ownStageRead_owned
  | talkback q => cases h; exact State.request_stepped fun _ => State.ownTalkback_owned
  | pathSet q => cases h; exact State.request_stepped fun _ => State.ownPathSet_owned
  | pathRead q => cases h; exact State.request_stepped fun _ => State.ownPathRead_owned
  | faultClear q => cases h; exact State.request_stepped fun _ => State.ownFaultClear_owned
  | faultSet q => cases h; exact State.request_stepped fun _ => State.ownFaultSet_owned
  | faultRead q => cases h; exact State.request_stepped fun _ => State.ownFaultRead_owned
  | noticeRead q => cases h; exact State.request_stepped fun _ => State.ownNoticeRead_owned
  | noticeMask q => cases h; exact State.request_stepped fun _ => State.ownNoticeMask_owned
  | noticeClear q => cases h; exact State.request_stepped fun _ => State.ownNoticeClear_owned
  | lineBankSet q => cases h; exact State.request_stepped fun _ => State.ownLineBankSet_owned
  | lineSet q => cases h; exact State.request_stepped fun _ => State.ownLineSet_owned
  | lineRead q => cases h; exact State.request_stepped fun _ => State.ownLineRead_owned
  | overlaySet q => cases h; exact State.request_stepped fun _ => State.ownOverlaySet_owned
  | overlayRead q => cases h; exact State.request_stepped fun _ => State.ownOverlayRead_owned
  | monConfig q => cases h; exact State.request_stepped fun _ => State.ownMonConfig_owned
  | monClear q => cases h; exact State.request_stepped fun _ => State.ownMonClear_owned
  | monFreeze q => cases h; exact State.request_stepped fun _ => State.ownMonFreeze_owned
  | monSetBands q => cases h; exact State.request_stepped fun _ => State.ownMonSetBands_owned
  | monRead q => cases h; exact State.request_stepped fun _ => State.ownMonRead_owned
  | deviceReset q => cases h; exact State.request_stepped fun _ => State.ownDeviceReset_owned
  | unknownRequest code bytes =>
    simp only [exec, execUnknownRequest] at h
    split at h
    · cases h; exact ⟨id, .refl _⟩
    · cases h; exact State.request_stepped fun _ _ => State.owned_refuse _ _
  | droppedRequest => exact execDroppedRequest_stepped h
  | fetch w => cases h; exact State.fetchWindow_stepped _ _
  | pinReset => cases h; exact State.pinReset_stepped _ _
  | resetRelease level =>
    simp only [exec, execResetRelease] at h
    split at h
    · cases h; exact State.pinReset_stepped _ _
    · cases h; exact ⟨id, .refl _⟩
  | wordArrival pin w => cases h; exact State.modFloor_stepped (s.floor.wordArrives_works pin w)
  | subframeAdvance i => cases h; exact State.modFloor_stepped (s.floor.subframeIncreases_works i)
  | acquisitionDeadlineExpiry i => cases h; exact State.modFloor_stepped (s.floor.acquisitionExpires_works i)
  | lockedDeadlineExpiry i => cases h; exact State.modFloor_stepped (s.floor.lockedExpires_works i)
  | syntheticBoundaryDue i => cases h; exact State.modFloor_stepped (s.floor.syntheticFallsDue_works i)
  | gapExpiry i => cases h; exact State.modFloor_stepped (s.floor.gapExpires_works i)
  | closureStep => exact execClosureStep_stepped h
  | packetEnd i => cases h; exact State.modFloor_stepped (s.floor.packetEnds_works i)
  | windowFirstByte w =>
    simp only [exec, execWindowFirstByte] at h
    cases h
    split
    · exact State.port_stepped rfl fun l => l.congr rfl rfl rfl fun hw => (by cases hw)
    · split
      · refine State.port_stepped rfl fun l => l.congr rfl rfl rfl fun hw => ?_
        revert hw
        simp only [State.beginFetch]
        split <;> simp
      · exact State.firstByte_stepped _

/-- Every step: the command at the front of the queue, or the reference clock. -/
theorem step_stepped {t : State} (h : step s = .next t) : s.Stepped t := by
  unfold step at h
  split at h
  · next c rest _ =>
    have hstep := exec_stepped (s := { s with pending := rest }) h
    exact ⟨fun l => hstep.link (l.congr rfl rfl rfl id), hstep.books⟩
  · cases h; exact State.idle_stepped

/-- Settles O5, by the port's part of what every step does. -/
theorem linkAgreesKept : Obligations.LinkAgreesKept := fun _ _ h hstep => (step_stepped hstep).link h

end Sys2Proof.Machine
end

section
/-! The stores stay canonical tables, reel numbers distinct, and a creation in progress has a free handle (R21, R31, R32,
R46, R48, R63). -/

namespace Sys2Proof.Machine

/-! ## The tables -/

/-- The tables of a floor are canonical, and no two reels share a number. -/
structure Floor.Canonical (f : Floor) : Prop where
  cues : Table.WF Config.handleCount f.cues
  reels : Table.WF Config.reelSlotCount f.reels
  characters : Table.WF Config.characterCount f.chars
  numbers : (f.reels.map fun e => e.2.number).Nodup

theorem Table.WF_of_keys {α β : Type} {n : Nat} {t : List (Nat × α)} {u : List (Nat × β)} (h : Table.WF n t)
    (hk : u.map (·.1) = t.map (·.1)) : Table.WF n u := by
  rw [Table.WF_iff, hk, ← Table.WF_iff]; exact h

variable {f : Floor}

theorem Floor.SameStore.keys {g : Floor} (e : f.SameStore g) : g.cues.map (·.1) = f.cues.map (·.1) := by
  have h := congrArg (List.map (·.1)) e.cues
  rw [List.map_map, List.map_map] at h
  exact h

theorem Floor.SameStore.canonical {g : Floor} (e : f.SameStore g) (h : f.Canonical) : g.Canonical :=
  ⟨Table.WF_of_keys h.cues e.keys, e.reels ▸ h.reels, e.chars ▸ h.characters, e.reels ▸ h.numbers⟩

theorem Floor.SameStore.length {g : Floor} (e : f.SameStore g) : g.cues.length = f.cues.length := by
  simpa using congrArg List.length e.keys

theorem Floor.Canonical.modCue (c : f.Canonical) (h : Nat) (g : Cue → Cue) : (f.modCue h g).Canonical :=
  { c with cues := Table.WF_modify h g c.cues }

/-- A change of a reel that leaves its number. -/
theorem Floor.Canonical.modReel (c : f.Canonical) (slot : Nat) (g : Reel → Reel) (hg : ∀ r, (g r).number = r.number) :
    (f.modReel slot g).Canonical where
  cues := c.cues
  reels := Table.WF_modify slot g c.reels
  characters := c.characters
  numbers := by
    have hsame : (Table.modify slot g f.reels).map (fun e => e.2.number) = f.reels.map fun e => e.2.number := by
      simp only [Table.modify, List.map_map]
      refine List.map_congr_left fun e _ => ?_
      simp only [Function.comp_apply]
      split
      · exact hg _
      · rfl
    exact hsame ▸ c.numbers

theorem Floor.Canonical.modChars (c : f.Canonical) {chars : List (Nat × Character)}
    (h : Table.WF Config.characterCount chars) : ({ f with chars := chars } : Floor).Canonical :=
  { c with characters := h }

/-- Use counts change in their places. -/
theorem foldl_modify_keys {α : Type} (g : α → α) (ids : List Nat) (t : List (Nat × α)) :
    (ids.foldl (fun t id => Table.modify id g t) t).map (·.1) = t.map (·.1) := by
  induction ids generalizing t with
  | nil => rfl
  | cons id ids ih => rw [List.foldl_cons, ih, Table.modify_keys]

theorem Floor.Canonical.raiseUse (c : f.Canonical) (ids : List Nat) : (f.raiseUse ids).Canonical :=
  { c with characters := Table.WF_of_keys c.characters (foldl_modify_keys _ ids f.chars) }

theorem Floor.Canonical.lowerUse (c : f.Canonical) (ids : List Nat) : (f.lowerUse ids).Canonical :=
  { c with characters := Table.WF_of_keys c.characters (foldl_modify_keys _ ids f.chars) }

/-- The lowest free slot of a table that has room is a slot (R32). -/
theorem Table.lowestFree_lt {α : Type} {n : Nat} {t : List (Nat × α)} (h : Table.WF n t) (hroom : t.length < n) :
    Table.lowestFree t < n :=
  Nat.lt_of_le_of_lt (Table.lowestFree_spec h).2.1 hroom

theorem Floor.Canonical.makeLive (c : f.Canonical) {handle : Nat} (hh : handle < Config.handleCount) (slot : Nat)
    (fields : CueFields) : (f.makeLive handle slot fields).Canonical := by
  have hreel := c.modReel slot (fun r => { r with order := f.insertInOrder handle fields r.order }) fun _ => rfl
  have hput := Table.WF_put (newCue slot fields) hh c.cues
  refine Floor.Canonical.raiseUse ?_ fields.characters
  exact ⟨hput, hreel.reels, hreel.characters, hreel.numbers⟩

theorem Floor.Canonical.writeEdit (c : f.Canonical) (handle : Nat) (fields : CueFields) :
    (f.writeEdit handle fields).Canonical := by
  unfold Floor.writeEdit
  split
  · exact c
  · have hcue : ∀ low high, (((f.modCue handle fun c => { c with fields := fields, lock := .unlocked }).lowerUse
        low).raiseUse high).Canonical := fun low high => ((c.modCue handle _).lowerUse low).raiseUse high
    dsimp only
    split
    · exact hcue _ _
    · refine (hcue _ _).modReel _ _ ?_
      exact fun _ => rfl

theorem Floor.Canonical.freeCue (c : f.Canonical) (handle : Nat) : (f.freeCue handle).Canonical := by
  unfold Floor.freeCue
  split
  · exact c
  · exact { c.lowerUse _ with cues := Table.WF_erase handle c.cues }

theorem Floor.Canonical.retireCue (c : f.Canonical) (handle : Nat) : (f.retireCue handle).Canonical := by
  unfold Floor.retireCue
  split
  · exact c
  · refine (c.modReel _ _ ?_).freeCue handle
    exact fun _ => rfl

theorem Floor.Canonical.freeLast (c : f.Canonical) (slot handle : Nat) : (f.freeLast slot handle).Canonical := by
  refine (c.modReel slot (fun r => { r with order := r.order.dropLast }) ?_).freeCue handle
  exact fun _ => rfl

/-- The numbers of a table after a put: the new one, and numbers it held. -/
theorem Table.map_put_nodup {α β : Type} (g : α → β) (k : Nat) (v : α) (t : List (Nat × α))
    (hnew : ∀ e ∈ t, g e.2 ≠ g v) (h : (t.map fun e => g e.2).Nodup) :
    ((Table.put k v t).map fun e => g e.2).Nodup := by
  induction t with
  | nil => simp [Table.put]
  | cons e t ih =>
    have hcons : (((k, v) :: e :: t).map fun e => g e.2).Nodup := by
      refine List.nodup_cons.2 ⟨fun hm => ?_, h⟩
      obtain ⟨x, hx, hxe⟩ := List.mem_map.1 hm
      exact hnew x hx hxe
    obtain ⟨he, ht⟩ := List.nodup_cons.1 h
    simp only [Table.put]
    split
    · exact hcons
    · split
      · refine List.nodup_cons.2 ⟨fun hm => ?_, ht⟩
        obtain ⟨x, hx, hxe⟩ := List.mem_map.1 hm
        exact hnew x (List.mem_cons_of_mem _ hx) hxe
      · refine List.nodup_cons.2 ⟨fun hm => ?_, ih (fun x hx => hnew x (List.mem_cons_of_mem _ hx)) ht⟩
        obtain ⟨x, hx, hxe⟩ := List.mem_map.1 hm
        rcases Table.mem_put hx with rfl | hx
        · exact hnew e List.mem_cons_self hxe.symm
        · exact he (List.mem_map.2 ⟨x, hx, hxe⟩)

theorem Floor.Canonical.openReel (c : f.Canonical) {number : Nat} {rate : Rate}
    (hnew : ∀ e ∈ f.reels, e.2.number ≠ number) (hroom : f.reels.length < Config.reelSlotCount) :
    (f.openReel number rate).Canonical where
  cues := c.cues
  reels := Table.WF_put _ (Table.lowestFree_lt c.reels hroom) c.reels
  characters := c.characters
  numbers := Table.map_put_nodup Reel.number _ (newReel number rate) _ hnew c.numbers

theorem Floor.Canonical.markClosing (c : f.Canonical) (slot : Nat) : (f.markClosing slot).Canonical :=
  c.modReel slot _ fun _ => rfl

theorem Floor.beginClosure_sameStore (f : Floor) (slot : Nat) : (f.markClosing slot).SameStore (f.beginClosure slot) :=
  (Floor.forEachOpen_works _ _ _ fun i g => g.stopChase_works i).1

theorem Floor.beginRetire_sameStore (f : Floor) (handle : Nat) (force : Bool) :
    (f.lockRetiring handle).SameStore (f.beginRetire handle force) := by
  unfold Floor.beginRetire
  split
  · exact (Floor.abortCue_works _ handle).1
  · exact .refl _

theorem Floor.Canonical.endClosure (c : f.Canonical) (slot : Nat) : (f.endClosure slot).Canonical where
  cues := c.cues
  reels := Table.WF_erase slot c.reels
  characters := c.characters
  numbers := c.numbers.sublist ((List.filter_sublist (l := f.reels)).map _)

/-! ## The maintenance unit -/

/-- The tables are canonical, and a creation in progress has a free handle. -/
structure Books.Canonical (b : Books) : Prop where
  tables : b.floor.Canonical
  room : ∀ slot fields status, b.operation = some (.create slot fields status) → b.floor.cues.length < Config.handleCount

theorem State.storesCanonical_iff (s : State) : s.StoresCanonical ↔ s.books.Canonical :=
  ⟨fun h => ⟨⟨h.cues, h.reels, h.characters, h.numbers⟩, h.room⟩,
    fun h => ⟨h.tables.cues, h.tables.reels, h.tables.characters, h.tables.numbers, h.room⟩⟩

theorem Books.Canonical.closeIfEmpty {b : Books} (c : b.Canonical) (slot : Nat) : (b.closeIfEmpty slot).Canonical := by
  unfold Books.closeIfEmpty
  split
  · split
    · exact ⟨c.tables.endClosure slot, c.room⟩
    · exact c
  · exact c

theorem Floor.freeCue_length (f : Floor) (handle : Nat) : (f.freeCue handle).cues.length ≤ f.cues.length := by
  unfold Floor.freeCue
  split
  · exact Nat.le_refl _
  · exact List.length_filter_le _ _

theorem Floor.freeLast_length (f : Floor) (slot handle : Nat) :
    (f.freeLast slot handle).cues.length ≤ f.cues.length := Floor.freeCue_length _ handle

/-- An accepted creation finds a free handle (R31). -/
theorem Floor.checkCreate_room (f : Floor) (x : CueCreateFields) :
    Yields (fun _ => f.cues.length < Config.handleCount) (f.checkCreate x) :=
  .bind fun _ _ => .bind fun _ _ => .bind fun _ _ => .bind fun _ _ => .bind fun _ _ => .bind fun _ _ =>
    .bind fun _ _ => .bind fun _ _ => .bind fun _ hroom => .pure (of_decide_eq_true (require_eq_ok hroom))

/-- An accepted edit is the operation of an edit. -/
theorem Floor.checkEdit_edits (f : Floor) (x : CueEditFields) :
    Yields (fun op => ∃ fields st, op = .edit x.handle fields st) (f.checkEdit x) := by
  rw [Floor.checkEdit_eq]
  exact .bind fun _ _ => .bind fun _ _ => .bind fun _ _ => .bind fun _ _ => .bind fun _ _ => .bind fun _ _ =>
    .bind fun _ _ => .bind fun _ _ => .bind fun _ _ => .bind fun _ _ => .pure ⟨_, _, rfl⟩

/-- Every change of the books keeps them canonical. -/
theorem Books.Change.canonical {taken : Prop} {b c : Books} (h : b.Change taken c) (hb : b.Canonical) : c.Canonical := by
  obtain ⟨tables, room⟩ := hb
  cases h with
  | works h => exact ⟨h.1.canonical tables, fun slot fields st hop => h.1.length ▸ room slot fields st hop⟩
  | cleared cues reels chars _ =>
    exact ⟨⟨cues ▸ Table.WF_nil _, reels ▸ Table.WF_nil _, chars ▸ Table.WF_nil _, reels ▸ List.nodup_nil⟩,
      fun _ _ _ hop => nomatch hop⟩
  | createBegins _ hop => exact ⟨tables, fun _ _ _ _ => Floor.checkCreate_room _ _ _ hop⟩
  | editBegins _ hop =>
    obtain ⟨fields, st, rfl⟩ := Floor.checkEdit_edits _ _ _ hop
    exact ⟨tables.modCue _ _, fun _ _ _ hop => nomatch hop⟩
  | retireBegins _ _ =>
    exact ⟨(Floor.beginRetire_sameStore _ _ _).canonical (tables.modCue _ _), fun _ _ _ hop => nomatch hop⟩
  | createEnds hop =>
    exact ⟨tables.makeLive (Table.lowestFree_lt tables.cues (room _ _ _ hop)) _ _, fun _ _ _ hop => nomatch hop⟩
  | editEnds _ => exact ⟨tables.writeEdit _ _, fun _ _ _ hop => nomatch hop⟩
  | retireEnds _ => exact ⟨tables.retireCue _, fun _ _ _ hop => nomatch hop⟩
  | reelOpens _ _ hnew hroom => exact ⟨tables.openReel hnew hroom, room⟩
  | defaultsSet => exact ⟨tables.modReel _ _ fun _ => rfl, room⟩
  | rateSet => exact ⟨tables.modReel _ _ fun _ => rfl, room⟩
  | reelCloses _ _ _ =>
    have e := b.floor.beginClosure_sameStore
    refine Books.Canonical.closeIfEmpty ⟨(e _).canonical (tables.markClosing _), fun slot fields st hop => ?_⟩ _
    rw [(e _).length]
    exact room slot fields st hop
  | charDefined hid _ => exact ⟨tables.modChars (Table.WF_put _ hid tables.characters), room⟩
  | charRenamed => exact ⟨tables.modChars (Table.WF_modify _ _ tables.characters), room⟩
  | charRetired => exact ⟨tables.modChars (Table.WF_erase _ tables.characters), room⟩
  | lastFreed _ _ _ =>
    refine Books.Canonical.closeIfEmpty ⟨tables.freeLast _ _, fun slot fields st hop => ?_⟩ _
    exact Nat.lt_of_le_of_lt (Floor.freeLast_length _ _ _) (room slot fields st hop)
  | closureEnds _ => exact Books.Canonical.closeIfEmpty ⟨tables, room⟩ _

/-- Settles O10, by what every step does to the books. -/
theorem storesCanonicalKept : Obligations.StoresCanonicalKept := fun s t h hstep =>
  t.storesCanonical_iff.2 ((step_stepped hstep).books.canonical (s.storesCanonical_iff.1 h))

end Sys2Proof.Machine
end

section
/-! The order lists and the use counts: what a cue that becomes live, is edited or leaves does to them (R33, R36, R39, R52,
R53, R66). -/

namespace Sys2Proof.Machine

/-! ## The order of cues (R52) -/

theorem CueFields.before_iff (a b : CueFields) : a.before b = true ↔
    a.inPoint < b.inPoint ∨ a.inPoint = b.inPoint ∧
      (a.number < b.number ∨ a.number = b.number ∧ suffixOrder a.suffix < suffixOrder b.suffix) := by
  simp [CueFields.before]

theorem CueFields.before_trans {a b c : CueFields} (hab : a.before b = true) (hbc : b.before c = true) :
    a.before c = true := by
  rw [CueFields.before_iff] at hab hbc ⊢
  omega

/-- A suffix is none or a letter (R24). -/
def IsSuffix (x : Option Nat) : Prop := ∀ c, x = some c → 0x41 ≤ c ∧ c ≤ 0x5A

/-- An absent suffix comes before A, and letters in their order (R52). -/
theorem suffixOrder_lt_iff {x y : Option Nat} (hy : IsSuffix y) : suffixOrder x < suffixOrder y ↔
    ∃ d, y = some d ∧ ∀ c, x = some c → c < d := by
  cases x with
  | none =>
    cases y with
    | none => simp [suffixOrder]
    | some d => simpa [suffixOrder] using (by have := hy d rfl; omega : 0 < d)
  | some c => cases y <;> simp [suffixOrder]

theorem suffixOrder_inj {x y : Option Nat} (hx : IsSuffix x) (hy : IsSuffix y) (h : suffixOrder x = suffixOrder y) :
    x = y := by
  cases x with
  | none =>
    cases y with
    | none => rfl
    | some d => have := hy d rfl; simp only [suffixOrder] at h; omega
  | some c =>
    cases y with
    | none => have := hx c rfl; simp only [suffixOrder] at h; omega
    | some d => exact congrArg some h

/-- Of two cues with different labels one comes before the other (R52). -/
theorem CueFields.before_of_not {a b : CueFields} (ha : IsSuffix a.suffix) (hb : IsSuffix b.suffix)
    (hlabel : ¬(a.number = b.number ∧ a.suffix = b.suffix)) (h : ¬a.before b = true) : b.before a = true := by
  rw [CueFields.before_iff] at h ⊢
  have hne : a.number = b.number → suffixOrder a.suffix ≠ suffixOrder b.suffix := fun hn hs =>
    hlabel ⟨hn, suffixOrder_inj ha hb hs⟩
  omega

theorem CueFields.samePlace_iff (a b : CueFields) :
    a.samePlace b = true ↔ a.inPoint = b.inPoint ∧ a.number = b.number ∧ a.suffix = b.suffix := by
  simp [CueFields.samePlace, and_assoc]

theorem CueFields.before_congr {a a' b b' : CueFields} (ha : a.samePlace a' = true) (hb : b.samePlace b' = true) :
    a.before b = a'.before b' := by
  obtain ⟨hai, han, has⟩ := (a.samePlace_iff a').1 ha
  obtain ⟨hbi, hbn, hbs⟩ := (b.samePlace_iff b').1 hb
  simp only [CueFields.before, hai, han, has, hbi, hbn, hbs]

/-! ## Places in an order list (R53) -/

/-- Whether the cue of a handle comes before a record. -/
def Floor.comesBefore (f : Floor) (fields : CueFields) (h : Nat) : Bool :=
  match f.cue h with
  | some c => c.fields.before fields
  | none => false

theorem Floor.comesBefore_eq (f : Floor) (fields : CueFields) (h : Nat) :
    f.comesBefore fields h = ((f.cue h).map fun c => c.fields.before fields).getD false := by
  unfold Floor.comesBefore
  cases f.cue h <;> rfl

/-- How many handles of an order list come before a record. -/
def Floor.placeOf (f : Floor) (fields : CueFields) (order : List Nat) : Nat :=
  (order.filter (f.comesBefore fields)).length

theorem Floor.insertInOrder_eq (f : Floor) (h : Nat) (fields : CueFields) (order : List Nat) :
    f.insertInOrder h fields order =
      order.take (f.placeOf fields order) ++ h :: order.drop (f.placeOf fields order) := rfl

theorem Floor.placeOf_le (f : Floor) (fields : CueFields) (order : List Nat) : f.placeOf fields order ≤ order.length :=
  List.length_filter_le _ _

theorem Floor.insertInOrder_congr {f g : Floor} {fields : CueFields} {order : List Nat}
    (h : ∀ k ∈ order, g.cue k = f.cue k) (handle : Nat) :
    g.insertInOrder handle fields order = f.insertInOrder handle fields order := by
  have hfilter : order.filter (g.comesBefore fields) = order.filter (f.comesBefore fields) :=
    List.filter_congr fun k hk => by simp only [Floor.comesBefore, h k hk]
  rw [Floor.insertInOrder_eq, Floor.insertInOrder_eq, Floor.placeOf, hfilter, Floor.placeOf]

theorem Floor.mem_insertInOrder (f : Floor) (h k : Nat) (fields : CueFields) (order : List Nat) :
    k ∈ f.insertInOrder h fields order ↔ k = h ∨ k ∈ order := by
  have hsplit := List.take_append_drop (f.placeOf fields order) order
  rw [Floor.insertInOrder_eq]
  conv_rhs => rw [← hsplit]
  simp only [List.mem_append, List.mem_cons]
  tauto

/-- In a list in which what follows an item without a property has it not, the items with the property come first. -/
theorem List.take_filter_length {α : Type} (p : α → Bool) (l : List α) (h : l.Pairwise fun x y => p y = true → p x = true) :
    l.take (l.filter p).length = l.filter p ∧ l.drop (l.filter p).length = l.filter fun x => !p x := by
  induction l with
  | nil => exact ⟨rfl, rfl⟩
  | cons x l ih =>
    obtain ⟨hx, hl⟩ := List.pairwise_cons.1 h
    obtain ⟨ht, hd⟩ := ih hl
    by_cases hp : p x = true
    · simp [hp, ht, hd]
    · have hnone : l.filter p = [] := List.filter_eq_nil_iff.2 fun y hy hpy => hp (hx y hy hpy)
      have hall : l.filter (fun x => !p x) = l := List.filter_eq_self.2 fun y hy => by
        simpa using fun hpy => hp (hx y hy hpy)
      simp [hp, hnone, hall]

/-- Two handles of live cues, the first before the second (R52). -/
def Floor.Precedes (f : Floor) (h k : Nat) : Prop :=
  ∃ c d, f.cue h = some c ∧ f.cue k = some d ∧ c.fields.before d.fields = true

/-- A record takes its place in a strictly increasing order list of cues with other labels, and the list stays so: where f
is the floor before and g the floor that holds the record (R52, R53). -/
theorem Floor.insertInOrder_sorted {f g : Floor} {h : Nat} {c : Cue} {order : List Nat}
    (hsorted : order.Pairwise f.Precedes) (hlive : ∀ k ∈ order, ∃ d, f.cue k = some d)
    (hsame : ∀ k ∈ order, g.cue k = f.cue k) (hc : g.cue h = some c)
    (hlabel : ∀ k ∈ order, ∀ d, f.cue k = some d → IsSuffix d.fields.suffix ∧
      ¬(d.fields.number = c.fields.number ∧ d.fields.suffix = c.fields.suffix))
    (hsuffix : IsSuffix c.fields.suffix) : (f.insertInOrder h c.fields order).Pairwise g.Precedes := by
  have hmono : order.Pairwise fun x y => f.comesBefore c.fields y = true → f.comesBefore c.fields x = true :=
    hsorted.imp fun ⟨a, b, ha, hb, hab⟩ hy => by
      simp only [Floor.comesBefore, ha, hb] at hy ⊢
      exact CueFields.before_trans hab hy
  obtain ⟨htake, hdrop⟩ := List.take_filter_length _ order hmono
  have hsortedg : order.Pairwise g.Precedes := hsorted.imp_of_mem fun hx hy ⟨a, b, ha, hb, hab⟩ =>
    ⟨a, b, (hsame _ hx).trans ha, (hsame _ hy).trans hb, hab⟩
  have hbelow : ∀ k ∈ order.take (f.placeOf c.fields order), g.Precedes k h := fun k hk => by
    rw [Floor.placeOf, htake, List.mem_filter] at hk
    obtain ⟨d, hd⟩ := hlive k hk.1
    have hb := hk.2
    simp only [Floor.comesBefore, hd] at hb
    exact ⟨d, c, (hsame k hk.1).trans hd, hc, hb⟩
  have habove : ∀ k ∈ order.drop (f.placeOf c.fields order), g.Precedes h k := fun k hk => by
    rw [Floor.placeOf, hdrop, List.mem_filter] at hk
    obtain ⟨d, hd⟩ := hlive k hk.1
    obtain ⟨hs, hl⟩ := hlabel k hk.1 d hd
    have hb := hk.2
    simp only [Floor.comesBefore, hd, Bool.not_eq_true', ← Bool.not_eq_true] at hb
    exact ⟨c, d, hc, (hsame k hk.1).trans hd, CueFields.before_of_not hs hsuffix hl hb⟩
  rw [Floor.insertInOrder_eq]
  have hsplit := hsortedg
  rw [← List.take_append_drop (f.placeOf c.fields order) order, List.pairwise_append] at hsplit
  obtain ⟨hfront, hback, hcross⟩ := hsplit
  refine List.pairwise_append.2 ⟨hfront, List.pairwise_cons.2 ⟨habove, hback⟩, fun x hx y hy => ?_⟩
  rcases List.mem_cons.1 hy with rfl | hy
  · exact hbelow x hx
  · exact hcross x hx y hy

/-! ## Use counts (R66) -/

theorem Table.find_foldl_modify {α : Type} (g : α → α) (k : Nat) (ids : List Nat) (t : List (Nat × α)) :
    Table.find k (ids.foldl (fun t id => Table.modify id g t) t) = (Table.find k t).map g^[ids.count k] := by
  induction ids generalizing t with
  | nil => simp
  | cons id ids ih =>
    rw [List.foldl_cons, ih, Table.find_modify]
    by_cases hk : k = id
    · subst hk
      simp [Function.comp_def]
    · simp [hk, Ne.symm hk]

theorem Floor.raiseUse_character (f : Floor) (ids : List Nat) (id : Nat) : (f.raiseUse ids).character id =
    (f.character id).map fun c => { c with useCount := c.useCount + ids.count id } := by
  have hiter : ∀ n, (fun c : Character => { c with useCount := c.useCount + 1 })^[n] =
      fun c => { c with useCount := c.useCount + n } := fun n => by
    induction n with
    | zero => rfl
    | succ n ih =>
      funext c
      have hcount : c.useCount + 1 + n = c.useCount + (n + 1) := by omega
      simp only [Function.iterate_succ_apply, ih, hcount]
  rw [← hiter]
  exact Table.find_foldl_modify _ id ids f.chars

theorem Floor.lowerUse_character (f : Floor) (ids : List Nat) (id : Nat) : (f.lowerUse ids).character id =
    (f.character id).map fun c => { c with useCount := c.useCount - ids.count id } := by
  have hiter : ∀ n, (fun c : Character => { c with useCount := c.useCount - 1 })^[n] =
      fun c => { c with useCount := c.useCount - n } := fun n => by
    induction n with
    | zero => rfl
    | succ n ih => funext c; simp [Function.iterate_succ_apply, ih, Nat.sub_sub, Nat.add_comm]
  rw [← hiter]
  exact Table.find_foldl_modify _ id ids f.chars

/-! ## A cue becomes live (R33) -/

theorem Floor.makeLive_cue (f : Floor) (handle slot j : Nat) (fields : CueFields) :
    (f.makeLive handle slot fields).cue j = if j = handle then some (newCue slot fields) else f.cue j := by
  have hcues : (f.makeLive handle slot fields).cues = Table.put handle (newCue slot fields) f.cues := rfl
  rw [Floor.cue, hcues]
  split
  · next h => rw [h, Table.find_put_self]
  · next h => exact Table.find_put_other h _ _

theorem Floor.makeLive_reel (f : Floor) (handle slot k : Nat) (fields : CueFields) :
    (f.makeLive handle slot fields).reel k = if k = slot
      then (f.reel k).map fun r => { r with order := f.insertInOrder handle fields r.order } else f.reel k :=
  Table.find_modify k slot (fun r : Reel => { r with order := f.insertInOrder handle fields r.order }) f.reels

theorem Floor.makeLive_character (f : Floor) (handle slot id : Nat) (fields : CueFields) :
    (f.makeLive handle slot fields).character id =
      (f.character id).map fun c => { c with useCount := c.useCount + fields.characters.count id } :=
  Floor.raiseUse_character _ _ _

/-- Settles O23: the order of R52, and the lowest free handle made live. -/
theorem cueCreateCompletionMakesLive : Obligations.CueCreateCompletionMakesLive := by
  refine ⟨fun a b => ?_, fun s slot fields st reel hs hop hreel => ?_⟩
  · intro letter first _ hb
    have hfirst : first ↔ ∃ d, b.suffix = some d ∧ ∀ c, a.suffix = some c → c < d := by
      unfold first
      cases a.suffix <;> cases b.suffix <;> simp
    rw [CueFields.before_iff, suffixOrder_lt_iff hb, hfirst]
  · obtain ⟨hfree, hle, hbelow⟩ := Table.lowestFree_spec hs.cues
    have hroom := hs.room slot fields st hop
    refine ⟨(s.modFloor fun f => f.makeLive (Table.lowestFree s.floor.cues) slot fields).endOperation Code.cueCreate st
        (bytes2 (Table.lowestFree s.floor.cues)), Table.lowestFree s.floor.cues,
      reel.order.take (s.floor.placeOf fields reel.order), reel.order.drop (s.floor.placeOf fields reel.order),
      by simp only [exec, execCueCreateCompletion, hop], Nat.lt_of_le_of_lt hle hroom, hfree, hbelow, ?_, fun j hj => ?_,
      (List.take_append_drop _ _).symm, ?_, ?_, fun k hk => ?_, fun id => Floor.makeLive_character _ _ _ _ _, rfl⟩
    · exact (Floor.makeLive_cue _ _ _ _ _).trans (if_pos rfl)
    · exact (Floor.makeLive_cue _ _ _ _ _).trans (if_neg hj)
    · rw [List.length_take, Nat.min_eq_left (s.floor.placeOf_le _ _), Floor.placeOf]
      simp only [funext fun h => s.floor.comesBefore_eq fields h]
    · refine (Floor.makeLive_reel _ _ _ _ _).trans ?_
      rw [if_pos rfl, hreel, Option.map_some, Floor.insertInOrder_eq]
    · exact (Floor.makeLive_reel _ _ _ _ _).trans (if_neg hk)

/-! ## An edit is written (R36) -/

/-- The characters that an edit takes from a cue, and those it gives it. -/
def leftOut (old new : List Nat) : List Nat := old.filter fun id => !new.contains id

section WriteEdit

variable {f : Floor} {h : Nat} {fields : CueFields} {c : Cue} (hc : f.cue h = some c)
include hc

theorem Floor.writeEdit_eq : f.writeEdit h fields =
    let g := (((f.modCue h fun c => { c with fields := fields, lock := .unlocked }).lowerUse
      (leftOut c.fields.characters fields.characters)).raiseUse (leftOut fields.characters c.fields.characters))
    if c.fields.samePlace fields then g
    else g.modReel c.reel fun r => { r with order := g.insertInOrder h fields (r.order.filter fun k => k != h) } := by
  unfold Floor.writeEdit
  rw [hc]
  rfl

theorem Floor.writeEdit_cues : (f.writeEdit h fields).cues =
    Table.modify h (fun c => { c with fields := fields, lock := .unlocked }) f.cues := by
  rw [Floor.writeEdit_eq hc]
  dsimp only
  split <;> rfl

theorem Floor.writeEdit_cue (j : Nat) : (f.writeEdit h fields).cue j =
    if j = h then some { c with fields := fields, lock := .unlocked } else f.cue j := by
  rw [Floor.cue, Floor.writeEdit_cues hc, Table.find_modify]
  split
  · next hj => rw [hj, ← Floor.cue, hc]; rfl
  · rfl

theorem Floor.writeEdit_reel (k : Nat) : (f.writeEdit h fields).reel k =
    if k = c.reel ∧ c.fields.samePlace fields = false
      then (f.reel k).map fun r => { r with order := f.insertInOrder h fields (r.order.filter fun k => k != h) }
    else f.reel k := by
  have hplace : ∀ order : List Nat, (f.modCue h fun c => { c with fields := fields, lock := .unlocked }).insertInOrder h
      fields (order.filter fun k => k != h) = f.insertInOrder h fields (order.filter fun k => k != h) := fun order => by
    refine Floor.insertInOrder_congr (fun k hk => ?_) h
    have hne : k ≠ h := by simpa using (List.mem_filter.1 hk).2
    exact (Table.find_modify k h (fun c : Cue => { c with fields := fields, lock := .unlocked }) f.cues).trans
      (if_neg hne)
  rw [Floor.writeEdit_eq hc]
  cases hsame : c.fields.samePlace fields with
  | true => simp only [↓reduceIte, reduceCtorEq, and_false]; rfl
  | false =>
    simp only [Bool.false_eq_true, ↓reduceIte, and_true, ← hplace]
    exact Table.find_modify k c.reel (fun r : Reel =>
      let edited := f.modCue h fun c => { c with fields := fields, lock := .unlocked }
      { r with order := edited.insertInOrder h fields (r.order.filter fun k => k != h) }) f.reels

theorem Floor.writeEdit_character (id : Nat) : (f.writeEdit h fields).character id =
    (f.character id).map fun d => { d with useCount :=
      d.useCount - (leftOut c.fields.characters fields.characters).count id +
        (leftOut fields.characters c.fields.characters).count id } := by
  have hchar : (f.writeEdit h fields).character id =
      (((f.modCue h fun c => { c with fields := fields, lock := .unlocked }).lowerUse
        (leftOut c.fields.characters fields.characters)).raiseUse
          (leftOut fields.characters c.fields.characters)).character id := by
    rw [Floor.writeEdit_eq hc]
    dsimp only
    split <;> rfl
  rw [hchar, Floor.raiseUse_character, Floor.lowerUse_character, Option.map_map]
  rfl

theorem Floor.writeEdit_frame : f.writeEdit h fields = { f with
    cues := (f.writeEdit h fields).cues
    reels := (f.writeEdit h fields).reels
    chars := (f.writeEdit h fields).chars } := by
  rw [Floor.writeEdit_eq hc]
  dsimp only
  split <;> rfl

end WriteEdit

/-- Settles O25: the record, its place, and the use counts after an edit. -/
theorem cueEditCompletionWrites : Obligations.CueEditCompletionWrites := by
  refine ⟨CueFields.samePlace_iff, fun s h fields st c reel hop hc hreel => ?_⟩
  have hframe := Floor.writeEdit_frame (fields := fields) hc
  refine ⟨(s.modFloor fun f => f.writeEdit h fields).endOperation Code.cueEdit st [],
    (reel.order.filter fun j => j != h).take (s.floor.placeOf fields (reel.order.filter fun j => j != h)),
    (reel.order.filter fun j => j != h).drop (s.floor.placeOf fields (reel.order.filter fun j => j != h)),
    by simp only [exec, execCueEditCompletion, hop], ?_, fun j hj => ?_, (List.take_append_drop _ _).symm, ?_, ?_,
    fun k hk => ?_, fun id => Floor.writeEdit_character hc id, ?_⟩
  · exact (Floor.writeEdit_cue hc h).trans (if_pos rfl)
  · exact (Floor.writeEdit_cue hc j).trans (if_neg hj)
  · rw [List.length_take, Nat.min_eq_left (s.floor.placeOf_le _ _), Floor.placeOf]
    simp only [funext fun k => s.floor.comesBefore_eq fields k]
  · refine (Floor.writeEdit_reel hc c.reel).trans ?_
    rw [hreel]
    cases c.fields.samePlace fields with
    | true => simp
    | false =>
      simp only [and_self, ↓reduceIte, Option.map_some, Bool.false_eq_true, Option.some.injEq, Reel.mk.injEq, true_and]
      exact Floor.insertInOrder_eq _ _ _ _
  · exact (Floor.writeEdit_reel hc k).trans (if_neg fun h => hk h.1)
  · simp only [State.endOperation, State.respond, State.modFloor]
    rw [← hframe]

/-! ## A cue leaves (R39) -/

section RetireCue

variable {f : Floor} {h : Nat} {c : Cue} (hc : f.cue h = some c)
include hc

theorem Floor.retireCue_eq : f.retireCue h =
    let g := (f.modReel c.reel fun r => { r with order := r.order.filter fun k => k != h }).lowerUse c.fields.characters
    { g with cues := Table.erase h g.cues } := by
  have hfree : ∀ g : Floor, g.cue h = some c →
      g.freeCue h = { g.lowerUse c.fields.characters with cues := Table.erase h g.cues } := fun g hg => by
    unfold Floor.freeCue
    rw [hg]
    rfl
  unfold Floor.retireCue
  rw [hc]
  exact hfree _ hc

theorem Floor.retireCue_cue (j : Nat) : (f.retireCue h).cue j = if j = h then none else f.cue j := by
  rw [Floor.retireCue_eq hc]
  split
  · next hj => rw [hj]; exact Table.find_erase_self h f.cues
  · next hj => exact Table.find_erase_other hj f.cues

theorem Floor.retireCue_reel (k : Nat) : (f.retireCue h).reel k = if k = c.reel
    then (f.reel k).map fun r => { r with order := r.order.filter fun k => k != h } else f.reel k := by
  rw [Floor.retireCue_eq hc]
  exact Table.find_modify k c.reel (fun r : Reel => { r with order := r.order.filter fun k => k != h }) f.reels

theorem Floor.retireCue_character (id : Nat) : (f.retireCue h).character id =
    (f.character id).map fun d => { d with useCount := d.useCount - c.fields.characters.count id } := by
  rw [Floor.retireCue_eq hc]
  exact Floor.lowerUse_character _ _ _

theorem Floor.retireCue_frame : f.retireCue h = { f with
    cues := (f.retireCue h).cues, reels := (f.retireCue h).reels, chars := (f.retireCue h).chars } := by
  rw [Floor.retireCue_eq hc]
  rfl

end RetireCue

/-- Settles O28: the order list, the slot and the use counts after a retire. -/
theorem cueRetireCompletionFrees : Obligations.CueRetireCompletionFrees := by
  intro s h st c reel hop hc hreel
  have hframe := Floor.retireCue_frame hc
  refine ⟨(s.modFloor fun f => f.retireCue h).endOperation Code.cueRetire st [],
    by simp only [exec, execCueRetireCompletion, hop], (Floor.retireCue_cue hc h).trans (if_pos rfl),
    fun j hj => (Floor.retireCue_cue hc j).trans (if_neg hj), ?_, fun k hk => (Floor.retireCue_reel hc k).trans (if_neg hk),
    fun id => Floor.retireCue_character hc id, ?_⟩
  · refine (Floor.retireCue_reel hc c.reel).trans ?_
    rw [if_pos rfl, hreel, Option.map_some]
  · simp only [State.endOperation, State.respond, State.modFloor]
    rw [← hframe]

end Sys2Proof.Machine
end

section
/-! The reset values, and the requests on one cue that the port answers or hands to the maintenance unit at once: a plain
retire and the refusals of a forced one (R37, R38), a mark (R44). -/

namespace Sys2Proof.Machine

/-! ## The state after a pin reset -/

theorem Floor.reset_stage (i : Fin 4) : State.reset.floor.stage i = Stage.reset := by
  simp [State.reset, Floor.reset, Floor.stage]

/-- Every line is inactive on an open drain after reset, so the part releases it (R159, R161). -/
theorem State.reset_electricalLevel : ∀ l : Fin 24, State.reset.electricalLevel l = .released := by decide

/-- Settles O3: each block's reset values, read off its reset record. -/
theorem resetValues : Obligations.ResetValues := by
  refine ⟨rfl, rfl, rfl, rfl, rfl, fun i k => ?_, fun i => ?_, fun k => ?_, ?_, fun k => ?_, rfl, rfl, rfl, rfl, rfl, rfl,
    fun l => ⟨?_, State.reset_electricalLevel l⟩, fun i => ?_⟩
  · simp [State.reset, Floor.reset, Podiums.none]
  · simp only [Floor.tracker, Floor.runner, Floor.path, Floor.faults, Floor.overlay, Floor.reset_stage]
    exact ⟨rfl, rfl, rfl, rfl, rfl⟩
  · simp [State.reset, Floor.reset]
  · simp [Floor.attention, State.reset, Floor.reset]
  · simp [State.reset, Floor.reset, Monitor.reset, Counter.reset]
  · simp [State.reset, Line.reset]
  · rw [State.overlayLine, Floor.overlay, Floor.reset_stage]
    rfl

/-! ## A request at its owner -/

/-- A request whose window is read reaches its owner. -/
theorem exec_owned {α : Type} {i : Instr} {s : State} {code : Byte} {fieldCount : Option Nat}
    {parse : List Byte → Option α} {q : Request α} {owner : α → State → State} {x : α} (hs : s.Receives)
    (hi : exec i s = .next (s.request code fieldCount parse q owner))
    (hq : readRequest fieldCount parse q = .ok x) : exec i s = .next (owner x s.handover) :=
  hi.trans (congrArg _ (State.request_read _ _ _ _ _ _ hs hq))

/-- A handle of a cue of an OPEN reel resolves (R21, R47). -/
theorem Floor.resolveCue_opened {f : Floor} {h : Nat} {c : Cue} {reel : Reel} (hc : f.cue h = some c)
    (hr : f.reel c.reel = some reel) (hs : reel.state = .reelOpened) : f.resolveCue h = .ok c :=
  (f.resolveCue_eq_ok_iff h c).2 ⟨hc, fun r hr' => by rwa [← Option.some.inj (hr.symm.trans hr')]⟩

theorem require_unlocked {c : Cue} (h : c.lock ≠ .unlocked) (st : Status) :
    require (c.lock == .unlocked) st = .error st := by
  rw [beq_false_of_ne h, require_false]

/-! ## CUE_RETIRE (R37, R38) -/

section Retire

variable {s : State} {q : Request RetireFields} {x : RetireFields} (hs : s.Receives)
  (hq : readRequest none parseRetire q = .ok x)
include hs hq

theorem exec_cueRetire_refused {st : Status} (h : s.floor.checkRetire x = .error st) :
    exec (.cueRetire q) s = .next (s.replied Code.cueRetire st []) :=
  (exec_owned hs rfl hq).trans (by simp [State.ownRetire, h, hs])

theorem exec_cueRetire_accepted {force : Bool} (h : s.floor.checkRetire x = .ok force) :
    exec (.cueRetire q) s = .next
      (({ s with floor := s.floor.beginRetire x.handle force }).accepted (.retire x.handle .ok)) := by
  refine (exec_owned hs rfl hq).trans (congrArg _ ?_)
  simp only [State.ownRetire, State.handover_floor, h]
  exact s.handover_modFloor_beginOperation hs _ _

end Retire

section CheckRetire

variable {f : Floor} {x : RetireFields}

theorem Floor.checkRetire_badFlag (h : 1 < x.force) : f.checkRetire x = .error .badRequest := by
  have hflag : flagOfCode x.force = none := by rw [flagOfCode_eq]; simpa using h
  simp [Floor.checkRetire, hflag]

theorem Floor.checkRetire_unresolved {force : Bool} {st : Status} (hflag : flagOfCode x.force = some force)
    (h : f.resolveCue x.handle = .error st) : f.checkRetire x = .error st := by
  simp [Floor.checkRetire, hflag, h]

theorem Floor.checkRetire_locked {force : Bool} {c : Cue} (hflag : flagOfCode x.force = some force)
    (h : f.resolveCue x.handle = .ok c) (hlock : c.lock ≠ .unlocked) : f.checkRetire x = .error .cueBusy := by
  simp [Floor.checkRetire, hflag, h, require_unlocked hlock]

theorem Floor.checkRetire_inFlight {c : Cue} (hflag : flagOfCode x.force = some false)
    (h : f.resolveCue x.handle = .ok c) (hlock : c.lock = .unlocked) (hruns : 0 < c.inFlight) :
    f.checkRetire x = .error .cueInFlight := by
  simp [Floor.checkRetire, hflag, h, hlock, beq_false_of_ne (Nat.ne_of_gt hruns)]

theorem Floor.checkRetire_ok {force : Bool} {c : Cue} (hflag : flagOfCode x.force = some force)
    (h : f.resolveCue x.handle = .ok c) (hlock : c.lock = .unlocked) (hruns : force = true ∨ c.inFlight = 0) :
    f.checkRetire x = .ok force := by
  have hgo : (force || c.inFlight == 0) = true := by simpa using hruns
  simp [Floor.checkRetire, hflag, h, hlock, hgo]

end CheckRetire

/-- Settles O26: the checks of R37 in their order, for either row of the request. -/
theorem cueRetireIsAcceptedOrRefused : Obligations.CueRetireIsAcceptedOrRefused := by
  have hflag : ∀ {x : RetireFields} {n : Nat} {force : Bool}, x.force = n → flagOfCode n = some force →
      flagOfCode x.force = some force := fun hx hf => by rw [hx, hf]
  refine ⟨fun q s => rfl, fun q x s hs hq => ?_, fun q x s hs hq hplain => ?_⟩
  · intro refused
    have hrefused : ∀ st, s.floor.checkRetire x = .error st → refused st := fun st h => exec_cueRetire_refused hs hq h
    refine ⟨fun hbad => hrefused _ (Floor.checkRetire_badFlag hbad), fun hforced hfree => hrefused _
      (Floor.checkRetire_unresolved (hflag hforced rfl) (Floor.resolveCue_unknown hfree)),
      fun c reel hforced hc hreel => ⟨fun hclosing => hrefused _ (Floor.checkRetire_unresolved (hflag hforced rfl)
        (Floor.resolveCue_closing hc hreel hclosing)), fun hopen hlock => hrefused _
          (Floor.checkRetire_locked (hflag hforced rfl) (Floor.resolveCue_opened hc hreel hopen) hlock)⟩⟩
  · have hflag : flagOfCode x.force = some false := hflag hplain rfl
    refine ⟨fun hfree => exec_cueRetire_refused hs hq
      (Floor.checkRetire_unresolved hflag (Floor.resolveCue_unknown hfree)), fun c reel hc hreel => ?_⟩
    have hfound := fun hopen : reel.state = .reelOpened => Floor.resolveCue_opened hc hreel hopen
    exact ⟨fun hclosing => exec_cueRetire_refused hs hq
        (Floor.checkRetire_unresolved hflag (Floor.resolveCue_closing hc hreel hclosing)),
      fun hopen hlock => exec_cueRetire_refused hs hq (Floor.checkRetire_locked hflag (hfound hopen) hlock),
      fun hopen hlock hruns => exec_cueRetire_refused hs hq
        (Floor.checkRetire_inFlight hflag (hfound hopen) hlock hruns),
      fun hopen hlock hruns => exec_cueRetire_accepted hs hq
        (Floor.checkRetire_ok hflag (hfound hopen) hlock (.inr hruns))⟩

/-! ## CUE_MARK (R44) -/

/-- What a mark changes of a cue. -/
def marked (enable : Option Enable) (approval : Option Approval) (c : Cue) : Cue :=
  { c with enable := enable.getD c.enable, approval := approval.getD c.approval }

/-- The checks of a mark, in the order of log 35. -/
def Floor.checkMark (f : Floor) (x : CueMarkFields) : Except Status (Option Enable × Option Approval) := do
  require (x.enable.isSome || x.approval.isSome) .badRequest
  let enable ← givenCode Enable.ofCode x.enable
  let approval ← givenCode Approval.ofCode x.approval
  let c ← f.resolveCue x.handle
  require (c.lock == .unlocked) .cueBusy
  pure (enable, approval)

theorem State.ownCueMark_eq (x : CueMarkFields) (s : State) : s.ownCueMark x =
    match s.floor.checkMark x with
    | .error st => s.refuse Code.cueMark st
    | .ok (enable, approval) =>
      (s.modFloor fun f => f.modCue x.handle (marked enable approval)).respond Code.cueMark .ok [] := by
  unfold State.ownCueMark Floor.checkMark
  cases require (x.enable.isSome || x.approval.isSome) .badRequest with
  | error st => rfl
  | ok u =>
    cases givenCode Enable.ofCode x.enable with
    | error st => rfl
    | ok enable =>
      cases givenCode Approval.ofCode x.approval with
      | error st => rfl
      | ok approval =>
        cases s.floor.resolveCue x.handle with
        | error st => rfl
        | ok c => cases hlock : (c.lock == .unlocked) <;> simp only [except_ok_bind, hlock] <;> rfl

/-- A value is read where it is not given, or names one of those listed. -/
theorem givenCode_listed {α : Type} {decode : Nat → Option α} {names : List α} (hdecode : ∀ n, decode n = names[n]?)
    (given : Option Nat) : (∀ n, given = some n → n < names.length) ↔ ∃ x, givenCode decode given = .ok x := by
  cases given with
  | none => exact ⟨fun _ => ⟨none, rfl⟩, fun _ n hn => nomatch hn⟩
  | some n =>
    obtain ⟨-, hsome, hnone⟩ := givenCode_spec decode n
    constructor
    · intro h
      have hn := h n rfl
      exact ⟨_, hsome names[n] (by rw [hdecode, List.getElem?_eq_getElem hn])⟩
    · rintro ⟨x, hx⟩ m hm
      cases hm
      by_contra hn
      rw [hnone (by rw [hdecode, List.getElem?_eq_none (Nat.not_lt.1 hn)])] at hx
      cases hx

theorem givenCode_unlisted {α : Type} {decode : Nat → Option α} {names : List α} (hdecode : ∀ n, decode n = names[n]?)
    {given : Option Nat} (h : ¬∀ n, given = some n → n < names.length) :
    givenCode decode given = .error .badRequest := by
  simp only [not_forall] at h
  obtain ⟨n, rfl, hn⟩ := h
  exact (givenCode_spec decode n).2.2 (by rw [hdecode, List.getElem?_eq_none (Nat.not_lt.1 hn)])

section Mark

variable {s : State} {q : Request CueMarkFields} {x : CueMarkFields} (hs : s.Receives)
  (hq : readRequest (some 2) parseCueMark q = .ok x)
include hs hq

theorem exec_cueMark_refused {st : Status} (h : s.floor.checkMark x = .error st) :
    exec (.cueMark q) s = .next (s.replied Code.cueMark st []) :=
  (exec_owned hs rfl hq).trans (by simp [State.ownCueMark_eq, h, hs])

theorem exec_cueMark_marked {enable : Option Enable} {approval : Option Approval}
    (h : s.floor.checkMark x = .ok (enable, approval)) : exec (.cueMark q) s =
      .next (s.carriedOut (s.floor.modCue x.handle (marked enable approval)) Code.cueMark .ok []) :=
  (exec_owned hs rfl hq).trans (by simp [State.ownCueMark_eq, h, hs])

end Mark

/-- Settles O29: the mark in place, and the checks in the order of log 35. -/
theorem cueMarkSetsFields : Obligations.CueMarkSetsFields := by
  refine ⟨fun q x s c e a hs hq hgiven he ha hc hlock => ?_, fun q x s hs hq => ?_⟩
  · have hgiven : (x.enable.isSome || x.approval.isSome) = true := by simpa using hgiven
    have hcheck : s.floor.checkMark x = .ok (e, a) := by
      simp [Floor.checkMark, hgiven, he, ha, hc, hlock]
    have hcue := ((s.floor.resolveCue_eq_ok_iff _ _).1 hc).1
    refine ⟨_, exec_cueMark_marked hs hq hcheck, ?_, fun j hj => ?_, rfl⟩
    · refine (Table.find_modify x.handle x.handle (marked e a) s.floor.cues).trans ?_
      rw [if_pos rfl, ← Floor.cue, hcue]
      rfl
    · exact (Table.find_modify j x.handle (marked e a) s.floor.cues).trans (if_neg hj)
  · intro refused named
    have hrefused : ∀ st, s.floor.checkMark x = .error st → refused st := fun st h => exec_cueMark_refused hs hq h
    have henable := givenCode_listed Enable.ofCode_eq x.enable
    have happroval := givenCode_listed Approval.ofCode_eq x.approval
    have hread : named → (x.enable.isSome || x.approval.isSome) = true ∧
        (∃ e, givenCode Enable.ofCode x.enable = .ok e) ∧ ∃ a, givenCode Approval.ofCode x.approval = .ok a :=
      fun ⟨hgiven, hone, htwo⟩ => ⟨by simpa using hgiven, henable.1 fun n hn => Nat.lt_succ_of_le (hone n hn),
        happroval.1 fun n hn => Nat.lt_succ_of_le (htwo n hn)⟩
    refine ⟨fun hbad => hrefused _ ?_, fun h hfree => hrefused _ ?_, fun c reel h hc hreel =>
      ⟨fun hclosing => hrefused _ ?_, fun hopen hlock => hrefused _ ?_⟩⟩
    · by_cases hgiven : (x.enable.isSome || x.approval.isSome) = true
      · by_cases hone : ∀ n, x.enable = some n → n < 2
        · obtain ⟨e, he⟩ := henable.1 hone
          have htwo : ¬∀ n, x.approval = some n → n < 3 := fun htwo => hbad ⟨by simpa using hgiven,
            fun n hn => Nat.le_of_lt_succ (hone n hn), fun n hn => Nat.le_of_lt_succ (htwo n hn)⟩
          simp [Floor.checkMark, hgiven, he, givenCode_unlisted Approval.ofCode_eq htwo]
        · simp [Floor.checkMark, hgiven, givenCode_unlisted Enable.ofCode_eq hone]
      · simp [Floor.checkMark, hgiven]
    · obtain ⟨hgiven, ⟨e, he⟩, a, ha⟩ := hread h
      simp [Floor.checkMark, hgiven, he, ha, Floor.resolveCue_unknown hfree]
    · obtain ⟨hgiven, ⟨e, he⟩, a, ha⟩ := hread h
      simp [Floor.checkMark, hgiven, he, ha, Floor.resolveCue_closing hc hreel hclosing]
    · obtain ⟨hgiven, ⟨e, he⟩, a, ha⟩ := hread h
      simp [Floor.checkMark, hgiven, he, ha, Floor.resolveCue_opened hc hreel hopen, require_unlocked hlock]

end Sys2Proof.Machine
end

section
/-! The reads (R43, R51, R68, R73, R101, R130, R142, R152, R156, R169, R179, R192): what each answers of the state as it
stands, and its refusals. -/

namespace Sys2Proof.Machine

/-! ## The numbers of the enumerations (R201; log 12) -/

theorem Enable.byte_code (x : Enable) : byte x.code = match x with
    | .enabled => (0 : Byte) | .muted => 1 := by cases x <;> rfl

theorem Approval.byte_code (x : Approval) : byte x.code = match x with
    | .approvalOpen => (0 : Byte) | .approvalHold => 1 | .printed => 2 := by cases x <;> rfl

theorem Lock.byte_code (x : Lock) : byte x.code = match x with
    | .unlocked => (0 : Byte) | .editing => 1 | .retiring => 2 := by cases x <;> rfl

theorem TakeOutcome.byte_code (x : TakeOutcome) : byte x.code = match x with
    | .complete => (0 : Byte) | .aborted => 1 := by cases x <;> rfl

theorem SourceChoice.byte_code (x : SourceChoice) : byte x.code = match x with
    | .choiceA => (0 : Byte) | .choiceB => 1 | .choiceC => 2 := by cases x <;> rfl

theorem TrackerState.byte_code (x : TrackerState) : byte x.code = match x with
    | .idle => (0 : Byte) | .searching => 1 | .acquiring => 2 | .locked => 3 | .freewheel => 4 := by cases x <;> rfl

theorem RunnerState.byte_code (x : RunnerState) : byte x.code = match x with
    | .offline => (0 : Byte) | .standby => 1 | .chasing => 2 | .blanked => 3 | .hold => 4 | .halted => 5 := by
  cases x <;> rfl

theorem SelectionMode.byte_code (x : SelectionMode) : byte x.code = match x with
    | .manual => (0 : Byte) | .auto => 1 := by cases x <;> rfl

theorem RecordMode.byte_code (x : RecordMode) : byte x.code = match x with
    | .rehearse => (0 : Byte) | .record => 1 := by cases x <;> rfl

theorem Phase.byte_code (x : Phase) : byte x.code = match x with
    | .armed => (0 : Byte) | .sweep => 1 | .speaking => 2 | .tail => 3 := by cases x <;> rfl

theorem Punch.byte_code (x : Punch) : byte x.code = match x with
    | .unpunched => (0 : Byte) | .waiting => 1 | .punched => 2 := by cases x <;> rfl

theorem Lamp.byte_code (x : Lamp) : byte x.code = match x with
    | .speak => (0 : Byte) | .standby => 1 | .off => 2 := by cases x <;> rfl

theorem PathState.byte_code (x : PathState) : byte x.code = match x with
    | .free => (0 : Byte) | .talk => 1 | .protected_ => 2 | .record => 3 | .gap => 4 := by cases x <;> rfl

theorem ResponseMode.byte_code (x : ResponseMode) : byte x.code = match x with
    | .halt => (0 : Byte) | .resumeSlow => 1 | .resumeFast => 2 | .report => 3 | .ignore => 4 := by cases x <;> rfl

theorem BankMode.byte_code (x : BankMode) : byte x.code = match x with
    | .dedicated => (0 : Byte) | .routed => 1 := by cases x <;> rfl

theorem Drive.byte_code (x : Drive) : byte x.code = match x with
    | .pushPull => (0 : Byte) | .openDrain => 1 := by cases x <;> rfl

theorem Polarity.byte_code (x : Polarity) : byte x.code = match x with
    | .normal => (0 : Byte) | .inverted => 1 := by cases x <;> rfl

theorem Pairing.byte_code (x : Pairing) : byte x.code = match x with
    | .even => (0 : Byte) | .odd => 1 | .unpaired => 2 := by cases x <;> rfl

theorem Electrical.byte_code (x : Electrical) : byte x.code = match x with
    | .drivenLow => (0 : Byte) | .drivenHigh => 1 | .released => 2 := by cases x <;> rfl

theorem CounterSource.byte_code (x : CounterSource) : byte x.code = match x with
    | .frames => (0 : Byte) | .lockedFrames => 1 | .speedBand => 2 | .recordFrames => 3 | .starvedFrames => 4
    | .runOccupancy => 5 | .takesComplete => 6 | .takesAborted => 7 | .jumps => 8 | .glitches => 9
    | .rateMismatches => 10 := by cases x <;> rfl

theorem byte_filterCode (x : PhaseFilter) : byte (filterCode x) = match x with
    | some .armed => (0 : Byte) | some .sweep => 1 | some .speaking => 2 | some .tail => 3 | none => 4 := by
  rcases x with _ | p
  · rfl
  · cases p <;> rfl

/-- The direction of a tracker, which only a LOCKED or FREEWHEEL one has (R101; log 13). -/
theorem Tracker.directionBytes (t : Tracker) :
    (if t.state = .locked ∨ t.state = .freewheel then [byte (directionCode t.direction)] else absent 1) =
      [match t.state, t.direction with
        | .locked, .forward => (0 : Byte) | .freewheel, .forward => 0 | .locked, .reverse => 1
        | .freewheel, .reverse => 1 | _, _ => 0xFF] := by
  cases t.state <;> cases t.direction <;> rfl

/-! ## Lists and absent values -/

theorem listBytes_singleton {α : Type} (f : α → Byte) (l : List α) :
    listBytes (fun x => [f x]) l = byte l.length :: l.map f :=
  congrArg (byte l.length :: ·) (List.flatMap_pure_eq_map f l)

theorem flagByte_isSome {α : Type} [DecidableEq α] (x : Option α) :
    flagByte x.isSome = if x = none then (0 : Byte) else 1 := by
  cases x <;> rfl

/-! ## Handover changes the link port alone -/

theorem State.handover_matrixBytes (s : State) : s.handover.matrixBytes = s.matrixBytes := by
  unfold State.handover
  split <;> rfl

/-! ## The reads of a stage -/

section StageReads

variable {s : State} {q : Request Nat} {i : Fin 4} (hs : s.Receives) (hq : readRequest none parse1 q = .ok i.val)
include hs hq

theorem exec_castRead_stage : exec (.castRead q) s = .next (s.replied Code.castRead .ok
    (s.floor.casts[i].toList.flatMap s.floor.podiumBytes ++ [flagByte (s.floor.castPending i)])) :=
  (exec_owned hs rfl hq).trans (by simp [State.ownCastRead, stageOfNat_val, hs])

theorem exec_trackerRead_stage : exec (.trackerRead q) s =
    .next (s.replied Code.trackerRead .ok (s.floor.tracker i).bytes) :=
  (exec_owned hs rfl hq).trans (by simp [State.ownTrackerRead, stageOfNat_val, hs])

theorem exec_stageRead_stage : exec (.stageRead q) s = .next (s.replied Code.stageRead .ok (s.floor.stageBytes i)) :=
  (exec_owned hs rfl hq).trans (by simp [State.ownStageRead, stageOfNat_val, hs])

theorem exec_pathRead_stage : exec (.pathRead q) s = .next (s.replied Code.pathRead .ok (s.floor.pathBytes i)) :=
  (exec_owned hs rfl hq).trans (by simp [State.ownPathRead, stageOfNat_val, hs])

theorem exec_faultRead_stage : exec (.faultRead q) s = .next (s.replied Code.faultRead .ok
    ((s.floor.faults i).bytes ++ [byte (s.floor.runner i).state.code, byte (s.floor.runner i).holdOff])) :=
  (exec_owned hs rfl hq).trans (by simp [State.ownFaultRead, stageOfNat_val, hs])

theorem exec_overlayRead_stage : exec (.overlayRead q) s =
    .next (s.replied Code.overlayRead .ok (s.floor.overlayBytes i)) :=
  (exec_owned hs rfl hq).trans (by simp [State.ownOverlayRead, stageOfNat_val, hs])

end StageReads

/-- A stage above 3 is refused by every read of a stage. -/
theorem exec_stageReads_refused {s : State} {q : Request Nat} {n : Nat} (hs : s.Receives)
    (hq : readRequest none parse1 q = .ok n) (hn : 4 ≤ n) :
    exec (.castRead q) s = .next (s.replied Code.castRead .badRequest []) ∧
    exec (.trackerRead q) s = .next (s.replied Code.trackerRead .badRequest []) ∧
    exec (.stageRead q) s = .next (s.replied Code.stageRead .badRequest []) ∧
    exec (.pathRead q) s = .next (s.replied Code.pathRead .badRequest []) ∧
    exec (.faultRead q) s = .next (s.replied Code.faultRead .badRequest []) ∧
    exec (.overlayRead q) s = .next (s.replied Code.overlayRead .badRequest []) := by
  have hnone : stageOfNat n = none := stageOfNat_none hn
  exact ⟨(exec_owned hs rfl hq).trans (by simp [State.ownCastRead, hnone, hs]),
    (exec_owned hs rfl hq).trans (by simp [State.ownTrackerRead, hnone, hs]),
    (exec_owned hs rfl hq).trans (by simp [State.ownStageRead, hnone, hs]),
    (exec_owned hs rfl hq).trans (by simp [State.ownPathRead, hnone, hs]),
    (exec_owned hs rfl hq).trans (by simp [State.ownFaultRead, hnone, hs]),
    (exec_owned hs rfl hq).trans (by simp [State.ownOverlayRead, hnone, hs])⟩

/-! ## The reads of a cue, a reel, a character -/

section StoreReads

variable {s : State} {q : Request Nat} {n : Nat} (hs : s.Receives)
include hs

theorem exec_cueRead_found (hq : readRequest none parseHandle q = .ok n) {c : Cue} (h : s.floor.resolveCue n = .ok c) :
    exec (.cueRead q) s = .next (s.replied Code.cueRead .ok (s.floor.cueBytes n c)) :=
  (exec_owned hs rfl hq).trans (by simp [State.ownCueRead, h, hs])

theorem exec_cueRead_refused (hq : readRequest none parseHandle q = .ok n) {st : Status}
    (h : s.floor.resolveCue n = .error st) : exec (.cueRead q) s = .next (s.replied Code.cueRead st []) :=
  (exec_owned hs rfl hq).trans (by simp [State.ownCueRead, h, hs])

theorem exec_reelRead_found (hq : readRequest none parse1 q = .ok n) {slot : Nat} {reel : Reel}
    (h : s.floor.resolveReel n = .ok (slot, reel)) : exec (.reelRead q) s = .next (s.replied Code.reelRead .ok
      ([byte reel.number, byte reel.rate.code] ++ reel.defaults.bytes ++ [countByte reel.order.length])) :=
  (exec_owned hs rfl hq).trans (by simp [State.ownReelRead, h, hs])

theorem exec_reelRead_refused (hq : readRequest none parse1 q = .ok n) {st : Status}
    (h : s.floor.resolveReel n = .error st) : exec (.reelRead q) s = .next (s.replied Code.reelRead st []) :=
  (exec_owned hs rfl hq).trans (by simp [State.ownReelRead, h, hs])

theorem exec_charRead_free (hq : readRequest none parse1 q = .ok n) (hn : n < 64) (h : s.floor.character n = none) :
    exec (.charRead q) s = .next (s.replied Code.charRead .ok [0]) :=
  (exec_owned hs rfl hq).trans (by simp [State.ownCharRead, Config.characterCount, hn, h, hs])

theorem exec_charRead_defined (hq : readRequest none parse1 q = .ok n) (hn : n < 64) {c : Character}
    (h : s.floor.character n = some c) : exec (.charRead q) s = .next (s.replied Code.charRead .ok
      (1 :: listBytes (fun b => [b]) c.name ++ [countByte c.useCount] ++ placeBytes (s.floor.castPlace n))) :=
  (exec_owned hs rfl hq).trans (by simp [State.ownCharRead, Config.characterCount, hn, h, hs])

theorem exec_charRead_refused (hq : readRequest none parse1 q = .ok n) (hn : 64 ≤ n) :
    exec (.charRead q) s = .next (s.replied Code.charRead .unknownCharacter []) :=
  (exec_owned hs rfl hq).trans (by simp [State.ownCharRead, Config.characterCount, Nat.not_lt.2 hn, hs])

end StoreReads

/-- Settles O30: each read's payload, byte for byte, and its refusals. -/
theorem readsAnswerAndChangeNothing : Obligations.ReadsAnswerAndChangeNothing := by
  intro s hs label pos flag nothing suffix timing stateNumber counted source
  have hsource : ∀ x : LineSource, x.bytes = source x := fun x => by cases x <;> rfl
  refine ⟨fun q h c reel hq hc hreel hopen => ?_, fun q n slot reel hq hreel => exec_reelRead_found hs hq hreel,
    fun q id hq hid hfree => exec_charRead_free hs hq hid hfree, fun q id c hq hid hc => ?_, fun q i hq => ?_,
    fun q hq => ⟨?_, ?_, ?_⟩, fun q h hq => ⟨fun hfree => exec_cueRead_refused hs hq (Floor.resolveCue_unknown hfree),
      fun c reel hc hreel hclosing => exec_cueRead_refused hs hq (Floor.resolveCue_closing hc hreel hclosing)⟩,
    fun q n hq => ⟨fun hunknown => exec_reelRead_refused hs hq (Floor.resolveReel_unknown hunknown),
      fun slot reel hfind hclosing => exec_reelRead_refused hs hq (Floor.resolveReel_closing hfind hclosing),
      fun hn => exec_charRead_refused hs hq hn, fun hn => exec_stageReads_refused hs hq hn⟩⟩
  · refine (exec_cueRead_found hs hq (Floor.resolveCue_opened hc hreel hopen)).trans (congrArg _ ?_)
    refine congrArg (s.replied Code.cueRead .ok) ?_
    have htake : orAbsent 12 (Take.bytes reel.rate) c.lastTake = match c.lastTake with
        | some t => [byte t.stage.val] ++ pos reel.rate t.punchedAt ++ pos reel.rate t.endedAt ++
            [match t.outcome with | .complete => (0 : Byte) | .aborted => 1]
        | none => nothing 12 := by
      cases c.lastTake with
      | none => rfl
      | some t => simp only [orAbsent, Take.bytes, TakeOutcome.byte_code] <;> rfl
    simp only [Floor.cueBytes, Floor.reelRate_of_reel hreel, listBytes_singleton, Enable.byte_code, Approval.byte_code,
      Lock.byte_code, Floor.reelNumberByte, Option.bind_some, hreel, htake, List.append_assoc, List.cons_append,
      List.nil_append] <;> rfl
  · refine (exec_charRead_defined hs hq hid hc).trans (congrArg _ (congrArg (s.replied Code.charRead .ok) ?_))
    simp only [listBytes_singleton, List.map_id', countByte, List.append_assoc, List.cons_append, List.nil_append]
    cases s.floor.castPlace id <;> rfl
  · intro t r p o
    refine ⟨(exec_castRead_stage hs hq).trans (congrArg _ (congrArg (s.replied Code.castRead .ok) ?_)),
      (exec_trackerRead_stage hs hq).trans (congrArg _ (congrArg (s.replied Code.trackerRead .ok) ?_)),
      (exec_stageRead_stage hs hq).trans (congrArg _ (congrArg (s.replied Code.stageRead .ok) ?_)),
      (exec_pathRead_stage hs hq).trans (congrArg _ (congrArg (s.replied Code.pathRead .ok) ?_)),
      (exec_faultRead_stage hs hq).trans (congrArg _ (congrArg (s.replied Code.faultRead .ok) ?_)),
      (exec_overlayRead_stage hs hq).trans (congrArg _ (congrArg (s.replied Code.overlayRead .ok) ?_))⟩
    · have hpodium : s.floor.podiumBytes = fun x => match x with
          | none => [(0xFF : Byte)]
          | some id => byte id :: (match s.floor.character id with
            | some c => byte c.name.length :: c.name
            | none => [0]) := funext fun x => by
        cases x with
        | none => rfl
        | some id =>
          simp only [Floor.podiumBytes, listBytes_singleton, List.map_id']
          cases s.floor.character id <;> rfl
      have hpending : flagByte (s.floor.castPending i) = if r.workingCast = s.floor.casts[i] then (0 : Byte) else 1 := by
        by_cases h : (s.floor.runner i).workingCast = s.floor.casts[i] <;> simp [Floor.castPending, flagByte, r, h]
      simp only [hpodium, hpending] <;> rfl
    · change t.bytes = _
      simp only [Tracker.bytes, TrackerSettings.bytes, Tracker.settings, Tracker.directionBytes, SourceChoice.byte_code,
        TrackerState.byte_code, List.append_assoc, List.cons_append, List.nil_append]
      cases t.acquisition with
      | none => cases t.candidate <;> rfl
      | some a => cases t.candidate <;> rfl
    · have hrun : ∀ x : Run, s.floor.runBytes t.rate x = bytes2 x.handle ++
            (match s.floor.cue x.handle with
              | some c => bytes2 c.fields.number ++ [suffix c.fields.suffix]
              | none => [0xFF, 0xFF, 0]) ++
            [match x.phase with | .armed => (0 : Byte) | .sweep => 1 | .speaking => 2 | .tail => 3,
             match x.punch with | .unpunched => (0 : Byte) | .waiting => 1 | .punched => 2] ++
            (match x.punchedAt with
              | some a => pos t.rate a
              | none => nothing 5) := fun x => by
        simp only [Floor.runBytes, Phase.byte_code, Punch.byte_code]
        cases s.floor.cue x.handle <;> cases x.punchedAt <;> rfl
      have hlist : s.floor.runBytes (s.floor.tracker i).rate = _ := funext hrun
      have hmanual : orAbsent 1 (fun n => [byte n]) (s.floor.runner i).manualReel =
          [match r.manualReel with | some n => byte n | none => 0xFF] := by
        cases r.manualReel <;> rfl
      simp only [Floor.stageBytes, listBytes, Floor.reelNumberByte, RunnerState.byte_code, SelectionMode.byte_code,
        RecordMode.byte_code, Lamp.byte_code, hlist, hmanual, List.append_assoc, List.cons_append,
        List.nil_append] <;> rfl
    · have htalk : flagByte (s.floor.talkbackPending i) = flag (decide (p.talkWanted = true ∧ p.state ≠ .talk)) := by
        refine congrArg flag (Bool.eq_iff_iff.2 ?_)
        simp [Floor.talkbackPending, Floor.talkbackGate, p]
      have hgap : orAbsent 4 (fun e => bytes4 (e - s.floor.now)) (s.floor.path i).gapExpiry =
          match p.gapExpiry with
          | some e => bytes4 (e - s.floor.now)
          | none => nothing 4 := by
        cases p.gapExpiry <;> rfl
      simp only [Floor.pathBytes, PathState.byte_code, htalk, hgap] <;> rfl
    · simp only [FaultModes.bytes, ResponseMode.byte_code, RunnerState.byte_code] <;> rfl
    · have hlast : orAbsent 4 (fun n => labelBytes (Label.ofFrame (s.floor.tracker i).rate n))
          (s.floor.overlay i).lastFrame = match o.lastFrame with
          | some n => label t.rate n
          | none => nothing 4 := by
        cases o.lastFrame <;> rfl
      simp only [Floor.overlayBytes, listBytes, flagByte_isSome, hlast, List.append_assoc, List.cons_append,
        List.nil_append] <;> rfl
  · refine (exec_owned hs rfl hq).trans (congrArg _ ?_)
    have hattention : s.floor.attention = decide (∃ k : Fin 26, s.floor.notices[k] = true ∧ s.floor.mask[k] = true) := by
      rw [Bool.eq_iff_iff]
      simp [Floor.attention]
    simp only [State.ownNoticeRead, State.handover_floor, hattention]
    exact s.handover_respond _ hs _ _
  · refine (exec_owned hs rfl hq).trans (congrArg _ ?_)
    simp only [State.ownLineRead, State.handover_matrixBytes]
    refine (s.handover_respond _ hs _ _).trans (congrArg (s.replied Code.lineRead .ok) ?_)
    have hline : s.lineBytes = fun l => source s.lines[l].source ++
        [match s.lines[l].drive with | .pushPull => (0 : Byte) | .openDrain => 1,
         match s.lines[l].polarity with | .normal => (0 : Byte) | .inverted => 1,
         match s.pairing l with | .even => (0 : Byte) | .odd => 1 | .unpaired => 2,
         flag (s.logicalLevel l),
         match s.electricalLevel l with | .drivenLow => (0 : Byte) | .drivenHigh => 1 | .released => 2] :=
      funext fun l => by
        simp only [State.lineBytes, hsource, Drive.byte_code, Polarity.byte_code, Pairing.byte_code,
          Electrical.byte_code] <;> rfl
    simp only [State.matrixBytes, hline, BankMode.byte_code] <;> rfl
  · refine (exec_owned hs rfl hq).trans (congrArg _ ?_)
    simp only [State.ownMonRead, State.handover_floor]
    refine (s.handover_respond _ hs _ _).trans (congrArg (s.replied Code.monRead .ok) ?_)
    simp only [Monitor.bytes, Counter.configBytes, Monitor.boundBytes, Monitor.freezeByte, CounterSource.byte_code,
      byte_filterCode] <;> rfl

end Sys2Proof.Machine
end

section
/-! What the rules of the stores say of the tables alone, and what each operation of the stores does to it (R22, R24, R26,
R46, R52, R66). -/

namespace Sys2Proof.Machine

/-! ## Tables as collections -/

theorem Table.keys_nodup {α : Type} {n : Nat} {t : List (Nat × α)} (h : Table.WF n t) : (t.map (·.1)).Nodup := by
  rw [Table.WF_iff] at h
  exact h.1.imp fun hlt => Nat.ne_of_lt hlt

theorem Table.perm_erase {α : Type} {k : Nat} {v : α} {t : List (Nat × α)} (hk : (t.map (·.1)).Nodup)
    (h : Table.find k t = some v) : t.Perm ((k, v) :: Table.erase k t) := by
  induction t with
  | nil => cases h
  | cons e t ih =>
    obtain ⟨hnot, hnodup⟩ := List.nodup_cons.1 hk
    obtain ⟨j, w⟩ := e
    rw [Table.find_cons] at h
    by_cases hj : j = k
    · subst hj
      rw [if_pos rfl] at h
      cases h
      have hsame : Table.erase j t = t := List.filter_eq_self.2 fun x hx => by
        have hne : x.1 ≠ j := fun heq => hnot (List.mem_map.2 ⟨x, hx, heq⟩)
        simpa using hne
      have herase : Table.erase j ((j, w) :: t) = Table.erase j t := by simp [Table.erase]
      rw [herase, hsame]
    · rw [if_neg hj] at h
      have herase : Table.erase k ((j, w) :: t) = (j, w) :: Table.erase k t := by simp [Table.erase, hj]
      rw [herase]
      exact ((ih hnodup h).cons _).trans (.swap _ _ _)

theorem Table.perm_put {α : Type} {k : Nat} (v : α) {t : List (Nat × α)} (h : Table.find k t = none) :
    (Table.put k v t).Perm ((k, v) :: t) := by
  induction t with
  | nil => exact .refl _
  | cons e t ih =>
    rw [Table.find_cons] at h
    by_cases hj : e.1 = k
    · rw [if_pos hj] at h
      cases h
    · rw [if_neg hj] at h
      simp only [Table.put]
      split
      · exact .refl _
      · exact ((ih h).cons e).trans (.swap _ _ _)

theorem Table.erase_modify {α : Type} (k : Nat) (g : α → α) (t : List (Nat × α)) :
    Table.erase k (Table.modify k g t) = Table.erase k t := by
  induction t with
  | nil => rfl
  | cons e t ih =>
    by_cases hj : e.1 = k
    · simpa [Table.erase, Table.modify, hj] using ih
    · simpa [Table.erase, Table.modify, hj] using ih

theorem Table.modify_congr {α : Type} {n k : Nat} {g g' : α → α} {v : α} {t : List (Nat × α)} (ht : Table.WF n t)
    (h : Table.find k t = some v) (hg : g v = g' v) : Table.modify k g t = Table.modify k g' t := by
  refine List.map_congr_left fun e he => ?_
  by_cases hk : e.1 = k
  · have hfind := (Table.find_eq_some_iff ht e.1 e.2).2 he
    rw [hk, h] at hfind
    cases hfind
    simp [hk, hg]
  · simp [hk]

/-! ## How many cues list a character (R66) -/

theorem Floor.cuesListing_of_perm {f : Floor} {e : Nat × Cue} {t : List (Nat × Cue)} (h : f.cues.Perm (e :: t))
    (hnodup : e.2.fields.characters.Nodup) (id : Nat) : f.cuesListing id =
      (t.countP fun e => e.2.fields.characters.contains id) + e.2.fields.characters.count id := by
  rw [Floor.cuesListing, h.countP_eq, List.countP_cons, hnodup.count]
  simp

/-- A live cue lists each of its characters. -/
theorem Floor.count_le_cuesListing {f : Floor} {h : Nat} {c : Cue} (hf : (f.cues.map (·.1)).Nodup)
    (hc : f.cue h = some c) (hnodup : c.fields.characters.Nodup) (id : Nat) :
    c.fields.characters.count id ≤ f.cuesListing id := by
  rw [Floor.cuesListing_of_perm (Table.perm_erase hf hc) hnodup]
  exact Nat.le_add_left _ _

theorem Floor.cuesListing_eq_zero_iff {f : Floor} {n : Nat} (hf : Table.WF n f.cues) (id : Nat) :
    f.cuesListing id = 0 ↔ ∀ h c, f.cue h = some c → id ∉ c.fields.characters := by
  simp only [Floor.cuesListing, List.countP_eq_zero, Floor.cue, Table.find_eq_some_iff hf]
  constructor
  · intro hnone h c hc hmem
    exact hnone (h, c) hc (by simpa using hmem)
  · rintro hnone ⟨h, c⟩ hc hmem
    exact hnone h c hc (by simpa using hmem)

/-! ## The filing of the cues -/

/-- What the rules of the stores say of the tables alone: R22, R24, R26, R46, R52, R66. -/
structure Floor.Filed (f : Floor) : Prop where
  cues : ∀ h c, f.cue h = some c → ∃ reel, f.reel c.reel = some reel ∧ c.fields.Stored reel.rate f.chars
  labels : ∀ h k c d, f.cue h = some c → f.cue k = some d → c.reel = d.reel → c.fields.number = d.fields.number →
    c.fields.suffix = d.fields.suffix → h = k
  members : ∀ slot reel, f.reel slot = some reel → ∀ h, h ∈ reel.order ↔ ∃ c, f.cue h = some c ∧ c.reel = slot
  sorted : ∀ slot reel, f.reel slot = some reel → reel.order.Pairwise f.Precedes
  reels : ∀ slot reel, f.reel slot = some reel → (1 ≤ reel.number ∧ reel.number ≤ 99) ∧ reel.defaults.InRange
  uses : ∀ id ch, f.character id = some ch → ch.useCount = f.cuesListing id

/-- What is DEFINED stays so. -/
theorem CueFields.Stored.mono {r : Rate} {chars chars' : List (Nat × Character)} {x : CueFields} (h : x.Stored r chars)
    (hd : ∀ id ∈ x.characters, (Table.find id chars).isSome = true → (Table.find id chars').isSome = true) :
    x.Stored r chars' :=
  { h with defined := fun id hid => hd id hid (h.defined id hid) }

/-- A label that no live cue of a reel holds, other than one that is named. -/
def Floor.LabelFree (f : Floor) (slot : Nat) (fields : CueFields) (besides : Option Nat) : Prop :=
  ∀ h c, f.cue h = some c → c.reel = slot → c.fields.number = fields.number → c.fields.suffix = fields.suffix →
    besides = some h

theorem Floor.labelFree_of_not_taken {f : Floor} {n : Nat} (hf : Table.WF n f.cues) {slot : Nat} {fields : CueFields}
    {besides : Option Nat} (h : f.labelTaken slot fields.number fields.suffix besides = false) :
    f.LabelFree slot fields besides := fun k c hc hslot hnumber hsuffix => by
  by_contra hne
  rw [(Floor.labelTaken_iff hf _ _ _ _).2 ⟨k, c, hc, hslot, hnumber, hsuffix, hne⟩] at h
  cases h

section Filing

variable {f : Floor}

/-- From f to g the reels, the characters, and the place and the fields of every cue stand. -/
structure Floor.SameFiling (f g : Floor) : Prop where
  reels : g.reels = f.reels
  chars : g.chars = f.chars
  cues : g.cues.map (fun e => (e.1, e.2.reel, e.2.fields)) = f.cues.map (fun e => (e.1, e.2.reel, e.2.fields))

theorem Floor.SameStore.filing {g : Floor} (e : f.SameStore g) : f.SameFiling g where
  reels := e.reels
  chars := e.chars
  cues := by
    have h := congrArg (List.map fun x : Nat × Nat × CueFields × Lock => (x.1, x.2.1, x.2.2.1)) e.cues
    rw [List.map_map, List.map_map] at h
    exact h

theorem Floor.SameFiling.symm {g : Floor} (e : f.SameFiling g) : g.SameFiling f :=
  ⟨e.reels.symm, e.chars.symm, e.cues.symm⟩

theorem Floor.modCue_filing (h : Nat) (g : Cue → Cue) (hg : ∀ c, (g c).reel = c.reel ∧ (g c).fields = c.fields) :
    f.SameFiling (f.modCue h g) where
  reels := rfl
  chars := rfl
  cues := by
    simp only [Floor.modCue, Table.modify, List.map_map]
    refine List.map_congr_left fun e _ => ?_
    simp only [Function.comp_apply]
    split
    · simp [hg]
    · rfl

theorem Floor.SameFiling.cue_some {g : Floor} (e : f.SameFiling g) {h : Nat} {c : Cue} (hc : f.cue h = some c) :
    ∃ d, g.cue h = some d ∧ d.reel = c.reel ∧ d.fields = c.fields := by
  have hmap := congrArg (Table.find h) e.cues
  rw [Table.find_map fun c : Cue => (c.reel, c.fields), Table.find_map fun c : Cue => (c.reel, c.fields),
    ← Floor.cue, ← Floor.cue, hc] at hmap
  obtain ⟨d, hd, heq⟩ := Option.map_eq_some_iff.1 hmap
  exact ⟨d, hd, congrArg Prod.fst heq, congrArg Prod.snd heq⟩

theorem Floor.SameFiling.cuesListing {g : Floor} (e : f.SameFiling g) (id : Nat) : g.cuesListing id = f.cuesListing id := by
  have h := congrArg (List.countP fun x : Nat × Nat × CueFields => x.2.2.characters.contains id) e.cues
  rw [List.countP_map, List.countP_map] at h
  exact h

theorem Floor.SameFiling.labelTaken {g : Floor} (e : f.SameFiling g) (slot number : Nat) (suffix besides : Option Nat) :
    g.labelTaken slot number suffix besides = f.labelTaken slot number suffix besides := by
  have h := congrArg (List.any · fun x : Nat × Nat × CueFields => x.2.1 == slot && x.2.2.number == number &&
    x.2.2.suffix == suffix && some x.1 != besides) e.cues
  simp only [List.any_map] at h
  exact h

theorem Floor.SameFiling.precedes {g : Floor} (e : f.SameFiling g) {h k : Nat} (hp : f.Precedes h k) : g.Precedes h k := by
  obtain ⟨c, d, hc, hd, hbefore⟩ := hp
  obtain ⟨c', hc', -, hcf⟩ := e.cue_some hc
  obtain ⟨d', hd', -, hdf⟩ := e.cue_some hd
  exact ⟨c', d', hc', hd', by rwa [hcf, hdf]⟩

theorem Floor.SameFiling.filed {g : Floor} (e : f.SameFiling g) (r : f.Filed) : g.Filed where
  cues h d hd := by
    obtain ⟨c, hc, hreel, hfields⟩ := e.symm.cue_some hd
    rw [← hreel, ← hfields, Floor.reel, e.reels, e.chars]
    exact r.cues h c hc
  labels h k a b ha hb hreel hnumber hsuffix := by
    obtain ⟨c, hc, hcr, hcf⟩ := e.symm.cue_some ha
    obtain ⟨d, hd, hdr, hdf⟩ := e.symm.cue_some hb
    exact r.labels h k c d hc hd (by rw [hcr, hdr, hreel]) (by rw [hcf, hdf, hnumber]) (by rw [hcf, hdf, hsuffix])
  members slot reel hr h := by
    rw [Floor.reel, e.reels] at hr
    rw [r.members slot reel hr h]
    constructor
    · rintro ⟨c, hc, hslot⟩
      obtain ⟨d, hd, hdr, -⟩ := e.cue_some hc
      exact ⟨d, hd, hdr.trans hslot⟩
    · rintro ⟨d, hd, hslot⟩
      obtain ⟨c, hc, hcr, -⟩ := e.symm.cue_some hd
      exact ⟨c, hc, hcr.trans hslot⟩
  sorted slot reel hr := by
    rw [Floor.reel, e.reels] at hr
    exact (r.sorted slot reel hr).imp e.precedes
  reels slot reel hr := by
    rw [Floor.reel, e.reels] at hr
    exact r.reels slot reel hr
  uses id ch hch := by
    rw [Floor.character, e.chars] at hch
    rw [e.cuesListing]
    exact r.uses id ch hch

/-- A handle stands once in an order list: a strict order has no repeats. -/
theorem Floor.Filed.order_nodup (r : f.Filed) {slot : Nat} {reel : Reel} (h : f.reel slot = some reel) :
    reel.order.Nodup :=
  (r.sorted slot reel h).imp fun {j k} ⟨c, d, hc, hd, hbefore⟩ => by
    rintro rfl
    obtain rfl : c = d := Option.some.inj (hc.symm.trans hd)
    rw [CueFields.before_iff] at hbefore
    omega

end Filing

/-! ## What an operation of the stores leaves of the reels and the characters -/

/-- What of a reel the order of its cues leaves. -/
def Reel.kept (r : Reel) : ReelState × Nat × Rate × Timing := (r.state, r.number, r.rate, r.defaults)

/-- From f to g the reels stand but for their order lists, and the same characters are DEFINED. -/
structure Floor.SameShelf (f g : Floor) : Prop where
  reels : ∀ k, (g.reel k).map Reel.kept = (f.reel k).map Reel.kept
  chars : ∀ id, (g.character id).isSome = (f.character id).isSome

section Shelf

variable {f g : Floor}

theorem Floor.SameShelf.symm (e : f.SameShelf g) : g.SameShelf f := ⟨fun k => (e.reels k).symm, fun id => (e.chars id).symm⟩

theorem Floor.SameShelf.reel_some (e : f.SameShelf g) {k : Nat} {r : Reel} (h : f.reel k = some r) :
    ∃ r', g.reel k = some r' ∧ r'.state = r.state ∧ r'.number = r.number ∧ r'.rate = r.rate ∧ r'.defaults = r.defaults := by
  have hk := e.reels k
  rw [h] at hk
  obtain ⟨r', hr', heq⟩ := Option.map_eq_some_iff.1 hk
  simp only [Reel.kept, Prod.mk.injEq] at heq
  exact ⟨r', hr', heq⟩

theorem Floor.SameShelf.openReel (e : f.SameShelf g) {slot : Nat} {rate : Rate} (h : f.OpenReel slot rate) :
    g.OpenReel slot rate := by
  obtain ⟨r, hr, hopen, rfl⟩ := h
  obtain ⟨r', hr', hs, -, hrate, -⟩ := e.reel_some hr
  exact ⟨r', hr', hs.trans hopen, hrate⟩

theorem Floor.SameShelf.stored (e : f.SameShelf g) {slot : Nat} {x : CueFields}
    (h : ∃ reel, f.reel slot = some reel ∧ x.Stored reel.rate f.chars) :
    ∃ reel, g.reel slot = some reel ∧ x.Stored reel.rate g.chars := by
  obtain ⟨r, hr, hx⟩ := h
  obtain ⟨r', hr', -, -, hrate, -⟩ := e.reel_some hr
  exact ⟨r', hr', hrate ▸ hx.mono fun id _ hid => (e.chars id).trans hid⟩

theorem Floor.SameShelf.reelRule (e : f.SameShelf g) (r : f.Filed) {slot : Nat} {reel : Reel}
    (h : g.reel slot = some reel) : (1 ≤ reel.number ∧ reel.number ≤ 99) ∧ reel.defaults.InRange := by
  obtain ⟨r', hr', -, hnumber, -, hdefaults⟩ := e.symm.reel_some h
  rw [← hnumber, ← hdefaults]
  exact r.reels slot r' hr'

theorem Floor.makeLive_shelf (handle slot : Nat) (fields : CueFields) : f.SameShelf (f.makeLive handle slot fields) where
  reels k := by
    rw [Floor.makeLive_reel]
    split
    · rw [Option.map_map]; rfl
    · rfl
  chars id := by rw [Floor.makeLive_character, Option.isSome_map]

theorem Floor.writeEdit_shelf {h : Nat} {fields : CueFields} {c : Cue} (hc : f.cue h = some c) :
    f.SameShelf (f.writeEdit h fields) where
  reels k := by
    rw [Floor.writeEdit_reel hc]
    split
    · rw [Option.map_map]; rfl
    · rfl
  chars id := by rw [Floor.writeEdit_character hc, Option.isSome_map]

theorem Floor.retireCue_shelf {h : Nat} {c : Cue} (hc : f.cue h = some c) : f.SameShelf (f.retireCue h) where
  reels k := by
    rw [Floor.retireCue_reel hc]
    split
    · rw [Option.map_map]; rfl
    · rfl
  chars id := by rw [Floor.retireCue_character hc, Option.isSome_map]

end Shelf

/-! ## A cue becomes live (R33) -/

section MakeLive

variable {f : Floor} {handle slot : Nat} {fields : CueFields} {reel : Reel}

theorem Floor.makeLive_cues_perm (hfree : f.cue handle = none) :
    (f.makeLive handle slot fields).cues.Perm ((handle, newCue slot fields) :: f.cues) := Table.perm_put _ hfree

theorem Floor.makeLive_cuesListing (hfree : f.cue handle = none) (hnodup : fields.characters.Nodup) (id : Nat) :
    (f.makeLive handle slot fields).cuesListing id = f.cuesListing id + fields.characters.count id :=
  Floor.cuesListing_of_perm (Floor.makeLive_cues_perm hfree) hnodup id

theorem Floor.Filed.makeLive (r : f.Filed) (hfree : f.cue handle = none) (hreel : f.reel slot = some reel)
    (hstored : fields.Stored reel.rate f.chars) (hlabel : f.LabelFree slot fields none) :
    (f.makeLive handle slot fields).Filed := by
  have hshelf := f.makeLive_shelf handle slot fields
  have hnew : (f.makeLive handle slot fields).cue handle = some (newCue slot fields) :=
    (f.makeLive_cue handle slot handle fields).trans (if_pos rfl)
  have hold : ∀ k, k ≠ handle → (f.makeLive handle slot fields).cue k = f.cue k := fun k hk =>
    (f.makeLive_cue handle slot k fields).trans (if_neg hk)
  have hne : ∀ {k c}, f.cue k = some c → k ≠ handle := fun hc heq => by rw [heq, hfree] at hc; cases hc
  have hcases : ∀ {k d}, (f.makeLive handle slot fields).cue k = some d →
      k = handle ∧ d = newCue slot fields ∨ k ≠ handle ∧ f.cue k = some d := fun {k d} hd => by
    by_cases hk : k = handle
    · rw [hk, hnew] at hd
      exact .inl ⟨hk, (Option.some.inj hd).symm⟩
    · exact .inr ⟨hk, (hold k hk).symm.trans hd⟩
  refine ⟨fun h d hd => ?_, fun h k c d hc hd hslot hnumber hsuffix => ?_, fun k reel' hr h => ?_, fun k reel' hr => ?_,
    fun k reel' hr => hshelf.reelRule r hr, fun id ch hch => ?_⟩
  · rcases hcases hd with ⟨-, rfl⟩ | ⟨-, hd⟩
    · exact hshelf.stored ⟨reel, hreel, hstored⟩
    · exact hshelf.stored (r.cues h d hd)
  · rcases hcases hc with ⟨rfl, rfl⟩ | ⟨-, hc⟩
    · rcases hcases hd with ⟨rfl, -⟩ | ⟨-, hd⟩
      · rfl
      · exact nomatch hlabel k d hd hslot.symm hnumber.symm hsuffix.symm
    · rcases hcases hd with ⟨-, rfl⟩ | ⟨-, hd⟩
      · exact nomatch hlabel h c hc hslot hnumber hsuffix
      · exact r.labels h k c d hc hd hslot hnumber hsuffix
  · have hmem : h ∈ reel'.order ↔ h = handle ∧ k = slot ∨ ∃ c, f.cue h = some c ∧ c.reel = k := by
      rw [Floor.makeLive_reel] at hr
      split at hr
      · next hk =>
        subst hk
        rw [hreel] at hr
        cases hr
        rw [Floor.mem_insertInOrder, r.members _ _ hreel]
        simp
      · next hk => rw [r.members _ _ hr]; simp [hk]
    rw [hmem]
    constructor
    · rintro (⟨rfl, rfl⟩ | ⟨c, hc, hslot⟩)
      · exact ⟨_, hnew, rfl⟩
      · exact ⟨c, (hold h (hne hc)).trans hc, hslot⟩
    · rintro ⟨c, hc, rfl⟩
      rcases hcases hc with ⟨rfl, rfl⟩ | ⟨-, hc⟩
      · exact .inl ⟨rfl, rfl⟩
      · exact .inr ⟨c, hc, rfl⟩
  · have hkeep : ∀ {h j}, f.Precedes h j → (f.makeLive handle slot fields).Precedes h j := fun ⟨c, d, hc, hd, hb⟩ =>
      ⟨c, d, (hold _ (hne hc)).trans hc, (hold _ (hne hd)).trans hd, hb⟩
    rw [Floor.makeLive_reel] at hr
    split at hr
    · next hk =>
      subst hk
      rw [hreel] at hr
      cases hr
      have hlive : ∀ j ∈ reel.order, ∃ d, f.cue j = some d ∧ d.reel = k := fun j hj => (r.members k reel hreel j).1 hj
      refine Floor.insertInOrder_sorted (c := newCue k fields) (r.sorted k reel hreel) (fun j hj => ?_) (fun j hj => ?_)
        hnew (fun j hj d hd => ?_) hstored.suffix
      · obtain ⟨d, hd, -⟩ := hlive j hj
        exact ⟨d, hd⟩
      · obtain ⟨d, hd, -⟩ := hlive j hj
        exact hold j (hne hd)
      · obtain ⟨d', hd', hslot⟩ := hlive j hj
        obtain rfl : d' = d := Option.some.inj (hd'.symm.trans hd)
        obtain ⟨reel', -, hd''⟩ := r.cues j d' hd'
        exact ⟨hd''.suffix, fun heq => nomatch hlabel j d' hd' hslot heq.1 heq.2⟩
    · exact (r.sorted k reel' hr).imp hkeep
  · rw [Floor.makeLive_character] at hch
    obtain ⟨c, hc, rfl⟩ := Option.map_eq_some_iff.1 hch
    rw [Floor.makeLive_cuesListing hfree hstored.listed.2.2, ← r.uses id c hc]

end MakeLive

/-! ## A cue leaves (R39, R60) -/

section RetireCue

variable {f : Floor} {h : Nat} {c : Cue}

theorem Floor.retireCue_cuesListing (hf : (f.cues.map (·.1)).Nodup) (hc : f.cue h = some c)
    (hnodup : c.fields.characters.Nodup) (id : Nat) :
    f.cuesListing id = (f.retireCue h).cuesListing id + c.fields.characters.count id := by
  have hcues : (f.retireCue h).cues = Table.erase h f.cues := by rw [Floor.retireCue_eq hc]; rfl
  rw [Floor.cuesListing_of_perm (Table.perm_erase hf hc) hnodup id, Floor.cuesListing, hcues]

theorem Floor.Filed.retireCue (r : f.Filed) (hf : (f.cues.map (·.1)).Nodup) (hc : f.cue h = some c) :
    (f.retireCue h).Filed := by
  have hshelf := f.retireCue_shelf hc
  have hback : ∀ {k d}, (f.retireCue h).cue k = some d → k ≠ h ∧ f.cue k = some d := fun {k d} hd => by
    rw [Floor.retireCue_cue hc] at hd
    split at hd
    · cases hd
    · next hk => exact ⟨hk, hd⟩
  have hkept : ∀ {k d}, k ≠ h → f.cue k = some d → (f.retireCue h).cue k = some d := fun hk hd =>
    (Floor.retireCue_cue hc _).trans ((if_neg hk).trans hd)
  have horder : ∀ {k reel}, (f.retireCue h).reel k = some reel → ∃ old, f.reel k = some old ∧
      reel.order = old.order.filter fun j => j != h := fun {k reel} hr => by
    rw [Floor.retireCue_reel hc] at hr
    split at hr
    · obtain ⟨old, hold, rfl⟩ := Option.map_eq_some_iff.1 hr
      exact ⟨old, hold, rfl⟩
    · next hk =>
      refine ⟨reel, hr, (List.filter_eq_self.2 fun j hj => ?_).symm⟩
      obtain ⟨d, hd, hslot⟩ := (r.members k reel hr j).1 hj
      have hne : j ≠ h := by
        rintro rfl
        rw [hc] at hd
        cases hd
        exact hk hslot.symm
      simpa using hne
  refine ⟨fun k d hd => hshelf.stored (r.cues k d (hback hd).2), fun k l a b ha hb => r.labels k l a b (hback ha).2
    (hback hb).2, fun k reel hr j => ?_, fun k reel hr => ?_, fun k reel hr => hshelf.reelRule r hr, fun id ch hch => ?_⟩
  · obtain ⟨old, hold, heq⟩ := horder hr
    rw [heq, List.mem_filter, r.members k old hold, bne_iff_ne]
    constructor
    · rintro ⟨⟨d, hd, hslot⟩, hne⟩
      exact ⟨d, hkept hne hd, hslot⟩
    · rintro ⟨d, hd, hslot⟩
      obtain ⟨hne, hd⟩ := hback hd
      exact ⟨⟨d, hd, hslot⟩, hne⟩
  · obtain ⟨old, hold, heq⟩ := horder hr
    rw [heq]
    refine ((r.sorted k old hold).filter _).imp_of_mem ?_
    rintro a b ha hb ⟨x, y, hx, hy, hbefore⟩
    have hne : ∀ {j}, j ∈ old.order.filter (fun j => j != h) → j ≠ h := fun hj => by simpa using (List.mem_filter.1 hj).2
    exact ⟨x, y, hkept (hne ha) hx, hkept (hne hb) hy, hbefore⟩
  · rw [Floor.retireCue_character hc] at hch
    obtain ⟨d, hd, rfl⟩ := Option.map_eq_some_iff.1 hch
    obtain ⟨_, _, hstored⟩ := r.cues h c hc
    have hlisting := Floor.retireCue_cuesListing hf hc hstored.listed.2.2 id
    have huse := r.uses id d hd
    simp only
    omega

/-- The last cue of an order list leaves as a retired one does. -/
theorem Floor.freeLast_eq_retireCue (r : f.Filed) {n slot : Nat} (hf : Table.WF n f.reels) {reel : Reel}
    (hreel : f.reel slot = some reel) (hlast : reel.order.getLast? = some h) :
    ∃ c, f.cue h = some c ∧ c.reel = slot ∧ f.freeLast slot h = f.retireCue h := by
  have hmem : h ∈ reel.order := List.mem_of_getLast? hlast
  obtain ⟨c, hc, hslot⟩ := (r.members slot reel hreel h).1 hmem
  have horder : reel.order.dropLast = reel.order.filter fun k => k != h := by
    obtain ⟨front, hfront⟩ := List.getLast?_eq_some_iff.1 hlast
    have hnodup := r.order_nodup hreel
    rw [hfront] at hnodup ⊢
    have hnot : ∀ k ∈ front, k ≠ h := fun k hk heq =>
      (List.nodup_append.1 hnodup).2.2 k hk h List.mem_cons_self heq
    rw [List.dropLast_concat, List.filter_append, List.filter_eq_self.2 fun k hk => by simpa using hnot k hk]
    simp
  have hmodify : Table.modify slot (fun r : Reel => { r with order := r.order.dropLast }) f.reels =
      Table.modify slot (fun r : Reel => { r with order := r.order.filter fun k => k != h }) f.reels :=
    Table.modify_congr hf hreel (by rw [horder])
  refine ⟨c, hc, hslot, ?_⟩
  unfold Floor.freeLast Floor.retireCue
  simp only [hc, hslot, Floor.modReel, hmodify]

end RetireCue

/-! ## An edit is written (R36) -/

section WriteEdit

variable {f : Floor} {h : Nat} {fields : CueFields} {c : Cue} {reel : Reel}

theorem count_leftOut {old new : List Nat} (ho : old.Nodup) (hn : new.Nodup) (id : Nat) :
    old.count id + (leftOut new old).count id = new.count id + (leftOut old new).count id ∧
      (leftOut old new).count id ≤ old.count id := by
  rw [leftOut, leftOut, (ho.filter _).count, (hn.filter _).count, ho.count, hn.count]
  by_cases hold : id ∈ old
  · by_cases hnew : id ∈ new <;> simp [hold, hnew]
  · by_cases hnew : id ∈ new <;> simp [hold, hnew]

theorem Floor.writeEdit_cuesListing (hf : (f.cues.map (·.1)).Nodup) (hc : f.cue h = some c)
    (hold : c.fields.characters.Nodup) (hnew : fields.characters.Nodup) (id : Nat) :
    (f.writeEdit h fields).cuesListing id + c.fields.characters.count id =
      f.cuesListing id + fields.characters.count id := by
  have hkeys : ((f.writeEdit h fields).cues.map (·.1)).Nodup := by
    rw [Floor.writeEdit_cues hc, Table.modify_keys]; exact hf
  have hcue : (f.writeEdit h fields).cue h = some { c with fields := fields, lock := .unlocked } :=
    (Floor.writeEdit_cue hc h).trans (if_pos rfl)
  rw [Floor.cuesListing_of_perm (Table.perm_erase hkeys hcue) hnew, Floor.writeEdit_cues hc, Table.erase_modify,
    Floor.cuesListing_of_perm (Table.perm_erase hf hc) hold]
  exact Nat.add_right_comm _ _ _

theorem Floor.Filed.writeEdit (r : f.Filed) (hf : (f.cues.map (·.1)).Nodup) (hc : f.cue h = some c)
    (hreel : f.reel c.reel = some reel) (hstored : fields.Stored reel.rate f.chars)
    (hlabel : f.LabelFree c.reel fields (some h)) : (f.writeEdit h fields).Filed := by
  have hshelf := f.writeEdit_shelf (fields := fields) hc
  have hnew : (f.writeEdit h fields).cue h = some { c with fields := fields, lock := .unlocked } :=
    (Floor.writeEdit_cue hc h).trans (if_pos rfl)
  have hkept : ∀ k, k ≠ h → (f.writeEdit h fields).cue k = f.cue k := fun k hk =>
    (Floor.writeEdit_cue hc k).trans (if_neg hk)
  have hcases : ∀ {k d}, (f.writeEdit h fields).cue k = some d →
      k = h ∧ d.reel = c.reel ∧ d.fields = fields ∨ k ≠ h ∧ f.cue k = some d := fun {k d} hd => by
    by_cases hk : k = h
    · rw [hk, hnew] at hd
      cases hd
      exact .inl ⟨hk, rfl, rfl⟩
    · exact .inr ⟨hk, (hkept k hk).symm.trans hd⟩
  have hlive : ∀ k slot, (∃ d, (f.writeEdit h fields).cue k = some d ∧ d.reel = slot) ↔
      ∃ d, f.cue k = some d ∧ d.reel = slot := fun k slot => by
    by_cases hk : k = h
    · rw [hk, hnew, hc]; simp
    · rw [hkept k hk]
  refine ⟨fun k d hd => ?_, fun k l a b ha hb hslot hnumber hsuffix => ?_, fun k reel' hr j => ?_, fun k reel' hr => ?_,
    fun k reel' hr => hshelf.reelRule r hr, fun id ch hch => ?_⟩
  · rcases hcases hd with ⟨-, hdr, hdf⟩ | ⟨-, hd⟩
    · rw [hdr, hdf]; exact hshelf.stored ⟨reel, hreel, hstored⟩
    · exact hshelf.stored (r.cues k d hd)
  · rcases hcases ha with ⟨hk, har, haf⟩ | ⟨-, ha'⟩
    · rcases hcases hb with ⟨hl, -⟩ | ⟨-, hb'⟩
      · exact hk.trans hl.symm
      · rw [haf] at hnumber hsuffix
        exact hk.trans (Option.some.inj (hlabel l b hb' (hslot.symm.trans har) hnumber.symm hsuffix.symm))
    · rcases hcases hb with ⟨hl, hbr, hbf⟩ | ⟨-, hb'⟩
      · rw [hbf] at hnumber hsuffix
        exact (Option.some.inj (hlabel k a ha' (hslot.trans hbr) hnumber hsuffix)).symm.trans hl.symm
      · exact r.labels k l a b ha' hb' hslot hnumber hsuffix
  · rw [hlive]
    rw [Floor.writeEdit_reel hc] at hr
    split at hr
    · next hk =>
      obtain ⟨rfl, -⟩ := hk
      rw [hreel] at hr
      cases hr
      rw [Floor.mem_insertInOrder, List.mem_filter, bne_iff_ne, r.members _ _ hreel]
      by_cases hj : j = h
      · simp [hj, hc]
      · simp [hj]
    · exact r.members k reel' hr j
  · rw [Floor.writeEdit_reel hc] at hr
    split at hr
    · next hk =>
      obtain ⟨rfl, -⟩ := hk
      rw [hreel] at hr
      cases hr
      have hmem : ∀ j ∈ reel.order.filter (fun j => j != h), j ≠ h ∧ ∃ d, f.cue j = some d ∧ d.reel = c.reel :=
        fun j hj => ⟨by simpa using (List.mem_filter.1 hj).2, (r.members _ reel hreel j).1 (List.mem_filter.1 hj).1⟩
      refine Floor.insertInOrder_sorted (c := { c with fields := fields, lock := .unlocked })
        ((r.sorted _ reel hreel).filter _) (fun j hj => ?_) (fun j hj => hkept j (hmem j hj).1) hnew
        (fun j hj d hd => ?_) hstored.suffix
      · obtain ⟨-, d, hd, -⟩ := hmem j hj
        exact ⟨d, hd⟩
      · obtain ⟨hne, d', hd', hslot⟩ := hmem j hj
        obtain rfl : d' = d := Option.some.inj (hd'.symm.trans hd)
        obtain ⟨reel', -, hd''⟩ := r.cues j d' hd'
        exact ⟨hd''.suffix, fun heq => hne (Option.some.inj (hlabel j d' hd' hslot heq.1 heq.2)).symm⟩
    · next hk =>
      refine (r.sorted k reel' hr).imp_of_mem ?_
      rintro a b ha hb ⟨x, y, hx, hy, hbefore⟩
      have hplace : ∀ {j d}, j ∈ reel'.order → f.cue j = some d →
          ∃ d', (f.writeEdit h fields).cue j = some d' ∧ d.fields.samePlace d'.fields = true := fun {j d} hj hd => by
        by_cases hjh : j = h
        · subst hjh
          rw [hc] at hd
          cases hd
          obtain ⟨c', hc', hslot⟩ := (r.members k reel' hr j).1 hj
          rw [hc] at hc'
          cases hc'
          have hsame : ¬c.fields.samePlace fields = false := fun hfalse => hk ⟨hslot.symm, hfalse⟩
          exact ⟨_, hnew, by simpa using hsame⟩
        · exact ⟨d, (hkept j hjh).trans hd, (CueFields.samePlace_iff _ _).2 ⟨rfl, rfl, rfl⟩⟩
      obtain ⟨x', hx', hxs⟩ := hplace ha hx
      obtain ⟨y', hy', hys⟩ := hplace hb hy
      exact ⟨x', y', hx', hy', by rwa [← CueFields.before_congr hxs hys]⟩
  · rw [Floor.writeEdit_character hc] at hch
    obtain ⟨d, hd, rfl⟩ := Option.map_eq_some_iff.1 hch
    obtain ⟨_, _, hold⟩ := r.cues h c hc
    have hlisting := Floor.writeEdit_cuesListing hf hc hold.listed.2.2 hstored.listed.2.2 id
    have hin := Floor.count_le_cuesListing hf hc hold.listed.2.2 id
    obtain ⟨hmoved, hout⟩ := count_leftOut hold.listed.2.2 hstored.listed.2.2 id
    have huse := r.uses id d hd
    simp only
    omega

end WriteEdit

end Sys2Proof.Machine
end

section
/-! The rules of the stores under every change of the books (R24, R26, R28, R29, R40, R46, R52, R58, R66). -/

namespace Sys2Proof.Machine

/-! ## Reels and characters -/

section Tables

variable {f : Floor}

/-- A change of the characters that leaves the listed ones DEFINED, with use counts that the cues bear out. -/
theorem Floor.Filed.modChars (r : f.Filed) {chars : List (Nat × Character)}
    (hd : ∀ h c, f.cue h = some c → ∀ id ∈ c.fields.characters, (f.character id).isSome = true →
      (Table.find id chars).isSome = true)
    (hu : ∀ id ch, Table.find id chars = some ch → ch.useCount = f.cuesListing id) :
    ({ f with chars := chars } : Floor).Filed where
  cues h c hc := by
    obtain ⟨reel, hreel, hstored⟩ := r.cues h c hc
    exact ⟨reel, hreel, hstored.mono (hd h c hc)⟩
  labels := r.labels
  members := r.members
  sorted := r.sorted
  reels := r.reels
  uses := hu

/-- A character that no cue lists is the one that nothing uses (R67). -/
theorem Floor.Filed.unlisted (r : f.Filed) {n : Nat} (hf : Table.WF n f.cues) {id : Nat}
    (h : ∀ ch, f.character id = some ch → ch.useCount = 0) : f.cuesListing id = 0 := by
  cases hch : f.character id with
  | some ch => rw [← r.uses id ch hch, h ch hch]
  | none =>
    refine (Floor.cuesListing_eq_zero_iff hf id).2 fun k c hc hmem => ?_
    obtain ⟨_, _, hstored⟩ := r.cues k c hc
    have hdef := hstored.defined id hmem
    rw [← Floor.character, hch] at hdef
    cases hdef

theorem Floor.Filed.charDefined (r : f.Filed) {n : Nat} (hf : Table.WF n f.cues) {id : Nat} {name : List Byte}
    (hfree : f.character id = none) :
    ({ f with chars := Table.put id { name := name, useCount := 0 } f.chars } : Floor).Filed := by
  refine r.modChars (fun h c _ k _ hk => ?_) fun k ch hk => ?_
  · by_cases heq : k = id
    · simp [heq]
    · rwa [Table.find_put_other heq]
  · by_cases heq : k = id
    · subst heq
      rw [Table.find_put_self] at hk
      cases hk
      exact (r.unlisted hf fun ch hch => by rw [hfree] at hch; cases hch).symm
    · rw [Table.find_put_other heq] at hk
      exact r.uses k ch hk

theorem Floor.Filed.charRenamed (r : f.Filed) (id : Nat) (name : List Byte) :
    ({ f with chars := Table.modify id (fun c => { c with name := name }) f.chars } : Floor).Filed := by
  refine r.modChars (fun h c _ k _ hk => ?_) fun k ch hk => ?_
  · rw [Table.find_modify]
    split
    · rwa [Option.isSome_map]
    · exact hk
  · rw [Table.find_modify] at hk
    split at hk
    · obtain ⟨old, hold, rfl⟩ := Option.map_eq_some_iff.1 hk
      exact r.uses k old hold
    · exact r.uses k ch hk

theorem Floor.Filed.charRetired (r : f.Filed) {n : Nat} (hf : Table.WF n f.cues) {id : Nat} {c : Character}
    (hc : f.character id = some c) (hunused : c.useCount = 0) :
    ({ f with chars := Table.erase id f.chars } : Floor).Filed := by
  have hnone := (Floor.cuesListing_eq_zero_iff hf id).1
    (r.unlisted hf fun ch hch => by rw [hc] at hch; cases hch; exact hunused)
  refine r.modChars (fun h c hc k hmem hk => ?_) fun k ch hk => ?_
  · have hne : k ≠ id := fun heq => hnone h c hc (heq ▸ hmem)
    rwa [Table.find_erase_other hne]
  · by_cases heq : k = id
    · rw [heq, Table.find_erase_self] at hk
      cases hk
    · rw [Table.find_erase_other heq] at hk
      exact r.uses k ch hk

/-- A change of one reel that leaves its order list, with a rate at which its cues are stored. -/
theorem Floor.Filed.modReel (r : f.Filed) {slot : Nat} {g : Reel → Reel} (ho : ∀ x, (g x).order = x.order)
    (hn : ∀ x, (g x).number = x.number) (hd : ∀ x : Reel, x.defaults.InRange → (g x).defaults.InRange)
    (hr : ∀ x, f.reel slot = some x → x.order ≠ [] → (g x).rate = x.rate) : (f.modReel slot g).Filed := by
  have hreel : ∀ k, (f.modReel slot g).reel k = if k = slot then (f.reel k).map g else f.reel k := fun k =>
    Table.find_modify k slot g f.reels
  have hcases : ∀ {k reel}, (f.modReel slot g).reel k = some reel → ∃ old, f.reel k = some old ∧
      reel.order = old.order ∧ reel.number = old.number ∧ (old.defaults.InRange → reel.defaults.InRange) :=
    fun {k reel} h => by
    rw [hreel] at h
    split at h
    · obtain ⟨old, hold, rfl⟩ := Option.map_eq_some_iff.1 h
      exact ⟨old, hold, ho old, hn old, hd old⟩
    · exact ⟨reel, h, rfl, rfl, id⟩
  refine ⟨fun h c hc => ?_, r.labels, fun k reel h => ?_, fun k reel h => ?_, fun k reel h => ?_, r.uses⟩
  · obtain ⟨old, hold, hstored⟩ := r.cues h c hc
    by_cases hslot : c.reel = slot
    · have hne : old.order ≠ [] := List.ne_nil_of_mem ((r.members c.reel old hold h).2 ⟨c, hc, rfl⟩)
      refine ⟨g old, ?_, ?_⟩
      · rw [hreel, if_pos hslot, hold]; rfl
      · rw [hr old (hslot ▸ hold) hne]; exact hstored
    · exact ⟨old, by rw [hreel, if_neg hslot, hold], hstored⟩
  · obtain ⟨old, hold, horder, -, -⟩ := hcases h
    rw [horder]
    exact r.members k old hold
  · obtain ⟨old, hold, horder, -, -⟩ := hcases h
    rw [horder]
    exact r.sorted k old hold
  · obtain ⟨old, hold, -, hnumber, hdefaults⟩ := hcases h
    obtain ⟨hn, hd⟩ := r.reels k old hold
    exact ⟨hnumber ▸ hn, hdefaults hd⟩

theorem Timing.fitted_inRange (t : Timing) : t.fitted.InRange := by
  obtain ⟨lead, beepCount, spacing, length, preRoll, punchIn, punchOut, -⟩ := fittedTimingLiesInRange.2 t
  exact ⟨lead, beepCount, spacing, ⟨length.1, by omega, by omega⟩, preRoll, ⟨by omega, by omega⟩, punchOut⟩

theorem derivedDefaults_inRange (r : Rate) : (derivedDefaults r.base).InRange := by
  cases r <;> constructor <;> decide

/-- A slot that holds no reel is that of no cue (R22). -/
theorem Floor.Filed.openReel (r : f.Filed) {number : Nat} {rate : Rate} {n : Nat} (hf : Table.WF n f.reels)
    (hlo : 1 ≤ number) (hhi : number ≤ 99) : (f.openReel number rate).Filed := by
  have hfree := (Table.lowestFree_spec hf).1
  have hreel : ∀ k, (f.openReel number rate).reel k =
      if k = Table.lowestFree f.reels then some (newReel number rate) else f.reel k := fun k => by
    by_cases hk : k = Table.lowestFree f.reels
    · rw [if_pos hk, hk]; exact Table.find_put_self _ _ _
    · rw [if_neg hk]; exact Table.find_put_other hk _ _
  have hcue : ∀ {h c}, f.cue h = some c → c.reel ≠ Table.lowestFree f.reels := fun {h c} hc heq => by
    obtain ⟨reel, hr, -⟩ := r.cues h c hc
    rw [heq, Floor.reel, hfree] at hr
    cases hr
  have hcases : ∀ {k reel}, (f.openReel number rate).reel k = some reel →
      k = Table.lowestFree f.reels ∧ reel = newReel number rate ∨ f.reel k = some reel := fun {k reel} h => by
    rw [hreel] at h
    split at h
    · next hk => exact .inl ⟨hk, (Option.some.inj h).symm⟩
    · exact .inr h
  refine ⟨fun h c hc => ?_, r.labels, fun k reel h j => ?_, fun k reel h => ?_, fun k reel h => ?_, r.uses⟩
  · obtain ⟨reel, hr, hstored⟩ := r.cues h c hc
    exact ⟨reel, by rw [hreel, if_neg (hcue hc), hr], hstored⟩
  · rcases hcases h with ⟨rfl, rfl⟩ | h
    · have hnone : ¬∃ c, f.cue j = some c ∧ c.reel = Table.lowestFree f.reels := fun ⟨c, hc, heq⟩ => hcue hc heq
      exact ⟨fun hmem => (nomatch hmem), fun hmem => absurd hmem hnone⟩
    · exact r.members k reel h j
  · rcases hcases h with ⟨-, rfl⟩ | h
    · exact .nil
    · exact r.sorted k reel h
  · rcases hcases h with ⟨-, rfl⟩ | h
    · exact ⟨⟨hlo, hhi⟩, derivedDefaults_inRange rate⟩
    · exact r.reels k reel h

/-- A reel without cues leaves no cue behind (R61). -/
theorem Floor.Filed.endClosure (r : f.Filed) {slot : Nat} {reel : Reel} (hreel : f.reel slot = some reel)
    (hempty : reel.order = []) : (f.endClosure slot).Filed := by
  have hcue : ∀ {h c}, f.cue h = some c → c.reel ≠ slot := fun {h c} hc heq => by
    have hmem := (r.members slot reel hreel h).2 ⟨c, hc, heq⟩
    rw [hempty] at hmem
    cases hmem
  have hback : ∀ {k reel}, (f.endClosure slot).reel k = some reel → f.reel k = some reel := fun {k reel} h => by
    have h : Table.find k (Table.erase slot f.reels) = some reel := h
    by_cases hk : k = slot
    · rw [hk, Table.find_erase_self] at h
      cases h
    · rwa [Table.find_erase_other hk] at h
  refine ⟨fun h c hc => ?_, r.labels, fun k reel h => r.members k reel (hback h), fun k reel h => r.sorted k reel (hback h),
    fun k reel h => r.reels k reel (hback h), r.uses⟩
  obtain ⟨reel, hr, hstored⟩ := r.cues h c hc
  exact ⟨reel, (Table.find_erase_other (hcue hc) f.reels).trans hr, hstored⟩

end Tables

/-! ## The run lists -/

/-- What the rules of the stores say of the run lists: R40, R106, R115. -/
structure Floor.RunsNamed (f : Floor) : Prop where
  runs : ∀ i, ((f.runner i).runs.map Run.handle).Nodup ∧ ∀ r ∈ (f.runner i).runs,
    ∃ c rate, f.cue r.handle = some c ∧ (f.runner i).selected = some c.reel ∧ f.OpenReel c.reel rate
  inFlight : ∀ h c, f.cue h = some c → c.inFlight = f.runsNaming h

section Runs

variable {f g : Floor}

/-- The cue that a run names. -/
theorem Floor.RunsNamed.named (n : f.RunsNamed) {i : Fin 4} {h : Nat} (hm : h ∈ f.handles i) :
    ∃ c rate, f.cue h = some c ∧ (f.runner i).selected = some c.reel ∧ f.OpenReel c.reel rate := by
  obtain ⟨r, hr, rfl⟩ := List.mem_map.1 hm
  exact (n.runs i).2 r hr

/-- A change that leaves the run lists, what the stages with runs have selected, and the cues that the runs name. -/
theorem Floor.RunsNamed.keep (n : f.RunsNamed) (hruns : ∀ i, (g.runner i).runs = (f.runner i).runs)
    (hselected : ∀ i slot rate, (f.runner i).selected = some slot → f.OpenReel slot rate →
      (g.runner i).selected = some slot)
    (hcue : ∀ h c rate, f.cue h = some c → f.OpenReel c.reel rate → ∃ d, g.cue h = some d ∧ d.reel = c.reel)
    (hopen : ∀ slot rate, f.OpenReel slot rate → ∃ rate', g.OpenReel slot rate')
    (hflight : ∀ h d, g.cue h = some d → d.inFlight = f.runsNaming h) : g.RunsNamed where
  runs i := by
    rw [hruns]
    refine ⟨(n.runs i).1, fun r hr => ?_⟩
    obtain ⟨c, rate, hc, hsel, ho⟩ := (n.runs i).2 r hr
    obtain ⟨d, hd, hslot⟩ := hcue _ _ _ hc ho
    obtain ⟨rate', ho'⟩ := hopen _ _ ho
    rw [← hslot] at ho' hsel ho
    exact ⟨d, rate', hd, hselected i _ _ hsel ho, ho'⟩
  inFlight h d hd := by
    rw [hflight h d hd]
    exact (Floor.runsNaming_congr (fun i => by rw [Floor.handles, hruns i]; rfl) h).symm

/-- A cue that no run can name: one that is not live, or whose reel is not OPEN. -/
theorem Floor.RunsNamed.unnamed (n : f.RunsNamed) {h : Nat}
    (hno : ∀ c rate, f.cue h = some c → ¬f.OpenReel c.reel rate) : f.runsNaming h = 0 :=
  (f.runsNaming_eq_zero_iff h).2 fun _ hm => by
    obtain ⟨c, rate, hc, -, ho⟩ := n.named hm
    exact hno c rate hc ho

/-- A stage may have runs of the cues of an OPEN reel that it has selected (R106, R115). -/
def Floor.mayRun (f : Floor) (_ : Fin 4) (selected : Option Nat) (slot : Nat) : Prop :=
  selected = some slot ∧ ∃ rate, f.OpenReel slot rate

/-- The rules say of the run lists what the ledger carries through the events of the stages. -/
theorem Floor.RunsNamed.ledger (n : f.RunsNamed) (r : f.Filed)
    (hworking : ∀ i, f.handles i ≠ [] → (f.runner i).state.working = true) {idle : Nat → Prop}
    (hidle : ∀ h, idle h → f.runsNaming h = 0 ∧ ∀ c, f.cue h = some c → c.lock ≠ .unlocked) :
    f.RunLedger idle f.mayRun where
  members slot reel hreel h hm := (r.members slot reel hreel h).1 hm
  opened slot reel hreel ho _ := ⟨rfl, reel.rate, reel, hreel, ho, rfl⟩
  working := hworking
  once i := (n.runs i).1
  named i h hm := by
    obtain ⟨c, rate, hc, hsel, ho⟩ := n.named hm
    exact ⟨c, hc, hsel, rate, ho⟩
  inFlight := n.inFlight
  idle := hidle

theorem Floor.RunLedger.runsNamed {idle : Nat → Prop} {live : Fin 4 → Option Nat → Nat → Prop} (l : g.RunLedger idle live)
    (hlive : ∀ i slot, g.handles i ≠ [] → live i (g.runner i).selected slot →
      (g.runner i).selected = some slot ∧ ∃ rate, g.OpenReel slot rate) : g.RunsNamed where
  runs i := by
    refine ⟨l.once i, fun r hr => ?_⟩
    have hm : r.handle ∈ g.handles i := List.mem_map_of_mem hr
    obtain ⟨c, hc, hl⟩ := l.named i r.handle hm
    obtain ⟨hsel, rate, ho⟩ := hlive i c.reel (List.ne_nil_of_mem hm) hl
    exact ⟨c, rate, hc, hsel, ho⟩
  inFlight := l.inFlight

theorem Floor.SameStore.openReel (e : f.SameStore g) {slot : Nat} {rate : Rate} (h : f.OpenReel slot rate) :
    g.OpenReel slot rate := by
  rw [Floor.OpenReel, Floor.reel, e.reels]
  exact h

/-- The run lists while the stages work. -/
theorem Floor.RunLedger.runsNamed_works {idle : Nat → Prop} (e : f.SameStore g) (l : g.RunLedger idle f.mayRun) :
    g.RunsNamed :=
  l.runsNamed fun _ _ _ ⟨hsel, rate, ho⟩ => ⟨hsel, rate, e.openReel ho⟩

end Runs

/-! ## The checks of a creation and of an edit -/

theorem positionValue_le_dayEnd {r : Rate} {p : PositionField} {v : Nat} (h : positionValue r p = some v) :
    v ≤ r.dayEnd := by
  by_cases hp : (fieldLabel p).isValid r = true ∧ p.subframe ≤ 63
  · rw [positionValue_valid hp.1 hp.2] at h
    cases h
    have hlt := Label.frameIndex_lt r (fieldLabel p) hp.1
    rw [Rate.dayEnd]
    omega
  · rw [positionValue_invalid hp] at h
    cases h

theorem checkSpan_eq_ok {i o out : Nat} (h : checkSpan i o = .ok out) : i < out ∧ out ≤ i + 460800 ∧ out ≤ o := by
  by_cases hlt : i < o
  · rw [checkSpan_ok hlt] at h
    cases h
    omega
  · rw [checkSpan_bad (Nat.not_lt.1 hlt)] at h
    cases h

theorem suffixOf_isSuffix {n : Nat} {x : Option Nat} (h : suffixOf n = some x) : IsSuffix x := by
  unfold suffixOf at h
  rintro c rfl
  split at h
  · cases h
  · split at h
    · next hc => cases h; exact hc
    · cases h

theorem Floor.checkCharacters_eq_ok {f : Floor} {ids : List Nat} {u : Unit} (h : f.checkCharacters ids = .ok u) :
    (1 ≤ ids.length ∧ ids.length ≤ 4 ∧ ids.Nodup) ∧ ∀ id ∈ ids, (Table.find id f.chars).isSome = true := by
  by_cases hlist : 1 ≤ ids.length ∧ ids.length ≤ 4 ∧ ids.Nodup
  · refine ⟨hlist, ?_⟩
    by_cases hdef : ∀ id ∈ ids, id < 64 ∧ (f.character id).isSome = true
    · exact fun id hid => (hdef id hid).2
    · rw [Floor.checkCharacters_unknown hlist hdef] at h
      cases h
  · rw [Floor.checkCharacters_bad hlist] at h
    cases h

theorem Floor.resolveReel_reel {f : Floor} {n m slot : Nat} {reel : Reel} (hf : Table.WF n f.reels)
    (h : f.resolveReel m = .ok (slot, reel)) : f.reel slot = some reel ∧ reel.state = .reelOpened :=
  have ⟨hfind, hopen⟩ := (f.resolveReel_eq_ok_iff m slot reel).1 h
  ⟨(Table.find_eq_some_iff hf slot reel).2 (List.mem_of_find?_eq_some hfind), hopen⟩

/-- An accepted creation holds a record that can be stored, on an OPEN reel, with a free label (R28, R31). -/
theorem Floor.checkCreate_creates {f : Floor} {n : Nat} (hf : Table.WF n f.reels) (x : CueCreateFields) :
    Yields (fun op => ∃ slot fields st reel, op = .create slot fields st ∧ f.reel slot = some reel ∧
      reel.state = .reelOpened ∧ fields.Stored reel.rate f.chars ∧
      f.labelTaken slot fields.number fields.suffix none = false) (f.checkCreate x) := by
  refine .bind fun _ hnumber => .bind fun suffix hsuffix => .bind fun e hreel => .bind fun _ hlisted =>
    .bind fun i hi => .bind fun o ho => .bind fun out hout => .bind fun _ hlabel => .bind fun _ _ => .pure ?_
  obtain ⟨slot, reel⟩ := e
  obtain ⟨hfound, hopen⟩ := Floor.resolveReel_reel hf hreel
  obtain ⟨hlist, hdef⟩ := Floor.checkCharacters_eq_ok hlisted
  obtain ⟨hlt, hspan, hle⟩ := checkSpan_eq_ok hout
  have hend := positionValue_le_dayEnd (orElse_eq_ok ho)
  exact ⟨slot, _, _, reel, rfl, hfound, hopen, ⟨(numberOk_iff _).1 (require_eq_ok hnumber),
    suffixOf_isSuffix (orElse_eq_ok hsuffix), hlist, hdef, ⟨hlt, hspan, hle.trans hend⟩, Timing.fitted_inRange _⟩,
    by simpa using require_eq_ok hlabel⟩

/-- A position of an edit lies in the day where the stored one does (R35). -/
theorem givenPosition_le {r : Rate} {given : Option PositionField} {stored v : Nat} (hs : stored ≤ r.dayEnd)
    (h : givenPosition r given stored = .ok v) : v ≤ r.dayEnd := by
  cases given with
  | none => cases h; exact hs
  | some p => exact positionValue_le_dayEnd (orElse_eq_ok h)

/-- An accepted edit holds a record that can be stored in the place of its cue (R28, R35). -/
theorem Floor.checkEdit_stores {f : Floor} {n : Nat} (r : f.Filed) (hf : Table.WF n f.cues) (x : CueEditFields) :
    Yields (fun op => ∃ fields st c reel, op = .edit x.handle fields st ∧ f.cue x.handle = some c ∧
      f.reel c.reel = some reel ∧ reel.state = .reelOpened ∧ c.lock = .unlocked ∧ fields.Stored reel.rate f.chars ∧
      f.labelTaken c.reel fields.number fields.suffix (some x.handle) = false) (f.checkEdit x) := by
  rw [Floor.checkEdit_eq]
  refine .bind fun _ hplain => .bind fun c hcue => .bind fun _ hlock => .bind fun _ _ => .bind fun _ hlisted =>
    .bind fun i hi => .bind fun o ho => .bind fun out hout => .bind fun suffix hsuffix => .bind fun _ hlabel => .pure ?_
  obtain ⟨hc, hopen⟩ := (f.resolveCue_eq_ok_iff _ _).1 hcue
  obtain ⟨reel, hreel, hstored⟩ := r.cues _ _ hc
  rw [Floor.reelRate_of_reel hreel] at hi ho
  obtain ⟨-, hnumber, -⟩ := (editPlain_iff x).1 (require_eq_ok hplain)
  have hspan : i < out ∧ out ≤ i + 460800 ∧ out ≤ o := by
    unfold editSpan at hout
    split at hout
    · exact checkSpan_eq_ok hout
    · next hnone =>
      obtain ⟨hin, hout'⟩ : x.inPos = none ∧ x.outPos = none := by simpa using hnone
      rw [hin] at hi
      rw [hout'] at ho
      cases hi
      cases ho
      cases hout
      exact ⟨hstored.span.1, hstored.span.2.1, Nat.le_refl _⟩
  have hend := givenPosition_le hstored.span.2.2 ho
  have hletter : IsSuffix suffix := by
    cases hx : x.suffix with
    | none =>
      rw [hx] at hsuffix
      cases hsuffix
      exact hstored.suffix
    | some m =>
      rw [hx] at hsuffix
      exact suffixOf_isSuffix (orElse_eq_ok hsuffix)
  have hcharacters : (1 ≤ (x.characters.getD c.fields.characters).length ∧
      (x.characters.getD c.fields.characters).length ≤ 4 ∧ (x.characters.getD c.fields.characters).Nodup) ∧
      ∀ id ∈ x.characters.getD c.fields.characters, (Table.find id f.chars).isSome = true := by
    cases hx : x.characters with
    | none => exact ⟨hstored.listed, hstored.defined⟩
    | some ids =>
      rw [hx] at hlisted
      exact Floor.checkCharacters_eq_ok hlisted
  have hfree : f.labelTaken c.reel (x.number.getD c.fields.number) suffix (some x.handle) = false := by
    by_cases hgiven : (x.number.isSome || x.suffix.isSome) = true
    · simpa [hgiven] using require_eq_ok hlabel
    · obtain ⟨hn, hs⟩ : x.number = none ∧ x.suffix = none := by simpa using hgiven
      rw [hs] at hsuffix
      cases hsuffix
      rw [← Bool.not_eq_true, Floor.labelTaken_iff hf, hn]
      rintro ⟨k, d, hd, hslot, hdn, hds, hne⟩
      exact hne (congrArg some (r.labels x.handle k c d hc hd hslot.symm hdn.symm hds.symm))
  refine ⟨_, _, c, reel, rfl, hc, hreel, hopen reel hreel, by simpa using require_eq_ok hlock, ⟨?_, hletter, hcharacters.1,
    hcharacters.2, ⟨hspan.1, hspan.2.1, hspan.2.2.trans hend⟩, Timing.fitted_inRange _⟩, hfree⟩
  cases hx : x.number with
  | none => exact hstored.number
  | some m => exact hnumber m hx

end Sys2Proof.Machine
end

section
/-! The rules of the stores under every step: the tables, the run lists and the maintenance unit together (R22, R24, R26,
R28, R29, R40, R46, R52, R58, R66, R106, R115). -/

namespace Sys2Proof.Machine

/-! ## The maintenance unit -/

/-- What the rules of the stores say of the maintenance unit: R28, R29, R40, R58. -/
structure Books.Maintained (b : Books) : Prop where
  locks : ∀ h c, b.floor.cue h = some c →
    (c.lock = .editing ↔ ∃ fields st, b.operation = some (.edit h fields st)) ∧
    (c.lock = .retiring ↔ ∃ st, b.operation = some (.retire h st))
  creating : ∀ slot fields st, b.operation = some (.create slot fields st) → ∃ rate, b.floor.OpenReel slot rate ∧
    fields.Stored rate b.floor.chars ∧ b.floor.labelTaken slot fields.number fields.suffix none = false
  editing : ∀ h fields st, b.operation = some (.edit h fields st) → ∃ c rate, b.floor.cue h = some c ∧
    b.floor.OpenReel c.reel rate ∧ fields.Stored rate b.floor.chars ∧
    b.floor.labelTaken c.reel fields.number fields.suffix (some h) = false
  retiring : ∀ h st, b.operation = some (.retire h st) → ∃ c rate, b.floor.cue h = some c ∧
    b.floor.OpenReel c.reel rate ∧ c.inFlight = 0
  closing : ∀ slot, b.closure = some slot → ∃ reel, b.floor.reel slot = some reel ∧ reel.state = .reelClosing

/-- The rules of the stores, in their three parts. -/
structure Books.Rules (b : Books) : Prop where
  filed : b.floor.Filed
  named : b.floor.RunsNamed
  unit : b.Maintained

theorem State.storeRules_iff (s : State) : s.StoreRules ↔ s.books.Rules :=
  ⟨fun h => ⟨⟨h.cues, h.labels, h.members, h.sorted, h.reels, h.uses⟩, ⟨h.runs, h.inFlight⟩,
      ⟨h.locks, h.creating, h.editing, h.retiring, h.closing⟩⟩,
    fun ⟨f, n, u⟩ => ⟨f.cues, f.labels, f.members, f.sorted, f.reels, f.uses, n.runs, n.inFlight, u.locks, u.creating,
      u.editing, u.retiring, u.closing⟩⟩

section Unit

variable {b : Books} {g : Floor}

/-- A cue that the operation in progress does not name is unlocked (R29). -/
theorem Books.Maintained.unlocked (m : b.Maintained) {h : Nat} {c : Cue} (hc : b.floor.cue h = some c)
    (he : ∀ fields st, b.operation ≠ some (.edit h fields st)) (hr : ∀ st, b.operation ≠ some (.retire h st)) :
    c.lock = .unlocked := by
  obtain ⟨hediting, hretiring⟩ := m.locks h c hc
  cases hl : c.lock with
  | unlocked => rfl
  | editing =>
    obtain ⟨fields, st, hop⟩ := hediting.1 hl
    exact absurd hop (he fields st)
  | retiring =>
    obtain ⟨st, hop⟩ := hretiring.1 hl
    exact absurd hop (hr st)

theorem Books.Maintained.unlocked_of_idle (m : b.Maintained) (hop : b.operation = none) {h : Nat} {c : Cue}
    (hc : b.floor.cue h = some c) : c.lock = .unlocked :=
  m.unlocked hc (fun _ _ h => by rw [hop] at h; cases h) fun _ h => by rw [hop] at h; cases h

/-- The locks beside an operation that edits or retires no cue. -/
theorem locks_of_unlocked {op : Option StoreOp} (hl : ∀ h c, g.cue h = some c → c.lock = .unlocked)
    (he : ∀ h fields st, op ≠ some (.edit h fields st)) (hr : ∀ h st, op ≠ some (.retire h st)) :
    ∀ h c, g.cue h = some c → (c.lock = .editing ↔ ∃ fields st, op = some (.edit h fields st)) ∧
      (c.lock = .retiring ↔ ∃ st, op = some (.retire h st)) := fun h c hc => by
  rw [hl h c hc]
  exact ⟨⟨fun h => (nomatch h), fun ⟨fields, st, hop⟩ => absurd hop (he h fields st)⟩,
    ⟨fun h => (nomatch h), fun ⟨st, hop⟩ => absurd hop (hr h st)⟩⟩

/-- The unit with no store operation in progress. -/
theorem Books.Maintained.idle {closure : Option Nat} (hl : ∀ h c, g.cue h = some c → c.lock = .unlocked)
    (hclosing : ∀ slot, closure = some slot → ∃ reel, g.reel slot = some reel ∧ reel.state = .reelClosing) :
    Books.Maintained ⟨g, none, closure⟩ where
  locks := locks_of_unlocked hl (fun _ _ _ h => (nomatch h)) fun _ _ h => (nomatch h)
  creating _ _ _ h := nomatch h
  editing _ _ _ h := nomatch h
  retiring _ _ h := nomatch h
  closing := hclosing

/-- A change beside an operation in progress, which leaves the cues of OPEN reels, the OPEN reels and the DEFINED
characters. -/
theorem Books.Maintained.keep (m : b.Maintained) {closure : Option Nat}
    (hback : ∀ h d, g.cue h = some d → b.floor.cue h = some d)
    (hcue : ∀ h c rate, b.floor.cue h = some c → b.floor.OpenReel c.reel rate → g.cue h = some c)
    (hopen : ∀ slot rate, b.floor.OpenReel slot rate → g.OpenReel slot rate)
    (hchars : ∀ id, (b.floor.character id).isSome = true → (g.character id).isSome = true)
    (hlabels : ∀ slot number suffix besides, b.floor.labelTaken slot number suffix besides = false →
      g.labelTaken slot number suffix besides = false)
    (hclosing : ∀ slot, closure = some slot → ∃ reel, g.reel slot = some reel ∧ reel.state = .reelClosing) :
    Books.Maintained ⟨g, b.operation, closure⟩ where
  locks h d hd := m.locks h d (hback h d hd)
  creating slot fields st hop := by
    obtain ⟨rate, ho, hstored, hfree⟩ := m.creating slot fields st hop
    exact ⟨rate, hopen slot rate ho, hstored.mono fun id _ => hchars id, hlabels _ _ _ _ hfree⟩
  editing h fields st hop := by
    obtain ⟨c, rate, hc, ho, hstored, hfree⟩ := m.editing h fields st hop
    exact ⟨c, rate, hcue h c rate hc ho, hopen _ _ ho, hstored.mono fun id _ => hchars id, hlabels _ _ _ _ hfree⟩
  retiring h st hop := by
    obtain ⟨c, rate, hc, ho, hnone⟩ := m.retiring h st hop
    exact ⟨c, rate, hcue h c rate hc ho, hopen _ _ ho, hnone⟩
  closing := hclosing

end Unit

/-! ## The changes of the books -/

section Changes

variable {b : Books}

theorem Floor.openReel_ne_closing {f : Floor} {slot k : Nat} {rate : Rate} {reel : Reel} (h : f.OpenReel k rate)
    (hreel : f.reel slot = some reel) (hclosing : reel.state = .reelClosing) : k ≠ slot := by
  rintro rfl
  obtain ⟨r, hr, hopen, -⟩ := h
  rw [hreel] at hr
  cases hr
  rw [hclosing] at hopen
  cases hopen

/-- While the stages work (R40, R106, R115). -/
theorem Books.Rules.works (r : b.Rules) (hworking : ∀ i, b.floor.handles i ≠ [] → (b.floor.runner i).state.working = true)
    {g : Floor} (h : b.floor.Works g) : Books.Rules { b with floor := g } := by
  obtain ⟨filed, named, unit⟩ := r
  obtain ⟨e, hledger⟩ := h
  have hretiring : ∀ h, (∃ st, b.operation = some (.retire h st)) → b.floor.runsNaming h = 0 ∧
      ∀ c, b.floor.cue h = some c → c.lock ≠ .unlocked := fun h hop => by
    obtain ⟨st, hst⟩ := hop
    obtain ⟨c, rate, hc, -, hnone⟩ := unit.retiring h st hst
    exact ⟨named.inFlight h c hc ▸ hnone, fun d hd hl => by
      have hlock := ((unit.locks h d hd).2).2 ⟨st, hst⟩
      rw [hl] at hlock
      cases hlock⟩
  have l := hledger (fun h => ∃ st, b.operation = some (.retire h st)) b.floor.mayRun (named.ledger filed hworking hretiring)
  have hcue : ∀ {h c}, b.floor.cue h = some c → ∃ d, g.cue h = some d ∧ d.reel = c.reel := fun hc => e.cue_reel hc
  refine ⟨e.filing.filed filed, l.runsNamed_works e, ⟨fun h d hd => ?_, fun slot fields st hop => ?_,
    fun h fields st hop => ?_, fun h st hop => ?_, fun slot hslot => ?_⟩⟩
  · have hp := e.cue h
    rw [hd] at hp
    obtain ⟨c, hc, hplaced⟩ := Option.map_eq_some_iff.1 hp.symm
    have hlock : c.lock = d.lock := congrArg (fun x => x.2.2) hplaced
    exact hlock ▸ unit.locks h c hc
  · obtain ⟨rate, ho, hstored, hfree⟩ := unit.creating slot fields st hop
    exact ⟨rate, e.openReel ho, e.chars.symm ▸ hstored, e.filing.labelTaken _ _ _ _ ▸ hfree⟩
  · obtain ⟨c, rate, hc, ho, hstored, hfree⟩ := unit.editing h fields st hop
    obtain ⟨d, hd, hslot⟩ := hcue hc
    exact ⟨d, rate, hd, hslot ▸ e.openReel ho, e.chars.symm ▸ hstored, by rw [e.filing.labelTaken, hslot]; exact hfree⟩
  · obtain ⟨c, rate, hc, ho, -⟩ := unit.retiring h st hop
    obtain ⟨d, hd, hslot⟩ := hcue hc
    exact ⟨d, rate, hd, hslot ▸ e.openReel ho, (l.inFlight h d hd).trans (l.idle h ⟨st, hop⟩).1⟩
  · rw [Floor.reel, e.reels]
    exact unit.closing slot hslot

theorem Books.Rules.cleared {g : Floor} (hcues : g.cues = []) (hreels : g.reels = []) (hchars : g.chars = [])
    (hruns : ∀ i, (g.runner i).runs = []) : Books.Rules ⟨g, none, none⟩ := by
  have hcue : ∀ {h c}, ¬g.cue h = some c := fun h => by rw [Floor.cue, hcues] at h; cases h
  have hreel : ∀ {k r}, ¬g.reel k = some r := fun h => by rw [Floor.reel, hreels] at h; cases h
  have hchar : ∀ {k r}, ¬g.character k = some r := fun h => by rw [Floor.character, hchars] at h; cases h
  exact ⟨⟨fun _ _ h => absurd h hcue, fun _ _ _ _ h => absurd h hcue, fun _ _ h => absurd h hreel,
      fun _ _ h => absurd h hreel, fun _ _ h => absurd h hreel, fun _ _ h => absurd h hchar⟩,
    ⟨fun i => by rw [hruns i]; exact ⟨List.nodup_nil, fun _ h => (nomatch h)⟩, fun _ _ h => absurd h hcue⟩,
    .idle (fun _ _ h => absurd h hcue) fun _ h => (nomatch h)⟩

/-- A creation is accepted (R31). -/
theorem Books.Rules.createBegins (r : b.Rules) (t : b.floor.Canonical) (hidle : b.operation = none)
    {x : CueCreateFields} {op : StoreOp} (hop : b.floor.checkCreate x = .ok op) :
    Books.Rules { b with operation := some op } := by
  obtain ⟨slot, fields, st, reel, rfl, hreel, hopen, hstored, hfree⟩ := Floor.checkCreate_creates t.reels x op hop
  refine ⟨r.filed, r.named, ⟨locks_of_unlocked (fun h c hc => r.unit.unlocked_of_idle hidle hc) (fun _ _ _ h => (nomatch h))
    fun _ _ h => (nomatch h), fun k fields' st' h => ?_, fun _ _ _ h => (nomatch h), fun _ _ h => (nomatch h), r.unit.closing⟩⟩
  cases h
  exact ⟨reel.rate, ⟨reel, hreel, hopen, rfl⟩, hstored, hfree⟩

/-- A lock changes nothing but the lock. -/
theorem Floor.modCue_lock {f : Floor} (h : Nat) (lock : Lock) (k : Nat) :
    (f.modCue h fun c => { c with lock := lock }).cue k =
      (f.cue k).map fun c => if k = h then { c with lock := lock } else c := by
  refine (Table.find_modify k h (fun c : Cue => { c with lock := lock }) f.cues).trans ?_
  by_cases hk : k = h
  · simp [hk, Floor.cue]
  · simp [hk, Floor.cue]

theorem Floor.RunsNamed.lock {f : Floor} (n : f.RunsNamed) (h : Nat) (lock : Lock) :
    (f.modCue h fun c => { c with lock := lock }).RunsNamed := by
  refine n.keep (fun _ => rfl) (fun _ _ _ hsel _ => hsel) (fun k c _ hc _ => ?_) (fun _ rate ho => ⟨rate, ho⟩)
    fun k d hd => ?_
  · rw [Floor.modCue_lock, hc]
    refine ⟨_, rfl, ?_⟩
    split <;> rfl
  · rw [Floor.modCue_lock] at hd
    obtain ⟨c, hc, rfl⟩ := Option.map_eq_some_iff.1 hd
    rw [← n.inFlight k c hc]
    split <;> rfl

/-- An edit is accepted (R35). -/
theorem Books.Rules.editBegins (r : b.Rules) (t : b.floor.Canonical) (hidle : b.operation = none) {x : CueEditFields}
    {op : StoreOp} (hop : b.floor.checkEdit x = .ok op) :
    Books.Rules { b with floor := b.floor.lockEditing x.handle, operation := some op } := by
  obtain ⟨fields, st, c, reel, rfl, hc, hreel, hopen, -, hstored, hfree⟩ := Floor.checkEdit_stores r.filed t.cues x op hop
  have e : b.floor.SameFiling (b.floor.lockEditing x.handle) := Floor.modCue_filing _ _ fun _ => ⟨rfl, rfl⟩
  refine ⟨e.filed r.filed, r.named.lock _ _, ⟨fun h d hd => ?_, fun _ _ _ h => (nomatch h), fun h fields' st' hop' => ?_,
    fun _ _ h => (nomatch h), r.unit.closing⟩⟩
  · rw [Floor.lockEditing, Floor.modCue_lock] at hd
    obtain ⟨d', hd', rfl⟩ := Option.map_eq_some_iff.1 hd
    by_cases hk : h = x.handle
    · simp [hk]
    · simp [hk, Ne.symm hk, r.unit.unlocked_of_idle hidle hd']
  · cases hop'
    refine ⟨{ c with lock := .editing }, reel.rate, ?_, ⟨reel, hreel, hopen, rfl⟩, hstored, ?_⟩
    · rw [Floor.lockEditing, Floor.modCue_lock, hc]; simp
    · rw [e.labelTaken]; exact hfree

/-- An accepted retire resolves an unlocked cue, and has no run to abort where it is not forced (R37). -/
theorem Floor.checkRetire_retires (f : Floor) (x : RetireFields) : Yields (fun force => ∃ c,
    f.resolveCue x.handle = .ok c ∧ c.lock = .unlocked ∧ (force = true ∨ c.inFlight = 0)) (f.checkRetire x) := by
  refine .bind fun force _ => .bind fun c hc => .bind fun _ hlock => .bind fun _ hruns => .pure ⟨c, hc, ?_, ?_⟩
  · simpa using require_eq_ok hlock
  · simpa using require_eq_ok hruns

/-- The runs of a cue leave the run list of a stage (R122). -/
theorem Floor.abortRuns_handles (f : Floor) (i : Fin 4) (h e : Nat) :
    (f.abortRuns i (fun r => r.handle == h) e).handles i = (f.handles i).filter fun k => k != h := by
  rw [Floor.abortRuns, Floor.settlePath_handles, Floor.handles, Floor.runner, Floor.foldl_abortRun_stage, Floor.handles,
    List.filter_map]
  refine congrArg (List.map Run.handle) (List.filter_congr fun x hx => ?_)
  rw [Bool.eq_iff_iff]
  simp only [Function.comp_apply, Bool.not_eq_true', ← Bool.not_eq_true, List.any_eq_true, List.mem_filter, beq_iff_eq,
    bne_iff_ne, ne_eq, not_exists, not_and, and_imp]
  exact ⟨fun hno hxh => hno x hx hxh rfl, fun hxh y _ hy heq => hxh (heq ▸ hy)⟩

theorem Floor.mem_stagesRunning (f : Floor) (h : Nat) (i : Fin 4) : i ∈ f.stagesRunning h ↔ h ∈ f.handles i := by
  simp [Floor.stagesRunning, Floor.handles]

/-- What the aborts of a cue's runs make of a stage: nothing where it has none, else what its own event makes of it (R38,
R42). -/
theorem Floor.abortCue_stage (f : Floor) (h : Nat) (i : Fin 4) :
    (h ∉ f.handles i ∧ (f.abortCue h).stage i = f.stage i) ∨
      h ∈ f.handles i ∧ ∃ g : Floor, g.stage i = f.stage i ∧
        (f.abortCue h).stage i = (g.abortRuns i (fun r => r.handle == h) (g.tracker i).position).stage i := by
  have hop : ∀ (j : Fin 4) (g : Floor), Floor.StageEvent j g (g.abortRuns j (fun r => r.handle == h) (g.tracker j).position) :=
    fun j g => g.abortRuns_stageEvent j _ _
  have hperm := f.openOrder_perm (f.stagesRunning h)
  by_cases hm : h ∈ f.handles i
  · obtain ⟨g, hg, hstage⟩ := Floor.foldl_stage_of_mem _ hop i _ (hperm.nodup_iff.2 ((List.nodup_finRange 4).filter _))
      (hperm.mem_iff.2 ((f.mem_stagesRunning h i).2 hm)) (f.drawn (f.stagesRunning h))
    refine .inr ⟨hm, g, hg.trans ?_, hstage⟩
    rw [Floor.stage, Floor.drawn_stages]; rfl
  · have hnot : i ∉ f.openOrder (f.stagesRunning h) := by rwa [hperm.mem_iff, Floor.mem_stagesRunning]
    refine .inl ⟨hm, (Floor.foldl_stage_of_not_mem _ hop i _ hnot _).trans ?_⟩
    rw [Floor.stage, Floor.drawn_stages]; rfl

theorem Floor.abortCue_handles (f : Floor) (h : Nat) (i : Fin 4) :
    (f.abortCue h).handles i = (f.handles i).filter fun k => k != h := by
  rcases f.abortCue_stage h i with ⟨hm, hstage⟩ | ⟨-, g, hg, hstage⟩
  · rw [Floor.handles_of_stage hstage, List.filter_eq_self.2 fun k hk => by
      have hne : k ≠ h := fun heq => hm (heq ▸ hk)
      simpa using hne]
  · rw [Floor.handles_of_stage hstage, Floor.abortRuns_handles, Floor.handles_of_stage hg]

theorem Floor.abortCue_runsNaming (f : Floor) (h : Nat) : (f.abortCue h).runsNaming h = 0 :=
  (Floor.runsNaming_eq_zero_iff _ h).2 fun i hm => by
    rw [Floor.abortCue_handles] at hm
    simpa using (List.mem_filter.1 hm).2

theorem Floor.RunsNamed.abortCue {f : Floor} (n : f.RunsNamed) (r : f.Filed)
    (hworking : ∀ i, f.handles i ≠ [] → (f.runner i).state.working = true) (h : Nat) : (f.abortCue h).RunsNamed := by
  obtain ⟨e, hledger⟩ := f.abortCue_works h
  exact (hledger (fun _ => False) f.mayRun (n.ledger r hworking fun _ hno => hno.elim)).runsNamed_works e

/-- A retire is accepted, plain or forced (R37, R38). -/
theorem Books.Rules.retireBegins (r : b.Rules)
    (hworking : ∀ i, b.floor.handles i ≠ [] → (b.floor.runner i).state.working = true) (hidle : b.operation = none)
    {x : RetireFields} {force : Bool} (hforce : b.floor.checkRetire x = .ok force) :
    Books.Rules { b with floor := b.floor.beginRetire x.handle force, operation := some (.retire x.handle .ok) } := by
  obtain ⟨c, hcue, -, hruns⟩ := b.floor.checkRetire_retires x force hforce
  obtain ⟨hc, hopen⟩ := (b.floor.resolveCue_eq_ok_iff _ _).1 hcue
  obtain ⟨reel, hreel, -⟩ := r.filed.cues _ _ hc
  have hlockFiling : b.floor.SameFiling (b.floor.lockRetiring x.handle) := Floor.modCue_filing _ _ fun _ => ⟨rfl, rfl⟩
  have hlocked : (b.floor.lockRetiring x.handle).RunsNamed := r.named.lock x.handle .retiring
  have e := b.floor.beginRetire_sameStore x.handle force
  have hnamed : (b.floor.beginRetire x.handle force).RunsNamed := by
    unfold Floor.beginRetire
    split
    · exact hlocked.abortCue (hlockFiling.filed r.filed) hworking x.handle
    · exact hlocked
  have hmine : (b.floor.lockRetiring x.handle).cue x.handle = some { c with lock := .retiring } := by
    rw [Floor.lockRetiring, Floor.modCue_lock, hc]; simp
  obtain ⟨d, hd, hslot⟩ := e.cue_reel hmine
  have hnone : (b.floor.beginRetire x.handle force).runsNaming x.handle = 0 := by
    unfold Floor.beginRetire
    split
    · exact Floor.abortCue_runsNaming _ _
    · next hplain =>
      have hzero : c.inFlight = 0 := by simpa [hplain] using hruns
      exact (r.named.inFlight _ _ hc).symm.trans hzero
  refine ⟨e.filing.filed (hlockFiling.filed r.filed), hnamed, ⟨fun h d hd => ?_, fun _ _ _ h => (nomatch h),
    fun _ _ _ h => (nomatch h), fun h st hop => ?_, fun slot hslot => ?_⟩⟩
  · have hp := e.cue h
    rw [hd, Floor.lockRetiring, Floor.modCue_lock, Option.map_map] at hp
    obtain ⟨c', hc', hplaced⟩ := Option.map_eq_some_iff.1 hp.symm
    have hlock := congrArg (fun x : Nat × CueFields × Lock => x.2.2) hplaced
    simp only [Function.comp_apply, Cue.placed] at hlock
    rw [← hlock]
    by_cases hk : h = x.handle
    · simp [hk]
    · simp [hk, Ne.symm hk, r.unit.unlocked_of_idle hidle hc']
  · cases hop
    exact ⟨d, reel.rate, hd, hslot ▸ e.openReel ⟨reel, hreel, hopen reel hreel, rfl⟩,
      (hnamed.inFlight _ _ hd).trans hnone⟩
  · rw [Floor.reel, e.reels]
    exact r.unit.closing slot hslot

/-! ## Completions -/

theorem Floor.SameShelf.closingReel {f g : Floor} (e : f.SameShelf g) {slot : Nat}
    (h : ∃ reel, f.reel slot = some reel ∧ reel.state = .reelClosing) :
    ∃ reel, g.reel slot = some reel ∧ reel.state = .reelClosing := by
  obtain ⟨reel, hr, hs⟩ := h
  obtain ⟨reel', hr', hs', -⟩ := e.reel_some hr
  exact ⟨reel', hr', hs'.trans hs⟩

/-- A creation completes (R33). -/
theorem Books.Rules.createEnds (r : b.Rules) (t : b.floor.Canonical) {slot : Nat} {fields : CueFields} {st : Status}
    (hop : b.operation = some (.create slot fields st)) : Books.Rules
      { b with floor := b.floor.makeLive (Table.lowestFree b.floor.cues) slot fields, operation := none } := by
  obtain ⟨rate, ⟨reel, hreel, hopen, rfl⟩, hstored, hlabel⟩ := r.unit.creating slot fields st hop
  have hfree : b.floor.cue (Table.lowestFree b.floor.cues) = none := (Table.lowestFree_spec t.cues).1
  have e := b.floor.makeLive_shelf (Table.lowestFree b.floor.cues) slot fields
  have hold : ∀ {k c}, b.floor.cue k = some c →
      (b.floor.makeLive (Table.lowestFree b.floor.cues) slot fields).cue k = some c := fun {k c} hc => by
    rw [Floor.makeLive_cue, if_neg (fun hk => by rw [hk, hfree] at hc; cases hc), hc]
  refine ⟨r.filed.makeLive hfree hreel hstored (Floor.labelFree_of_not_taken t.cues hlabel),
    r.named.keep (fun _ => rfl) (fun _ _ _ hsel _ => hsel) (fun _ c _ hc _ => ⟨c, hold hc, rfl⟩)
      (fun _ rate ho => ⟨rate, e.openReel ho⟩) fun k d hd => ?_,
    .idle (fun k d hd => ?_) fun k hk => e.closingReel (r.unit.closing k hk)⟩
  · rw [Floor.makeLive_cue] at hd
    split at hd
    · next hk =>
      cases hd
      exact (r.named.unnamed fun c _ hc => by rw [hk, hfree] at hc; cases hc).symm
    · exact r.named.inFlight k d hd
  · rw [Floor.makeLive_cue] at hd
    split at hd
    · cases hd; rfl
    · exact r.unit.unlocked hd (fun _ _ h => by rw [hop] at h; cases h) fun _ h => by rw [hop] at h; cases h

/-- An edit completes (R36). -/
theorem Books.Rules.editEnds (r : b.Rules) (t : b.floor.Canonical) {h : Nat} {fields : CueFields} {st : Status}
    (hop : b.operation = some (.edit h fields st)) :
    Books.Rules { b with floor := b.floor.writeEdit h fields, operation := none } := by
  obtain ⟨c, rate, hc, ⟨reel, hreel, hopen, rfl⟩, hstored, hlabel⟩ := r.unit.editing h fields st hop
  have e := b.floor.writeEdit_shelf (fields := fields) hc
  have hframe := Floor.writeEdit_frame (fields := fields) hc
  have hrunner : ∀ i, (b.floor.writeEdit h fields).runner i = b.floor.runner i := fun i => by rw [hframe]; rfl
  have hcases : ∀ {k d}, (b.floor.writeEdit h fields).cue k = some d → k = h ∧ d = { c with fields := fields, lock := .unlocked } ∨
      k ≠ h ∧ b.floor.cue k = some d := fun {k d} hd => by
    rw [Floor.writeEdit_cue hc] at hd
    split at hd
    · next hk => exact .inl ⟨hk, (Option.some.inj hd).symm⟩
    · next hk => exact .inr ⟨hk, hd⟩
  refine ⟨r.filed.writeEdit (Table.keys_nodup t.cues) hc hreel hstored (Floor.labelFree_of_not_taken t.cues hlabel),
    r.named.keep (fun i => by rw [hrunner]) (fun i _ _ hsel _ => by rw [hrunner, hsel]) (fun k d _ hd _ => ?_)
      (fun _ rate ho => ⟨rate, e.openReel ho⟩) fun k d hd => ?_,
    .idle (fun k d hd => ?_) fun k hk => e.closingReel (r.unit.closing k hk)⟩
  · rw [Floor.writeEdit_cue hc]
    by_cases hk : k = h
    · subst hk
      rw [hc] at hd
      cases hd
      exact ⟨_, if_pos rfl, rfl⟩
    · exact ⟨d, (if_neg hk).trans hd, rfl⟩
  · rcases hcases hd with ⟨rfl, rfl⟩ | ⟨-, hd⟩
    · exact r.named.inFlight k c hc
    · exact r.named.inFlight k d hd
  · rcases hcases hd with ⟨-, rfl⟩ | ⟨hk, hd⟩
    · rfl
    · refine r.unit.unlocked hd (fun _ _ h' => ?_) fun _ h' => ?_
      · rw [hop] at h'; cases h'; exact hk rfl
      · rw [hop] at h'; cases h'

/-- The books where a cue leaves that no run names. -/
theorem Floor.RunsNamed.retireCue {f : Floor} (n : f.RunsNamed) {h : Nat} {c : Cue} (hc : f.cue h = some c)
    (hnone : f.runsNaming h = 0) : (f.retireCue h).RunsNamed where
  runs i := by
    have hrunner : (f.retireCue h).runner i = f.runner i := by rw [Floor.retireCue_frame hc]; rfl
    rw [hrunner]
    refine ⟨(n.runs i).1, fun r hr => ?_⟩
    obtain ⟨d, rate, hd, hsel, ho⟩ := (n.runs i).2 r hr
    have hne : r.handle ≠ h := fun heq => (f.runsNaming_eq_zero_iff h).1 hnone i (heq ▸ List.mem_map_of_mem hr)
    exact ⟨d, rate, (Floor.retireCue_cue hc _).trans ((if_neg hne).trans hd), hsel, (f.retireCue_shelf hc).openReel ho⟩
  inFlight k d hd := by
    rw [Floor.retireCue_cue hc] at hd
    split at hd
    · cases hd
    · rw [n.inFlight k d hd]
      refine (Floor.runsNaming_congr (fun i => ?_) k).symm
      rw [Floor.retireCue_frame hc]; rfl

/-- A retire completes (R39). -/
theorem Books.Rules.retireEnds (r : b.Rules) (t : b.floor.Canonical) {h : Nat} {st : Status}
    (hop : b.operation = some (.retire h st)) :
    Books.Rules { b with floor := b.floor.retireCue h, operation := none } := by
  obtain ⟨c, rate, hc, ho, hnone⟩ := r.unit.retiring h st hop
  refine ⟨r.filed.retireCue (Table.keys_nodup t.cues) hc, r.named.retireCue hc ((r.named.inFlight h c hc) ▸ hnone),
    .idle (fun k d hd => ?_) fun k hk => (b.floor.retireCue_shelf hc).closingReel (r.unit.closing k hk)⟩
  rw [Floor.retireCue_cue hc] at hd
  split at hd
  · cases hd
  · next hk =>
    refine r.unit.unlocked hd (fun _ _ h' => ?_) fun _ h' => ?_
    · rw [hop] at h'; cases h'
    · rw [hop] at h'; cases h'; exact hk rfl

/-! ## Reels and characters beside an operation -/

/-- A change of the reels and the characters that leaves the OPEN reels and what is DEFINED, beside any operation. -/
theorem Books.Rules.tables (r : b.Rules) {g : Floor} (hfiled : g.Filed) (hcues : g.cues = b.floor.cues)
    (hstages : g.stages = b.floor.stages) (hopen : ∀ slot rate, b.floor.OpenReel slot rate → g.OpenReel slot rate)
    (hchars : ∀ id, (b.floor.character id).isSome = true → (g.character id).isSome = true)
    (hclosing : ∀ slot reel, b.floor.reel slot = some reel → reel.state = .reelClosing →
      ∃ reel', g.reel slot = some reel' ∧ reel'.state = .reelClosing) : Books.Rules { b with floor := g } := by
  have hcue : ∀ h, g.cue h = b.floor.cue h := fun h => by rw [Floor.cue, hcues]; rfl
  have hrunner : ∀ i, g.runner i = b.floor.runner i := fun i => by rw [Floor.runner, Floor.stage, hstages]; rfl
  refine ⟨hfiled, r.named.keep (fun i => by rw [hrunner]) (fun i _ _ hsel _ => by rw [hrunner, hsel])
    (fun h c _ hc _ => ⟨c, (hcue h).trans hc, rfl⟩) (fun slot rate ho => ⟨rate, hopen slot rate ho⟩)
    fun h d hd => r.named.inFlight h d ((hcue h).symm.trans hd),
    r.unit.keep (fun h d hd => (hcue h).symm.trans hd) (fun h c _ hc _ => (hcue h).trans hc) hopen hchars
      (fun slot number suffix besides hfree => ?_) fun slot hslot => ?_⟩
  · rw [Floor.labelTaken, hcues]; exact hfree
  · obtain ⟨reel, hreel, hs⟩ := r.unit.closing slot hslot
    exact hclosing slot reel hreel hs

/-- A reel is opened (R48). -/
theorem Books.Rules.reelOpens (r : b.Rules) (t : b.floor.Canonical) {number : Nat} {rate : Rate} (hlo : 1 ≤ number)
    (hhi : number ≤ 99) : Books.Rules { b with floor := b.floor.openReel number rate } := by
  have hfree := (Table.lowestFree_spec t.reels).1
  have hkept : ∀ {k reel}, b.floor.reel k = some reel → (b.floor.openReel number rate).reel k = some reel :=
    fun {k reel} h => by
    have hk : k ≠ Table.lowestFree b.floor.reels := by
      rintro rfl
      rw [Floor.reel, hfree] at h
      cases h
    exact (Table.find_put_other hk _ _).trans h
  exact r.tables (r.filed.openReel t.reels hlo hhi) rfl rfl (fun slot rate ⟨reel, h, ho, hr⟩ => ⟨reel, hkept h, ho, hr⟩)
    (fun _ h => h) fun slot reel h hs => ⟨reel, hkept h, hs⟩

/-- A reel takes defaults (R49). -/
theorem Books.Rules.defaultsSet (r : b.Rules) (slot : Nat) (asked : Timing) :
    Books.Rules { b with floor := b.floor.modReel slot fun x => { x with defaults := asked.fitted } } := by
  have hreel : ∀ {k reel}, b.floor.reel k = some reel → ∃ reel', (b.floor.modReel slot fun x =>
      { x with defaults := asked.fitted }).reel k = some reel' ∧ reel'.state = reel.state ∧ reel'.rate = reel.rate :=
    fun {k reel} h => by
    have hmod := Table.find_modify k slot (fun x : Reel => { x with defaults := asked.fitted }) b.floor.reels
    rw [← Floor.reel, h] at hmod
    by_cases hk : k = slot
    · exact ⟨_, hmod.trans (if_pos hk), rfl, rfl⟩
    · exact ⟨_, hmod.trans (if_neg hk), rfl, rfl⟩
  have hfiled : (b.floor.modReel slot fun x => { x with defaults := asked.fitted }).Filed :=
    r.filed.modReel (fun _ => rfl) (fun _ => rfl) (fun _ _ => asked.fitted_inRange) fun _ _ _ => rfl
  refine r.tables hfiled rfl rfl (fun k rate ⟨reel, h, ho, hr⟩ => ?_) (fun _ h => h) fun k reel h hs => ?_
  · obtain ⟨reel', h', hs', hr'⟩ := hreel h
    exact ⟨reel', h', hs'.trans ho, hr'.trans hr⟩
  · obtain ⟨reel', h', hs', -⟩ := hreel h
    exact ⟨reel', h', hs'.trans hs⟩

theorem Books.Rules.charDefined (r : b.Rules) (t : b.floor.Canonical) {id : Nat} {name : List Byte}
    (hfree : b.floor.character id = none) : Books.Rules
      { b with floor := { b.floor with chars := Table.put id { name := name, useCount := 0 } b.floor.chars } } := by
  refine r.tables (r.filed.charDefined t.cues hfree) rfl rfl (fun _ _ ho => ho) (fun k hk => ?_)
    fun _ reel h hs => ⟨reel, h, hs⟩
  by_cases heq : k = id
  · rw [heq, Floor.character, Table.find_put_self]; rfl
  · rwa [Floor.character, Table.find_put_other heq]

theorem Books.Rules.charRenamed (r : b.Rules) (id : Nat) (name : List Byte) : Books.Rules
    { b with floor := { b.floor with chars := Table.modify id (fun c => { c with name := name }) b.floor.chars } } := by
  refine r.tables (r.filed.charRenamed id name) rfl rfl (fun _ _ ho => ho) (fun k hk => ?_)
    fun _ reel h hs => ⟨reel, h, hs⟩
  rw [Floor.character, Table.find_modify]
  split
  · rwa [Option.isSome_map]
  · exact hk

/-! ## Reels and characters with no operation in progress -/

/-- The locks and the closure side where no store operation is in progress, after a change of the reels or the characters. -/
theorem Books.Maintained.tables (m : b.Maintained) (hidle : b.operation = none) {g : Floor} (hcues : g.cues = b.floor.cues)
    (hclosing : ∀ slot reel, b.floor.reel slot = some reel → reel.state = .reelClosing →
      ∃ reel', g.reel slot = some reel' ∧ reel'.state = .reelClosing) : Books.Maintained { b with floor := g } := by
  have hnone : Books.mk g b.operation b.closure = ⟨g, none, b.closure⟩ := by rw [hidle]
  rw [hnone]
  refine .idle (fun h c hc => m.unlocked_of_idle hidle (h := h) (c := c) ?_) fun slot hslot => ?_
  · rwa [Floor.cue, hcues] at hc
  · obtain ⟨reel, hreel, hs⟩ := m.closing slot hslot
    exact hclosing slot reel hreel hs

/-- A reel without cues takes a rate (R50). -/
theorem Books.Rules.rateSet (r : b.Rules) (t : b.floor.Canonical) (hidle : b.operation = none) {number slot : Nat}
    {reel : Reel} {rate : Rate} (hfound : b.floor.resolveReel number = .ok (slot, reel)) (hempty : reel.order = []) :
    Books.Rules { b with floor := b.floor.modReel slot fun x => { x with rate := rate } } := by
  obtain ⟨hslot, -⟩ := Floor.resolveReel_reel t.reels hfound
  have hreel : ∀ {k old}, b.floor.reel k = some old → ∃ reel', (b.floor.modReel slot fun x =>
      { x with rate := rate }).reel k = some reel' ∧ reel'.state = old.state := fun {k old} h => by
    have hmod := Table.find_modify k slot (fun x : Reel => { x with rate := rate }) b.floor.reels
    rw [← Floor.reel, h] at hmod
    by_cases hk : k = slot
    · exact ⟨_, hmod.trans (if_pos hk), rfl⟩
    · exact ⟨_, hmod.trans (if_neg hk), rfl⟩
  have hfiled : (b.floor.modReel slot fun x => { x with rate := rate }).Filed :=
    r.filed.modReel (fun _ => rfl) (fun _ => rfl) (fun _ hd => hd) fun x hx hne => by
      rw [hslot] at hx
      cases hx
      exact absurd hempty hne
  refine ⟨hfiled, r.named.keep (fun _ => rfl) (fun _ _ _ hsel _ => hsel) (fun _ c _ hc _ => ⟨c, hc, rfl⟩)
    (fun k rate' ⟨old, h, ho, _⟩ => ?_) fun h d hd => r.named.inFlight h d hd,
    r.unit.tables hidle rfl fun k old h hs => ?_⟩
  · obtain ⟨reel', h', hs'⟩ := hreel h
    exact ⟨reel'.rate, reel', h', hs'.trans ho, rfl⟩
  · obtain ⟨reel', h', hs'⟩ := hreel h
    exact ⟨reel', h', hs'.trans hs⟩

/-- A character is retired that nothing uses (R67). -/
theorem Books.Rules.charRetired (r : b.Rules) (t : b.floor.Canonical) (hidle : b.operation = none) {id : Nat}
    {c : Character} (hc : b.floor.character id = some c) (hunused : c.useCount = 0) :
    Books.Rules { b with floor := { b.floor with chars := Table.erase id b.floor.chars } } :=
  ⟨r.filed.charRetired t.cues hc hunused, r.named.keep (fun _ => rfl) (fun _ _ _ hsel _ => hsel)
    (fun _ c _ hc _ => ⟨c, hc, rfl⟩) (fun _ rate ho => ⟨rate, ho⟩) fun h d hd => r.named.inFlight h d hd,
    r.unit.tables hidle rfl fun _ reel h hs => ⟨reel, h, hs⟩⟩

/-! ## Closures -/

/-- Where the closing reel has no cue left, the closure ends and its selections are cleared (R61). -/
theorem Books.Rules.closeIfEmpty (r : b.Rules) {slot : Nat} (hclosure : b.closure = some slot) :
    (b.closeIfEmpty slot).Rules := by
  obtain ⟨reel, hreel, hclosing⟩ := r.unit.closing slot hclosure
  unfold Books.closeIfEmpty
  rw [hreel]
  dsimp only
  split
  · next hempty =>
    have hrunner : ∀ i, (b.floor.endClosure slot).runner i = ((b.floor.stage i).clearSelection slot).runner := fun i => by
      simp [Floor.endClosure, Floor.setNotice, Floor.runner, Floor.stage]
    have hopen : ∀ k rate, b.floor.OpenReel k rate → (b.floor.endClosure slot).OpenReel k rate := fun k rate ho => by
      have hk := Floor.openReel_ne_closing ho hreel hclosing
      obtain ⟨x, hx, hs, hr⟩ := ho
      exact ⟨x, (Table.find_erase_other hk b.floor.reels).trans hx, hs, hr⟩
    refine ⟨r.filed.endClosure hreel (List.isEmpty_iff.1 hempty), r.named.keep (fun i => ?_) (fun i k rate hsel ho => ?_)
      (fun _ c _ hc _ => ⟨c, hc, rfl⟩) (fun k rate ho => ⟨rate, hopen k rate ho⟩) fun h d hd => r.named.inFlight h d hd,
      r.unit.keep (fun _ _ hd => hd) (fun _ _ _ hc _ => hc) hopen (fun _ h => h) (fun _ _ _ _ h => h)
        fun _ h => (nomatch h)⟩
    · rw [hrunner]
      unfold Stage.clearSelection
      split <;> rfl
    · have hk := Floor.openReel_ne_closing ho hreel hclosing
      have hsel : (b.floor.stage i).runner.selected = some k := hsel
      rw [hrunner, Stage.clearSelection, if_neg (fun h => hk (Option.some.inj (hsel.symm.trans h)))]
      exact hsel
  · exact r

/-- The last cue of a closing reel is freed, and the closure goes on (R60). -/
theorem Books.Rules.lastFreed (r : b.Rules) (t : b.floor.Canonical) {slot handle : Nat} {reel : Reel}
    (hclosure : b.closure = some slot) (hreel : b.floor.reel slot = some reel) (hlast : reel.order.getLast? = some handle) :
    Books.Rules { b with floor := b.floor.freeLast slot handle } := by
  obtain ⟨c, hc, hslot, heq⟩ := Floor.freeLast_eq_retireCue r.filed t.reels hreel hlast
  obtain ⟨closing, hclosing, hstate⟩ := r.unit.closing slot hclosure
  rw [heq]
  have e := b.floor.retireCue_shelf hc
  have hnone : b.floor.runsNaming handle = 0 := r.named.unnamed fun d rate hd ho => by
    rw [hc] at hd
    cases hd
    exact Floor.openReel_ne_closing ho hclosing hstate hslot
  have hcues : (b.floor.retireCue handle).cues = Table.erase handle b.floor.cues := by rw [Floor.retireCue_eq hc]; rfl
  refine ⟨r.filed.retireCue (Table.keys_nodup t.cues) hc, r.named.retireCue hc hnone, r.unit.keep (fun k d hd => ?_)
    (fun k d rate hd ho => ?_) (fun _ _ ho => e.openReel ho) (fun id hid => (e.chars id).trans hid)
    (fun k number suffix besides hfree => ?_) fun k hk => e.closingReel (r.unit.closing k hk)⟩
  · rw [Floor.retireCue_cue hc] at hd
    split at hd
    · cases hd
    · exact hd
  · have hne : k ≠ handle := by
      rintro rfl
      rw [hc] at hd
      cases hd
      exact Floor.openReel_ne_closing ho hclosing hstate hslot
    exact (Floor.retireCue_cue hc k).trans ((if_neg hne).trans hd)
  · rw [Floor.labelTaken, List.any_eq_false] at hfree ⊢
    rw [hcues]
    exact fun x hx => hfree x (List.mem_filter.1 hx).1

/-- A reel begins to close: the stages that chase it stop, and none has a run of its cues left (R58, R59). -/
theorem Books.Rules.reelCloses (r : b.Rules) (t : b.floor.Canonical)
    (hworking : ∀ i, b.floor.handles i ≠ [] → (b.floor.runner i).state.working = true) (hidle : b.operation = none)
    {number slot : Nat} {reel : Reel} (hfound : b.floor.resolveReel number = .ok (slot, reel)) :
    Books.Rules { b with floor := b.floor.beginClosure slot, closure := some slot } := by
  obtain ⟨hslot, -⟩ := Floor.resolveReel_reel t.reels hfound
  have hmod : ∀ k, (b.floor.markClosing slot).reel k =
      if k = slot then (b.floor.reel k).map fun x => { x with state := .reelClosing } else b.floor.reel k := fun k =>
    Table.find_modify k slot (fun x : Reel => { x with state := .reelClosing }) b.floor.reels
  have hfiled : (b.floor.markClosing slot).Filed :=
    r.filed.modReel (fun _ => rfl) (fun _ => rfl) (fun _ hd => hd) fun _ _ _ => rfl
  have e := b.floor.beginClosure_sameStore slot
  have hledger : (b.floor.beginClosure slot).RunLedger (fun _ => False) b.floor.mayRun := by
    refine (Floor.forEachOpen_works _ _ _ fun i g => g.stopChase_works i).2 _ _ ?_
    have l := r.named.ledger r.filed hworking (idle := fun _ => False) fun _ hno => hno.elim
    refine ⟨fun k x hx h hm => ?_, fun k x hx ho i => ?_, l.working, l.once, l.named, l.inFlight, l.idle⟩
    · exact (hfiled.members k x hx h).1 hm
    · rw [hmod] at hx
      split at hx
      · obtain ⟨y, -, rfl⟩ := Option.map_eq_some_iff.1 hx
        cases ho
      · exact l.opened k x hx ho i
  have hstopped : ∀ i, (b.floor.beginClosure slot).handles i ≠ [] →
      (b.floor.runner i).selected ≠ some slot ∧ (b.floor.beginClosure slot).stage i = b.floor.stage i := fun i hne => by
    have hop : ∀ (j : Fin 4) (g : Floor), Floor.StageEvent j g (g.stopChase j) := fun j g => g.stopChase_stageEvent j
    have hperm := (b.floor.markClosing slot).openOrder_perm ((b.floor.markClosing slot).stagesChasing slot)
    by_cases hm : i ∈ (b.floor.markClosing slot).stagesChasing slot
    · obtain ⟨g, hg, hstage⟩ := Floor.foldl_stage_of_mem _ hop i _ (hperm.nodup_iff.2 ((List.nodup_finRange 4).filter _))
        (hperm.mem_iff.2 hm) ((b.floor.markClosing slot).drawn ((b.floor.markClosing slot).stagesChasing slot))
      have hwork : (g.runner i).state.working = true := by
        have hsame : g.runner i = b.floor.runner i := by
          rw [Floor.runner, hg, Floor.stage, Floor.drawn_stages]; rfl
        rw [hsame]
        exact (Bool.and_eq_true_iff.1 (List.mem_filter.1 hm).2).2
      exact absurd ((Floor.handles_of_stage hstage).trans (g.stopChase_handles i fun _ => hwork)) hne
    · have hstage : (b.floor.beginClosure slot).stage i = b.floor.stage i := by
        refine (Floor.foldl_stage_of_not_mem _ hop i _ (mt hperm.mem_iff.1 hm) _).trans ?_
        rw [Floor.stage, Floor.drawn_stages]; rfl
      refine ⟨fun hsel => hm (List.mem_filter.2 ⟨List.mem_finRange i, ?_⟩), hstage⟩
      have hwork := hworking i (Floor.handles_of_stage hstage ▸ hne)
      have hsame : (b.floor.markClosing slot).runner i = b.floor.runner i := rfl
      simp [hsame, hsel, hwork]
  refine ⟨e.filing.filed hfiled, hledger.runsNamed fun i k hne hlive => ?_, ?_⟩
  · obtain ⟨hsel, rate, x, hx, ho, hr⟩ := hlive
    obtain ⟨hother, hstage⟩ := hstopped i hne
    have hk : k ≠ slot := fun heq => hother (by rw [← heq, ← hsel, Floor.runner, Floor.runner, hstage])
    exact ⟨hsel, rate, e.openReel ⟨x, (hmod k).trans ((if_neg hk).trans hx), ho, hr⟩⟩
  · have hnone : Books.mk (b.floor.beginClosure slot) b.operation (some slot) =
        ⟨b.floor.beginClosure slot, none, some slot⟩ := by rw [hidle]
    rw [hnone]
    refine .idle (fun h d hd => ?_) fun k hk => ?_
    · have hp := e.cue h
      rw [hd] at hp
      obtain ⟨c, hc, hplaced⟩ := Option.map_eq_some_iff.1 hp.symm
      have hlock : c.lock = d.lock := congrArg (fun x => x.2.2) hplaced
      exact hlock ▸ r.unit.unlocked_of_idle hidle hc
    · cases hk
      refine ⟨{ reel with state := .reelClosing }, ?_, rfl⟩
      rw [Floor.reel, e.reels, ← Floor.reel, hmod, if_pos rfl, hslot]
      rfl

end Changes

/-- Every change of the books keeps their rules. -/
theorem Books.Change.rules {taken : Prop} {b c : Books} (h : b.Change taken c) (r : b.Rules) (t : b.floor.Canonical)
    (hworking : ∀ i, b.floor.handles i ≠ [] → (b.floor.runner i).state.working = true)
    (hidle : taken → b.operation = none) : c.Rules := by
  cases h with
  | works h => exact r.works hworking h
  | cleared cues reels chars runs => exact .cleared cues reels chars runs
  | createBegins ht hop => exact r.createBegins t (hidle ht) hop
  | editBegins ht hop => exact r.editBegins t (hidle ht) hop
  | retireBegins ht hforce => exact r.retireBegins hworking (hidle ht) hforce
  | createEnds hop => exact r.createEnds t hop
  | editEnds hop => exact r.editEnds t hop
  | retireEnds hop => exact r.retireEnds t hop
  | reelOpens hlo hhi _ _ => exact r.reelOpens t hlo hhi
  | defaultsSet => exact r.defaultsSet _ _
  | rateSet ht hreel hempty => exact r.rateSet t (hidle ht) hreel hempty
  | reelCloses ht hreel _ => exact (r.reelCloses t hworking (hidle ht) hreel).closeIfEmpty rfl
  | charDefined _ hfree => exact r.charDefined t hfree
  | charRenamed => exact r.charRenamed _ _
  | charRetired ht hc hunused => exact r.charRetired t (hidle ht) hc hunused
  | lastFreed hclosure hreel hlast => exact (r.lastFreed t hclosure hreel hlast).closeIfEmpty hclosure
  | closureEnds hclosure => exact r.closeIfEmpty hclosure

/-- Settles O12, by what every step does to the books. -/
theorem storeRulesKept : Obligations.StoreRulesKept := fun s t hlink hcanonical hagrees hrules hstep =>
  t.storeRules_iff.2 ((step_stepped hstep).books.rules (s.storeRules_iff.1 hrules) (s.storesCanonical_iff.1 hcanonical).tables
    (fun i hne => (hagrees i).runs fun hnil => hne ((Floor.runs_eq_nil_iff s.floor i).1 hnil))
    fun hr => hlink.operation_none hr)

end Sys2Proof.Machine
end

section
/-! What the aborts of runs leave of their stage and of the notices, and the occurrences of the fault logic (R41, R122, R137,
R144 to R148). -/

namespace Sys2Proof.Machine

/-! ## Notices under aborts -/

section Notices

variable (f : Floor) (i : Fin 4)

theorem Floor.abortRun_notices (r : Run) (e : Nat) : (f.abortRun i r e).notices = f.notices := by
  unfold Floor.abortRun Floor.reportRun
  split <;> rfl

theorem Floor.foldl_abortRun_notices (e : Nat) (l : List Run) :
    (l.foldl (fun f r => f.abortRun i r e) f).notices = f.notices := by
  induction l generalizing f with
  | nil => rfl
  | cons r l ih => exact (ih _).trans (f.abortRun_notices i r e)

theorem Floor.PathOnly.notices {f g : Floor} {i : Fin 4} (a : Floor.PathOnly i f g) : g.notices = f.notices := by
  obtain ⟨p, c, -, rfl⟩ := a
  rfl

theorem Floor.abortRuns_notices (which : Run → Bool) (e : Nat) : (f.abortRuns i which e).notices = f.notices :=
  (Floor.settlePath_pathOnly _ i).notices.trans (f.foldl_abortRun_notices i e _)

theorem Floor.leaveWork_notices (n : RunnerState) (e : Nat) : (f.leaveWork i n e).notices = f.notices :=
  f.abortRuns_notices i _ e

theorem Floor.stopChase_notices : (f.stopChase i).notices = f.notices := by
  unfold Floor.stopChase
  split
  · exact f.leaveWork_notices i _ _
  · rfl

end Notices

/-! ## The stage of a runner that leaves its work -/

section Stage

variable (f : Floor) (i : Fin 4)

/-- An interlock operation on a stage without runs changes its path alone. -/
theorem Floor.PathOnly.stage_of_nil {f g : Floor} {i : Fin 4} (a : Floor.PathOnly i f g) (h : (f.runner i).runs = []) :
    ∃ p, g.stage i = { f.stage i with path := p } := by
  obtain ⟨p, c, -, rfl⟩ := a
  refine ⟨p, ?_⟩
  have hruns : (f.stage i).runner.runs = [] := h
  rw [Floor.modStage_stage, hruns, List.map_nil, ← hruns]

/-- A runner that leaves its work: its run list is empty, its marks are gone, its path settled (R122, R128, R137, R175). -/
theorem Floor.leaveWork_stage (n : RunnerState) (e : Nat) : ∃ p, (f.leaveWork i n e).stage i = { f.stage i with
    runner := { f.runner i with runs := [], state := n, blankingCount := 0 }
    overlay := { f.overlay i with flashMarks :=
      (f.overlay i).flashMarks.filter fun h => !(f.runner i).runs.any fun r => r.handle == h }
    path := p } := by
  have hstage := f.foldl_abortRun_all i e
  have hempty : (((f.runner i).runs.foldl (fun f r => f.abortRun i r e) f).runner i).runs = [] := by
    rw [Floor.runner, hstage]
  obtain ⟨p, hp⟩ := (Floor.settlePath_pathOnly _ i).stage_of_nil hempty
  refine ⟨p, ?_⟩
  rw [Floor.leaveWork, Floor.modRunner, Floor.modStage_stage, Floor.abortAll, Floor.abortRuns, List.filter_true, hp,
    hstage]
  rfl

theorem Floor.leaveWork_runner (n : RunnerState) (e : Nat) :
    (f.leaveWork i n e).runner i = { f.runner i with runs := [], state := n, blankingCount := 0 } := by
  obtain ⟨p, hp⟩ := f.leaveWork_stage i n e
  rw [Floor.runner, hp]

end Stage

/-! ## A loss of runs, seen from other floors -/

section LosesRuns

variable {f g g' : Floor} {i : Fin 4} {e : Nat}

/-- A loss of runs to a floor that agrees with another in the cues, the monitor unit, and the runs, the marks and the path of
the stage. -/
theorem Floor.LosesRuns.to_agree (h : f.LosesRuns g i e) (hcues : g'.cues = g.cues) (hmonitor : g'.monitor = g.monitor)
    (hruns : (g'.runner i).runs = (g.runner i).runs) (hmarks : (g'.overlay i).flashMarks = (g.overlay i).flashMarks)
    (hpath : g'.path i = g.path i) : f.LosesRuns g' i e := by
  obtain ⟨hempty, ⟨htakes, hfree, hcounted⟩, ⟨hleft, hmark, hsettled⟩⟩ := h
  have hcue : ∀ h, g'.cue h = g.cue h := fun h => by rw [Floor.cue, Floor.cue, hcues]
  refine ⟨hruns.trans hempty, ⟨fun h c hc => ?_, fun h hc => (hcue h).trans (hfree h hc), fun k => ?_⟩,
    ⟨fun t c => hruns.trans (hleft t c), hmarks.trans hmark, fun t c => hpath.trans (hsettled t c)⟩⟩
  · rw [hcue]
    exact htakes h c hc
  · rw [hmonitor]
    exact hcounted k

/-- A loss of runs from a floor whose counters of aborted takes are those of another monitor unit. -/
theorem Floor.LosesRuns.of_monitor {m : Monitor} (h : ({ f with monitor := m } : Floor).LosesRuns g i e)
    (hcounters : ∀ k : Fin 8, f.monitor.counters[k].source = .takesAborted → m.counters[k] = f.monitor.counters[k])
    (hfrozen : m.frozen = f.monitor.frozen) : f.LosesRuns g i e := by
  obtain ⟨hempty, ⟨htakes, hfree, hcounted⟩, ⟨hleft, hmark, hsettled⟩⟩ := h
  refine ⟨hempty, ⟨htakes, hfree, fun k => ?_⟩, ⟨hleft, hmark, hsettled⟩⟩
  intro c n hc
  have hk := hcounted k
  have hm : ({ f with monitor := m } : Floor).monitor.counters[k] = f.monitor.counters[k] := hcounters k hc
  simp only [hm, hfrozen] at hk
  exact hk hc

/-- A runner that has left its work takes another record with the same runs. -/
theorem Floor.leaveWork_modRunner_losesRuns (f : Floor) (i : Fin 4) (n : RunnerState) (e : Nat) (u : Runner → Runner)
    (hu : ∀ r, (u r).runs = r.runs) : f.LosesRuns ((f.leaveWork i n e).modRunner i u) i e :=
  (f.leaveWork_losesRuns i n e).to_agree rfl rfl (by simp [hu]) (by simp) (by simp)

end LosesRuns

/-! ## Occurrences (R144 to R148) -/

section Occurrence

variable (f : Floor) (i : Fin 4)

theorem Floor.enterHalted_notices (e : Nat) : (f.enterHalted i e).notices = f.notices := by
  unfold Floor.enterHalted
  dsimp only
  split
  · exact f.leaveWork_notices i .halted e
  · rfl

theorem Floor.enterHold_notices (h e : Nat) : (f.enterHold i h e).notices = f.notices := by
  unfold Floor.enterHold
  split
  case h_5 => exact f.leaveWork_notices i .hold e
  all_goals rfl

theorem Floor.enterHalted_runner (e : Nat) : (f.enterHalted i e).runner i =
    if (f.runner i).state.working then
      { f.runner i with runs := [], state := .halted, blankingCount := 0, holdOff := 0 }
    else { f.runner i with state := .halted, holdOff := 0 } := by
  unfold Floor.enterHalted
  dsimp only
  split
  · rw [Floor.modRunner_runner, Floor.leaveWork_runner]
  · rw [Floor.modRunner_runner]

theorem Floor.enterHold_of_working {h e : Nat} (hw : (f.runner i).state.working = true) :
    f.enterHold i h e = (f.leaveWork i .hold e).modRunner i fun r => { r with holdOff := h } := by
  unfold Floor.enterHold
  split
  case h_5 => rfl
  all_goals next hs => rw [hs] at hw; cases hw

variable (c : Condition)

/-- A RATE_MISMATCH reaches the monitor unit, whatever its mode (R186). -/
def Floor.mismatchCounted : Floor := if c = .rateMismatch then f.countOccurrence i .rateMismatches else f

/-- An occurrence counted, and noticed. -/
def Floor.noticed : Floor := (f.mismatchCounted i c).setNotice (.ofStage i c.notice)

theorem Floor.mismatchCounted_eq : ∃ m, f.mismatchCounted i c = { f with monitor := m } ∧
    (∀ k : Fin 8, f.monitor.counters[k].source = .takesAborted → m.counters[k] = f.monitor.counters[k]) ∧
    m.frozen = f.monitor.frozen := by
  unfold Floor.mismatchCounted
  split
  · refine ⟨(f.countOccurrence i .rateMismatches).monitor, rfl, fun k hk => ?_, rfl⟩
    simp only [Floor.countOccurrence, Floor.modCounters, Fin.getElem_fin, Vector.getElem_map]
    simp only [Fin.getElem_fin] at hk
    simp [hk]
  · exact ⟨f.monitor, rfl, fun _ _ => rfl, rfl⟩

theorem Floor.mismatchCounted_end : (f.mismatchCounted i c).occurrenceEnd i c =
    if c = .dropout then (f.runner i).lastPosition else (f.tracker i).position := by
  cases c <;> rfl

theorem Floor.occurrence_offline (h : (f.runner i).state = .offline) : f.occurrence i c = f := by
  unfold Floor.occurrence
  rw [if_pos h]

variable {f i} (h : (f.runner i).state ≠ .offline)
include h

/-- The table of R146, for a runner that is not OFFLINE. -/
theorem Floor.occurrence_eq : f.occurrence i c =
    match (f.faults i).mode c with
    | .halt => (f.noticed i c).enterHalted i (if c = .dropout then (f.runner i).lastPosition else (f.tracker i).position)
    | .resumeSlow =>
      (f.noticed i c).enterHold i 120 (if c = .dropout then (f.runner i).lastPosition else (f.tracker i).position)
    | .resumeFast =>
      (f.noticed i c).enterHold i 12 (if c = .dropout then (f.runner i).lastPosition else (f.tracker i).position)
    | .report => f.noticed i c
    | .ignore => f.mismatchCounted i c := by
  obtain ⟨m, hm, -, -⟩ := f.mismatchCounted_eq i c
  have hfaults : (f.mismatchCounted i c).faults i = f.faults i := by rw [hm]; rfl
  rw [← f.mismatchCounted_end i c, ← hfaults]
  unfold Floor.occurrence
  rw [if_neg h]
  rfl

theorem Floor.occurrence_ignore (hm : (f.faults i).mode c = .ignore) : f.occurrence i c = f.mismatchCounted i c := by
  rw [f.occurrence_eq c h, hm]

theorem Floor.occurrence_report (hm : (f.faults i).mode c = .report) : f.occurrence i c = f.noticed i c := by
  rw [f.occurrence_eq c h, hm]

theorem Floor.occurrence_halt (hm : (f.faults i).mode c = .halt) : f.occurrence i c =
    (f.noticed i c).enterHalted i (if c = .dropout then (f.runner i).lastPosition else (f.tracker i).position) := by
  rw [f.occurrence_eq c h, hm]

theorem Floor.occurrence_resume {hold : Nat}
    (hm : (f.faults i).mode c = .resumeSlow ∧ hold = 120 ∨ (f.faults i).mode c = .resumeFast ∧ hold = 12) :
    f.occurrence i c = (f.noticed i c).enterHold i hold
      (if c = .dropout then (f.runner i).lastPosition else (f.tracker i).position) := by
  rcases hm with ⟨hm, rfl⟩ | ⟨hm, rfl⟩ <;> rw [f.occurrence_eq c h, hm]

omit h

theorem Floor.noticed_stages : (f.noticed i c).stages = f.stages := by
  obtain ⟨m, hm, -, -⟩ := f.mismatchCounted_eq i c
  rw [Floor.noticed, hm]
  rfl

theorem Floor.noticed_runner : (f.noticed i c).runner i = f.runner i := by
  rw [Floor.runner, Floor.stage, Floor.noticed_stages]
  rfl

theorem Floor.noticed_notices : (f.noticed i c).notices = f.notices.set (Notice.ofStage i c.notice).index true := by
  obtain ⟨m, hm, -, -⟩ := f.mismatchCounted_eq i c
  rw [Floor.noticed, hm]
  rfl

theorem Floor.noticed_cues : (f.noticed i c).cues = f.cues := by
  obtain ⟨m, hm, -, -⟩ := f.mismatchCounted_eq i c
  rw [Floor.noticed, hm]
  rfl

/-- A loss of runs by an occurrence, seen from before it was counted and noticed. -/
theorem Floor.LosesRuns.of_noticed {g : Floor} {e : Nat} (l : (f.noticed i c).LosesRuns g i e) : f.LosesRuns g i e := by
  obtain ⟨m, hm, hcounters, hfrozen⟩ := f.mismatchCounted_eq i c
  have hstages := f.noticed_stages (i := i) c
  have hstage : ∀ j, (f.noticed i c).stage j = f.stage j := fun j => by rw [Floor.stage, hstages]; rfl
  have hnow : (f.noticed i c).now = f.now := by rw [Floor.noticed, hm]; rfl
  have hmonitor : (f.noticed i c).monitor = m := by rw [Floor.noticed, hm]; rfl
  refine Floor.LosesRuns.of_monitor (m := m) (l.of_agree (f.noticed_cues c) hmonitor hnow (fun j => ?_) ?_ ?_ ?_ ?_)
    hcounters hfrozen
  · rw [Floor.runner, hstage]; rfl
  · rw [Floor.runner, hstage]; rfl
  · rw [Floor.path, hstage]; rfl
  · rw [Floor.overlay, hstage]; rfl
  · rw [Floor.tracker, hstage]; rfl

variable {c : Condition}

include h in
theorem Floor.occurrence_notices (hm : (f.faults i).mode c ≠ .ignore) :
    (f.occurrence i c).notices = f.notices.set (Notice.ofStage i c.notice).index true := by
  rw [← f.noticed_notices c, Floor.occurrence_eq c h]
  cases hmc : (f.faults i).mode c with
  | halt => exact Floor.enterHalted_notices _ i _
  | resumeSlow => exact Floor.enterHold_notices _ i _ _
  | resumeFast => exact Floor.enterHold_notices _ i _ _
  | report => rfl
  | ignore => exact absurd hmc hm

theorem RunnerState.working_iff (x : RunnerState) : x.working = true ↔ x = .chasing ∨ x = .blanked := by
  cases x <;> simp [RunnerState.working]

theorem RunnerState.ne_offline_of_working {x : RunnerState} (hw : x.working = true) : x ≠ .offline := by
  rintro rfl
  cases hw

/-- A working runner loses its runs in every mode but IGNORE and REPORT (R147). -/
theorem Floor.occurrence_losesRuns (hw : (f.runner i).state.working = true) (hi : (f.faults i).mode c ≠ .ignore)
    (hr : (f.faults i).mode c ≠ .report) : f.LosesRuns (f.occurrence i c) i
      (if c = .dropout then (f.runner i).lastPosition else (f.tracker i).position) := by
  have ho := RunnerState.ne_offline_of_working hw
  have hw' : ((f.noticed i c).runner i).state.working = true := by rw [Floor.noticed_runner]; exact hw
  have hresume : ∀ {hold : Nat}, (f.faults i).mode c = .resumeSlow ∧ hold = 120 ∨
      (f.faults i).mode c = .resumeFast ∧ hold = 12 → f.LosesRuns (f.occurrence i c) i
        (if c = .dropout then (f.runner i).lastPosition else (f.tracker i).position) := fun {hold} hm => by
    rw [Floor.occurrence_resume c ho hm, Floor.enterHold_of_working _ _ hw']
    refine .of_noticed c (Floor.leaveWork_modRunner_losesRuns _ i _ _ _ ?_)
    exact fun _ => rfl
  cases hmc : (f.faults i).mode c with
  | halt =>
    rw [Floor.occurrence_halt c ho hmc, Floor.enterHalted, if_pos hw']
    refine .of_noticed c (Floor.leaveWork_modRunner_losesRuns _ i _ _ _ ?_)
    exact fun _ => rfl
  | resumeSlow => exact hresume (.inl ⟨hmc, rfl⟩)
  | resumeFast => exact hresume (.inr ⟨hmc, rfl⟩)
  | report => exact absurd hmc hr
  | ignore => exact absurd hmc hi

/-- A runner that does not work has no runs to abort: HOLD and HALTED change its own record alone. -/
theorem Floor.enterHold_idle (hw : (f.runner i).state.working = false) (hold e : Nat) :
    (f.enterHold i hold e).cues = f.cues ∧ (f.enterHold i hold e).monitor = f.monitor := by
  unfold Floor.enterHold
  cases hs : (f.runner i).state with
  | chasing => rw [hs] at hw; cases hw
  | blanked => rw [hs] at hw; cases hw
  | offline => exact ⟨rfl, rfl⟩
  | standby => exact ⟨rfl, rfl⟩
  | hold => exact ⟨rfl, rfl⟩
  | halted => exact ⟨rfl, rfl⟩

theorem Floor.enterHalted_idle (hw : (f.runner i).state.working = false) (e : Nat) :
    (f.enterHalted i e).cues = f.cues ∧ (f.enterHalted i e).monitor = f.monitor := by
  unfold Floor.enterHalted
  rw [hw]
  exact ⟨rfl, rfl⟩

include h in
/-- An occurrence that aborts nothing reaches the monitor unit by its own count alone (R186). -/
theorem Floor.occurrence_quiet (hq : (f.faults i).mode c = .ignore ∨ (f.faults i).mode c = .report ∨
    (f.runner i).state.working = false) : (f.occurrence i c).cues = f.cues ∧
      (f.occurrence i c).monitor = (f.mismatchCounted i c).monitor := by
  have hidle : (f.faults i).mode c ≠ .ignore → (f.faults i).mode c ≠ .report →
      ((f.noticed i c).runner i).state.working = false := fun hi hr => by
    rw [Floor.noticed_runner]
    exact (hq.resolve_left hi).resolve_left hr
  rw [← f.noticed_cues (i := i) c, Floor.occurrence_eq c h]
  cases hmc : (f.faults i).mode c with
  | report => exact ⟨rfl, rfl⟩
  | ignore => exact ⟨rfl, rfl⟩
  | halt => exact Floor.enterHalted_idle (hidle (by rw [hmc]; decide) (by rw [hmc]; decide)) _
  | resumeSlow => exact Floor.enterHold_idle (hidle (by rw [hmc]; decide) (by rw [hmc]; decide)) _ _
  | resumeFast => exact Floor.enterHold_idle (hidle (by rw [hmc]; decide) (by rw [hmc]; decide)) _ _

/-- What a mode RESUME makes of the runner, by its state (R146, R148). -/
theorem Floor.enterHold_runner (hold e : Nat) :
    ((f.runner i).state = .standby → (f.enterHold i hold e).runner i = { f.runner i with state := .hold, holdOff := hold }) ∧
    ((f.runner i).state = .hold →
      (f.enterHold i hold e).runner i = { f.runner i with holdOff := max (f.runner i).holdOff hold }) ∧
    ((f.runner i).state = .halted → (f.enterHold i hold e).runner i = f.runner i) ∧
    ((f.runner i).state.working = true → (f.enterHold i hold e).runner i =
      { f.runner i with runs := [], state := .hold, blankingCount := 0, holdOff := hold }) := by
  refine ⟨fun hs => ?_, fun hs => ?_, fun hs => ?_, fun hw => ?_⟩
  · simp only [Floor.enterHold, hs, Floor.modRunner_runner]
  · simp only [Floor.enterHold, hs, Floor.modRunner_runner]
  · simp only [Floor.enterHold, hs]
  · rw [Floor.enterHold_of_working _ _ hw, Floor.modRunner_runner, Floor.leaveWork_runner]

include h in
theorem Floor.occurrence_ignored (hm : (f.faults i).mode c = .ignore) :
    (f.occurrence i c).stages = f.stages ∧ (f.occurrence i c).notices = f.notices := by
  obtain ⟨m, hmonitor, -, -⟩ := f.mismatchCounted_eq i c
  rw [Floor.occurrence_ignore c h hm, hmonitor]
  exact ⟨rfl, rfl⟩

include h in
theorem Floor.occurrence_halt_runner (hm : (f.faults i).mode c = .halt) : (f.occurrence i c).runner i =
    if (f.runner i).state.working then
      { f.runner i with runs := [], state := .halted, blankingCount := 0, holdOff := 0 }
    else { f.runner i with state := .halted, holdOff := 0 } := by
  rw [Floor.occurrence_halt c h hm, Floor.enterHalted_runner, Floor.noticed_runner]

include h in
theorem Floor.occurrence_resume_runner {hold : Nat}
    (hm : (f.faults i).mode c = .resumeSlow ∧ hold = 120 ∨ (f.faults i).mode c = .resumeFast ∧ hold = 12) :
    ((f.runner i).state = .standby → (f.occurrence i c).runner i = { f.runner i with state := .hold, holdOff := hold }) ∧
    ((f.runner i).state = .hold →
      (f.occurrence i c).runner i = { f.runner i with holdOff := max (f.runner i).holdOff hold }) ∧
    ((f.runner i).state = .halted → (f.occurrence i c).runner i = f.runner i) ∧
    ((f.runner i).state.working = true → (f.occurrence i c).runner i =
      { f.runner i with runs := [], state := .hold, blankingCount := 0, holdOff := hold }) := by
  rw [Floor.occurrence_resume c h hm, ← f.noticed_runner c]
  exact Floor.enterHold_runner hold _

end Occurrence

/-- Settles O54: the table of R146, mode by mode. -/
theorem occurrenceFollowsMode : Obligations.OccurrenceFollowsMode := by
  intro f i c r g m notice mode n
  have hmode : mode = (f.faults i).mode c := by cases c <;> rfl
  have hset : f.notices.set (Notice.ofStage i c.notice).index true = f.notices.set n true := by cases c <;> rfl
  rw [hmode]
  refine ⟨(f.runner i).state.working_iff, f.occurrence_offline i c, fun h hm => Floor.occurrence_ignored h hm,
    fun h hm => (Floor.occurrence_notices h hm).trans hset,
    fun h hm => (congrArg Floor.stages (Floor.occurrence_report c h hm)).trans (f.noticed_stages c), fun h hm => ?_,
    fun hold hm => ⟨fun hs => ?_, fun hs => ?_, fun hs => ?_, fun hw => ?_⟩,
    fun hw hi hr => Floor.occurrence_losesRuns hw hi hr, fun h hq => Floor.occurrence_quiet h hq,
    (f.occurrence_stageEvent i c).stages⟩
  · have hg : g.runner i = _ := Floor.occurrence_halt_runner h hm
    rw [hg]
    split
    · exact ⟨rfl, rfl, fun _ => ⟨rfl, rfl⟩⟩
    · next hw => exact ⟨rfl, rfl, fun hw' => absurd hw' hw⟩
  · exact (Floor.occurrence_resume_runner (by rw [show (f.runner i).state = _ from hs]; decide) hm).1 hs
  · exact (Floor.occurrence_resume_runner (by rw [show (f.runner i).state = _ from hs]; decide) hm).2.1 hs
  · exact (Floor.occurrence_resume_runner (by rw [show (f.runner i).state = _ from hs]; decide) hm).2.2.1 hs
  · have hg : g.runner i = _ := (Floor.occurrence_resume_runner (RunnerState.ne_offline_of_working hw) hm).2.2.2 hw
    rw [hg]
    exact ⟨rfl, rfl, rfl, rfl⟩

end Sys2Proof.Machine
end

section
/-! Runs aborted on several stages: what they leave of a cue and of the monitor unit, in whatever order the stages come (R40,
R41, R42, R122, R186). -/

namespace Sys2Proof.Machine

/-! ## A cue that loses runs -/

/-- The takes of the PUNCHED ones of some runs of several stages. -/
def takesOf (ended : Fin 4 → Nat) (l : List (Fin 4 × Run)) : List Take :=
  (l.filter fun e => e.2.punch == .punched).map fun e => e.2.abortedTake e.1 (ended e.1)

theorem takesOf_append (ended : Fin 4 → Nat) (l m : List (Fin 4 × Run)) :
    takesOf ended (l ++ m) = takesOf ended l ++ takesOf ended m := by
  simp [takesOf]

theorem takesOf_stage (ended : Fin 4 → Nat) (i : Fin 4) (l : List Run) :
    takesOf ended (l.map fun r => (i, r)) = abortedTakes i (ended i) l := by
  simp only [takesOf, abortedTakes, List.filter_map, List.map_map]
  rfl

/-- From c to d a cue loses runs: its in-flight count falls by them, and each PUNCHED one makes a take report, of which any
becomes the last take (R40, R41, R42). -/
def Cue.Loses (ended : Fin 4 → Nat) (l : List (Fin 4 × Run)) (c d : Cue) : Prop :=
  ∃ last, d = { c with
      inFlight := c.inFlight - l.length
      takeCount := if takesOf ended l = [] then c.takeCount else min (c.takeCount + (takesOf ended l).length) 999
      lastTake := last } ∧
    (takesOf ended l = [] → last = c.lastTake) ∧ (takesOf ended l ≠ [] → ∃ t ∈ takesOf ended l, last = some t)

theorem Cue.Loses.nil (ended : Fin 4 → Nat) (c : Cue) : c.Loses ended [] c :=
  ⟨c.lastTake, rfl, fun _ => rfl, fun h => absurd rfl h⟩

theorem Cue.Loses.stage (ended : Fin 4 → Nat) (i : Fin 4) (l : List Run) (c : Cue) :
    c.Loses ended (l.map fun r => (i, r)) (l.foldl (Cue.aborted i (ended i)) c) := by
  obtain ⟨last, hfold, hnone, hsome⟩ := Cue.foldl_aborted i (ended i) l c
  rw [Cue.Loses, takesOf_stage, List.length_map]
  exact ⟨last, hfold, hnone, hsome⟩

theorem Cue.Loses.append {ended : Fin 4 → Nat} {l m : List (Fin 4 × Run)} {c d e : Cue} (h : c.Loses ended l d)
    (k : d.Loses ended m e) : c.Loses ended (l ++ m) e := by
  obtain ⟨x, rfl, hnone, hsome⟩ := h
  obtain ⟨y, rfl, hnone', hsome'⟩ := k
  refine ⟨y, ?_, fun hall => ?_, fun hall => ?_⟩
  · rw [takesOf_append]
    simp only [Cue.mk.injEq, List.length_append, List.append_eq_nil_iff, true_and, and_true]
    refine ⟨?_, by omega⟩
    by_cases hl : takesOf ended l = []
    · simp [hl]
    · by_cases hm : takesOf ended m = []
      · simp [hl, hm]
      · simp only [hl, hm, ↓reduceIte, and_self]
        omega
  · rw [takesOf_append, List.append_eq_nil_iff] at hall
    rw [hnone' hall.2, hnone hall.1]
  · rw [takesOf_append] at hall ⊢
    by_cases hm : takesOf ended m = []
    · obtain ⟨t, ht, hx⟩ := hsome fun hl => hall (by rw [hl, hm]; rfl)
      exact ⟨t, List.mem_append_left _ ht, (hnone' hm).trans hx⟩
    · obtain ⟨t, ht, hy⟩ := hsome' hm
      exact ⟨t, List.mem_append_right _ ht, hy⟩

/-- The order of the stages does not matter (R42). -/
theorem Cue.Loses.perm {ended : Fin 4 → Nat} {l m : List (Fin 4 × Run)} {c d : Cue} (h : c.Loses ended l d)
    (p : l.Perm m) : c.Loses ended m d := by
  have htakes : (takesOf ended l).Perm (takesOf ended m) := (p.filter _).map _
  have hnil : takesOf ended m = [] ↔ takesOf ended l = [] := by
    rw [← List.length_eq_zero_iff, ← htakes.length_eq, List.length_eq_zero_iff]
  obtain ⟨x, rfl, hnone, hsome⟩ := h
  refine ⟨x, ?_, fun hm => hnone (hnil.1 hm), fun hm => ?_⟩
  · rw [p.length_eq, htakes.length_eq]
    simp only [hnil]
  · obtain ⟨t, ht, hx⟩ := hsome fun hl => hm (hnil.2 hl)
    exact ⟨t, htakes.mem_iff.1 ht, hx⟩

/-! ## Aborts on one stage -/

/-- From f to g some of a stage's runs are aborted, their takes ended at a position, as far as the cues and the counters of
aborted takes go. -/
structure Floor.AbortsAt (f g : Floor) (i : Fin 4) (which : Run → Bool) (e : Nat) : Prop where
  cue : ∀ h, g.cue h = (f.cue h).map fun c =>
    (((f.runner i).runs.filter which).filter fun r => r.handle == h).foldl (Cue.aborted i e) c
  counter : ∀ k : Fin 8, f.monitor.counters[k].source = .takesAborted → ∃ memory, g.monitor.counters[k] =
    { f.monitor.counters[k].counted f.monitor.frozen (f.monitor.counters[k].sees i
        (((f.runner i).runs.filter which).filter fun r => r.punch == .punched).length) with memory := memory }
  frozen : g.monitor.frozen = f.monitor.frozen

section AbortsAt

variable {f g g' : Floor} {i : Fin 4} {which : Run → Bool} {e : Nat}

theorem Floor.foldl_abortRun_frozen (f : Floor) (i : Fin 4) (e : Nat) (l : List Run) :
    (l.foldl (fun f r => f.abortRun i r e) f).monitor.frozen = f.monitor.frozen := by
  induction l generalizing f with
  | nil => rfl
  | cons r l ih => exact (ih _).trans (f.abortRun_frozen i r e)

theorem Floor.AbortsAt.foldl (f : Floor) (i : Fin 4) (which : Run → Bool) (e : Nat) :
    f.AbortsAt (((f.runner i).runs.filter which).foldl (fun f r => f.abortRun i r e) f) i which e where
  cue h := f.foldl_abortRun_cue i e h _
  counter k hk := ⟨_, f.foldl_abortRun_counter i e k _ hk⟩
  frozen := f.foldl_abortRun_frozen i e _

theorem Floor.AbortsAt.to_agree (a : f.AbortsAt g i which e) (hcues : g'.cues = g.cues) (hmonitor : g'.monitor = g.monitor) :
    f.AbortsAt g' i which e where
  cue h := by rw [Floor.cue, hcues]; exact a.cue h
  counter k hk := by rw [hmonitor]; exact a.counter k hk
  frozen := by rw [hmonitor]; exact a.frozen

theorem Floor.PathOnly.cues {f g : Floor} {i : Fin 4} (a : Floor.PathOnly i f g) :
    g.cues = f.cues ∧ g.monitor = f.monitor := by
  obtain ⟨p, c, -, rfl⟩ := a
  exact ⟨rfl, rfl⟩

theorem Floor.AbortsAt.abortRuns (f : Floor) (i : Fin 4) (which : Run → Bool) (e : Nat) :
    f.AbortsAt (f.abortRuns i which e) i which e :=
  have hsettle := (Floor.settlePath_pathOnly (((f.runner i).runs.filter which).foldl (fun f r => f.abortRun i r e) f) i).cues
  (Floor.AbortsAt.foldl f i which e).to_agree hsettle.1 hsettle.2

theorem Floor.AbortsAt.leaveWork (f : Floor) (i : Fin 4) (n : RunnerState) (e : Nat) :
    f.AbortsAt (f.leaveWork i n e) i (fun _ => true) e :=
  (Floor.AbortsAt.abortRuns f i _ e).to_agree rfl rfl

end AbortsAt

/-! ## Aborts on several stages -/

/-- The runs that name a cue, of those aborted on some stages. -/
def Floor.abortedOn (f : Floor) (l : List (Fin 4)) (which : Run → Bool) (h : Nat) : List (Fin 4 × Run) :=
  l.flatMap fun i => (((f.runner i).runs.filter which).filter fun r => r.handle == h).map fun r => (i, r)

/-- Occurrences add up, whatever the edge memory between them. -/
theorem Counter.counted_memory_counted (frozen : Bool) (m n : Nat) (c : Counter) (x y : EdgeMemory) :
    { ({ c.counted frozen m with memory := x } : Counter).counted frozen n with memory := y } =
      { c.counted frozen (m + n) with memory := y } := by
  rw [← Counter.counted_counted]
  unfold Counter.counted
  split <;> split <;> simp_all

/-- Operations on some stages, each of its own, that abort runs where the stage stands: what they leave of the cues and of
the counters. -/
theorem Floor.foldl_abortsAt {op : Fin 4 → Floor → Floor} {which : Run → Bool}
    (hop : ∀ (j : Fin 4) (g : Floor), Floor.StageEvent j g (op j g)) (l : List (Fin 4)) (hl : l.Nodup) (f : Floor)
    (ended : Fin 4 → Nat)
    (habort : ∀ i ∈ l, ∀ g : Floor, g.stage i = f.stage i → g.AbortsAt (op i g) i which (ended i)) :
    let g := l.foldl (fun f i => op i f) f
    (∀ h c, f.cue h = some c → ∃ d, g.cue h = some d ∧ c.Loses ended (f.abortedOn l which h) d) ∧
    (∀ h, f.cue h = none → g.cue h = none) ∧ g.monitor.frozen = f.monitor.frozen ∧
    ∀ k : Fin 8, f.monitor.counters[k].source = .takesAborted → ∃ memory, g.monitor.counters[k] =
      { f.monitor.counters[k].counted f.monitor.frozen (if f.monitor.counters[k].stage ∈ l then
          (((f.runner f.monitor.counters[k].stage).runs.filter which).filter fun r => r.punch == .punched).length else 0)
        with memory := memory } := by
  induction l generalizing f with
  | nil =>
    refine ⟨fun h c hc => ⟨c, hc, .nil ended c⟩, fun h hc => hc, rfl, fun k _ => ⟨f.monitor.counters[k].memory, ?_⟩⟩
    rw [if_neg List.not_mem_nil, Counter.counted_zero]
    rfl
  | cons i l ih =>
    obtain ⟨hi, hnodup⟩ := List.nodup_cons.1 hl
    have a := habort i List.mem_cons_self f rfl
    have hstage : ∀ j ∈ l, (op i f).stage j = f.stage j := fun j hj =>
      (hop i f).stages j fun heq => hi (heq ▸ hj)
    have hrunner : ∀ j ∈ l, (op i f).runner j = f.runner j := fun j hj => congrArg Stage.runner (hstage j hj)
    obtain ⟨hcue, hfree, hfrozen, hcounter⟩ := ih hnodup (op i f) fun j hj g hg =>
      habort j (List.mem_cons_of_mem _ hj) g (hg.trans (hstage j hj))
    have hlist : ∀ h, (op i f).abortedOn l which h = f.abortedOn l which h := fun h => by
      unfold Floor.abortedOn
      exact List.flatMap_congr fun j hj => by rw [hrunner j hj]
    have hcount : ∀ j, (if j = i then (((f.runner i).runs.filter which).filter fun r => r.punch == .punched).length else 0) +
        (if j ∈ l then ((((op i f).runner j).runs.filter which).filter fun r => r.punch == .punched).length else 0) =
        if j ∈ i :: l then (((f.runner j).runs.filter which).filter fun r => r.punch == .punched).length else 0 := fun j => by
      by_cases hj : j = i
      · simp [hj, hi]
      · by_cases hmem : j ∈ l
        · simp [hj, hmem, hrunner j hmem]
        · simp [hj, hmem]
    refine ⟨fun h c hc => ?_, fun h hc => hfree h ?_, hfrozen.trans a.frozen, fun k hk => ?_⟩
    · obtain ⟨d, hd, hloses⟩ := hcue h _ ((a.cue h).trans (by rw [hc]; rfl))
      rw [hlist] at hloses
      exact ⟨d, hd, (Cue.Loses.stage ended i _ c).append hloses⟩
    · rw [a.cue, hc]; rfl
    · obtain ⟨memory, hone⟩ := a.counter k hk
      have hsource : (op i f).monitor.counters[k].source = .takesAborted := by
        rw [hone]
        exact (Counter.counted_source ..).trans hk
      obtain ⟨memory', hrest⟩ := hcounter k hsource
      have hat : (op i f).monitor.counters[k].stage = f.monitor.counters[k].stage := by
        rw [hone]
        exact Counter.counted_stage ..
      refine ⟨memory', hrest.trans ?_⟩
      rw [hat, hone, a.frozen, Counter.counted_memory_counted, Counter.sees, hcount]

theorem flatMap_filter_eq {α β : Type} (p : α → Bool) (g : α → List β) (l : List α) :
    (l.filter p).flatMap g = l.flatMap fun a => if p a then g a else [] := by
  induction l with
  | nil => rfl
  | cons a l ih => cases hp : p a <;> simp [List.filter_cons, hp, ih]

/-- The runs aborted on some stages, in their order, are the runs that a rule aborts. -/
theorem Floor.abortedOn_perm (f : Floor) (l : List (Fin 4)) (hl : l.Nodup) (which : Run → Bool) (gone : Fin 4 → Run → Bool)
    (hgone : ∀ j, ∀ r ∈ (f.runner j).runs, gone j r = (decide (j ∈ l) && which r)) (h : Nat) :
    (f.abortedOn l which h).Perm (f.abortedRuns gone h) := by
  have hstages : l.Perm ((List.finRange 4).filter fun j => decide (j ∈ l)) :=
    (List.perm_ext_iff_of_nodup hl ((List.nodup_finRange 4).filter _)).2 fun j => by simp
  refine (hstages.flatMap_right _).trans (.of_eq ?_)
  rw [flatMap_filter_eq]
  refine List.flatMap_congr fun j _ => ?_
  have hruns : ((f.runner j).runs.filter fun r => gone j r && r.handle == h) =
      (f.runner j).runs.filter fun r => (decide (j ∈ l) && which r) && r.handle == h :=
    List.filter_congr fun r hr => by rw [hgone j r hr]
  rw [hruns]
  by_cases hj : j ∈ l
  · simp [hj, List.filter_filter, Bool.and_comm]
  · simp [hj]

theorem Floor.foldl_takesAborted {op : Fin 4 → Floor → Floor} {which : Run → Bool} {gone : Fin 4 → Run → Bool}
    (hop : ∀ (j : Fin 4) (g : Floor), Floor.StageEvent j g (op j g)) (l : List (Fin 4)) (hl : l.Nodup) (f : Floor)
    (ended : Fin 4 → Nat)
    (habort : ∀ i ∈ l, ∀ g : Floor, g.stage i = f.stage i → g.AbortsAt (op i g) i which (ended i))
    (hgone : ∀ j, ∀ r ∈ (f.runner j).runs, gone j r = (decide (j ∈ l) && which r)) :
    f.TakesAborted (l.foldl (fun f i => op i f) f) gone ended := by
  obtain ⟨hcue, hfree, -, hcounter⟩ := Floor.foldl_abortsAt hop l hl f ended habort
  refine ⟨fun h c hc => ?_, hfree, fun k => ?_⟩
  · obtain ⟨d, hd, hloses⟩ := hcue h c hc
    obtain ⟨last, rfl, hlast⟩ := hloses.perm (f.abortedOn_perm l hl which gone hgone h)
    exact ⟨last, hd, hlast⟩
  · intro c n hc
    obtain ⟨memory, hk⟩ := hcounter k hc
    have hn : (if c.stage ∈ l then (((f.runner c.stage).runs.filter which).filter fun r => r.punch == .punched).length
        else 0) = n := by
      have hruns : ((f.runner c.stage).runs.filter fun r => gone c.stage r && r.punch == .punched) =
          (f.runner c.stage).runs.filter fun r => (decide (c.stage ∈ l) && which r) && r.punch == .punched :=
        List.filter_congr fun r hr => by rw [hgone c.stage r hr]
      simp only [n, hruns]
      by_cases hj : c.stage ∈ l
      · simp [hj, List.filter_filter, Bool.and_comm]
      · simp [hj]
    rw [hk]
    simp only
    rw [Counter.counted_value, hn]

end Sys2Proof.Machine
end

section
/-! STAGE_DISABLE and STAGE_RESET (R105, R106, R143, R158, R180, R185). -/

namespace Sys2Proof.Machine

theorem Notice.index_injective {m n : Notice} (h : m.index = n.index) : m = n := by
  have hplace : ∀ a : StageNotice, a.place < 6 := fun a => by cases a <;> decide
  have hback : ∀ a : StageNotice, StageNotice.ofPlace a.place = some a := fun a => by cases a <;> rfl
  have hname : ∀ a b : StageNotice, a.place = b.place → a = b := fun a b hab =>
    Option.some.inj ((hback a).symm.trans ((congrArg StageNotice.ofPlace hab).trans (hback b)))
  cases m with
  | ofStage i a =>
    have ha := hplace a
    have hi := i.isLt
    cases n with
    | ofStage j b =>
      have hb := hplace b
      have hindex : 6 * i.val + a.place = 6 * j.val + b.place := congrArg Fin.val h
      rw [Fin.ext (by omega : i.val = j.val), hname a b (by omega)]
    | linkDropped =>
      have hindex : 6 * i.val + a.place = 24 := congrArg Fin.val h
      omega
    | reelClosed =>
      have hindex : 6 * i.val + a.place = 25 := congrArg Fin.val h
      omega
  | linkDropped =>
    cases n with
    | ofStage j b =>
      have hb := hplace b
      have hindex : 24 = 6 * j.val + b.place := congrArg Fin.val h
      omega
    | linkDropped => rfl
    | reelClosed => cases h
  | reelClosed =>
    cases n with
    | ofStage j b =>
      have hb := hplace b
      have hindex : 25 = 6 * j.val + b.place := congrArg Fin.val h
      omega
    | linkDropped => cases h
    | reelClosed => rfl

section Disable

variable (f : Floor) (i : Fin 4)

/-! ## The takes -/

theorem Floor.TakesAborted.to_agree {f g g' : Floor} {gone : Fin 4 → Run → Bool} {ended : Fin 4 → Nat}
    (a : f.TakesAborted g gone ended) (hcues : g'.cues = g.cues) (hmonitor : g'.monitor = g.monitor) :
    f.TakesAborted g' gone ended where
  cues h c hc := by rw [Floor.cue, hcues]; exact a.cues h c hc
  free h hc := by rw [Floor.cue, hcues]; exact a.free h hc
  counted k := by rw [hmonitor]; exact a.counted k

/-- A counter's edge memory as a disable leaves it (R185). -/
theorem Floor.forgetEdges_counter (k : Fin 8) : (f.forgetEdges i).monitor.counters[k] =
    if f.monitor.counters[k].stage = i then { f.monitor.counters[k] with memory := .unknown }
    else f.monitor.counters[k] := by
  simp [Floor.forgetEdges, Floor.modCounters]

theorem Floor.AbortsAt.forgetEdges {f g : Floor} {i j : Fin 4} {which : Run → Bool} {e : Nat}
    (a : f.AbortsAt g i which e) : f.AbortsAt (g.forgetEdges j) i which e where
  cue h := a.cue h
  frozen := a.frozen
  counter k hk := by
    obtain ⟨memory, hcounter⟩ := a.counter k hk
    rw [Floor.forgetEdges_counter, hcounter]
    split
    · exact ⟨.unknown, rfl⟩
    · exact ⟨memory, rfl⟩

theorem Floor.disable_abortsAt : f.AbortsAt (f.disable i) i (fun _ => true) (f.tracker i).position := by
  have a := Floor.AbortsAt.foldl f i (fun _ => true) (f.tracker i).position
  rw [List.filter_true] at a
  exact Floor.AbortsAt.forgetEdges (a.to_agree rfl (by simp [Floor.quietOverlay, Floor.freePath]))

theorem Floor.disable_stageEvent : Floor.StageEvent i f (f.disable i) :=
  (Floor.StageEvent.foldl f i _ _ fun g r => g.abortRun_stageEvent i r _).trans ((Floor.StageEvent.modRunner _ i _).trans
    ((Floor.StageEvent.modTracker _ i _).trans ((Floor.StageEvent.modStage _ i _).trans
      ((Floor.StageEvent.modOverlay _ i _).trans (.modCounters _ i _)))))

/-- The runs of one stage, aborted by an event of it. -/
theorem Floor.AbortsAt.takesAborted {f g : Floor} {i : Fin 4} {e : Nat} (a : f.AbortsAt g i (fun _ => true) e) :
    f.TakesAborted g (fun j _ => j == i) (fun _ => e) where
  cues h c hc := by
    have hloses := Cue.Loses.stage (fun _ => e) i ((f.runner i).runs.filter fun r => r.handle == h) c
    rw [← f.abortedRuns_stage i h] at hloses
    obtain ⟨last, hfold, hlast⟩ := hloses
    refine ⟨last, ?_, hlast⟩
    rw [a.cue, hc, List.filter_true, Option.map_some, hfold]
    rfl
  free h hc := by rw [a.cue, hc]; rfl
  counted k := by
    intro c n hc
    obtain ⟨memory, hk⟩ := a.counter k hc
    have hsees : ∀ d : Counter, d.sees i (((f.runner i).runs.filter fun _ => true).filter fun r =>
        r.punch == .punched).length =
        ((f.runner d.stage).runs.filter fun r => d.stage == i && r.punch == .punched).length := fun d => by
      by_cases hd : d.stage = i
      · simp [Counter.sees, hd]
      · have hne : (d.stage == i) = false := beq_false_of_ne hd
        simp [Counter.sees, hd, hne]
    rw [hk, hsees]
    exact Counter.counted_value ..

/-! ## The stage -/

/-- A disable after its aborts. -/
theorem Floor.disable_eq : ∃ g, g = (f.runner i).runs.foldl (fun g r => g.abortRun i r (f.tracker i).position) f ∧
    f.disable i = ((((g.modRunner i (Runner.goOffline (f.tracker i).position)).modTracker i
      Tracker.enterIdle).freePath i).quietOverlay i).forgetEdges i := ⟨_, rfl, rfl⟩

/-- The stage of a disable (R105, R143, R180). -/
theorem Floor.disable_stage : (f.disable i).stage i = {
    tracker := (f.tracker i).enterIdle
    runner := { (f.runner i).goOffline (f.tracker i).position with runs := [] }
    faults := f.faults i
    path := { f.path i with state := .free, talkWanted := false, gapExpiry := none, demand := false }
    overlay := { f.overlay i with waiting := none, lastFrame := none, flashMarks := [] } } := by
  obtain ⟨g, hg, hdisable⟩ := f.disable_eq i
  have hforget : ∀ h : Floor, (h.forgetEdges i).stage i = h.stage i := fun _ => rfl
  have hstage := f.foldl_abortRun_all i (f.tracker i).position
  rw [← hg] at hstage
  rw [hdisable, hforget, Floor.quietOverlay, Floor.modOverlay_stage, Floor.freePath, Floor.modPath_stage,
    Floor.modTracker_stage, Floor.modRunner_stage, hstage]
  simp only [Floor.tracker, Floor.runner, Floor.path, Floor.overlay, Floor.faults, Runner.goOffline]
  rfl

/-! ## The notices and the edge memories -/

theorem Floor.disable_notices : (f.disable i).notices = f.notices := by
  obtain ⟨g, hg, hdisable⟩ := f.disable_eq i
  have hforget : ∀ h : Floor, (h.forgetEdges i).notices = h.notices := fun _ => rfl
  rw [hdisable, hforget, Floor.quietOverlay, Floor.modOverlay_notices, Floor.freePath, Floor.modPath_notices,
    Floor.modTracker_notices, Floor.modRunner_notices, hg, Floor.foldl_abortRun_notices]

theorem Floor.abortRun_memory (r : Run) (e : Nat) (k : Fin 8) :
    (f.abortRun i r e).monitor.counters[k].memory = f.monitor.counters[k].memory ∧
      (f.abortRun i r e).monitor.counters[k].stage = f.monitor.counters[k].stage := by
  rw [Floor.abortRun_monitor]
  split
  · simp only [Floor.countOccurrence, Floor.modCounters, Fin.getElem_fin, Vector.getElem_map]
    split <;> exact ⟨rfl, rfl⟩
  · exact ⟨rfl, rfl⟩

theorem Floor.foldl_abortRun_memory (e : Nat) (l : List Run) (k : Fin 8) :
    (l.foldl (fun f r => f.abortRun i r e) f).monitor.counters[k].memory = f.monitor.counters[k].memory ∧
      (l.foldl (fun f r => f.abortRun i r e) f).monitor.counters[k].stage = f.monitor.counters[k].stage := by
  induction l generalizing f with
  | nil => exact ⟨rfl, rfl⟩
  | cons r l ih =>
    obtain ⟨hmemory, hstage⟩ := f.abortRun_memory i r e k
    exact ⟨(ih _).1.trans hmemory, (ih _).2.trans hstage⟩

/-- The edge memories of the stage's counters are UNKNOWN after a disable, the others stand (R185). -/
theorem Floor.disable_memory (k : Fin 8) : (f.disable i).monitor.counters[k].memory =
    if f.monitor.counters[k].stage = i then .unknown else f.monitor.counters[k].memory := by
  obtain ⟨hmemory, hstage⟩ := f.foldl_abortRun_memory i (f.tracker i).position (f.runner i).runs k
  obtain ⟨g, hg, hdisable⟩ := f.disable_eq i
  rw [← hg] at hmemory hstage
  rw [hdisable, Floor.forgetEdges_counter]
  simp only [Floor.quietOverlay, Floor.freePath, Floor.modOverlay_monitor, Floor.modPath_monitor, Floor.modTracker_monitor,
    Floor.modRunner_monitor, ← hmemory, hstage]
  split <;> rfl

/-- A cleared notice is clear, another stands. -/
theorem Floor.clearNotice_notices (m n : Notice) : (f.clearNotice m).notices[n.index] =
    if m = n then false else f.notices[n.index] := by
  have hinj : m.index = n.index ↔ m = n := ⟨fun h => Notice.index_injective h, fun h => h ▸ rfl⟩
  simp only [Floor.clearNotice, Fin.getElem_fin, Vector.getElem_set, ← Fin.ext_iff, hinj]

/-- The six notices of a stage cleared, the others as they stood (R158). -/
theorem Floor.clearStageNotices_notices (n : Notice) : (f.clearStageNotices i).notices[n.index] =
    match n with
    | .ofStage j _ => if j = i then false else f.notices[n.index]
    | _ => f.notices[n.index] := by
  simp only [Floor.clearStageNotices, List.foldl_cons, List.foldl_nil, Floor.clearNotice_notices]
  cases n with
  | ofStage j m =>
    by_cases hj : j = i
    · cases m <;> simp [hj]
    · simp [hj, Ne.symm hj]
  | linkDropped => simp
  | reelClosed => simp

/-! ## A reset of a stage (R106) -/

theorem Floor.place_stage (p : Nat) : (f.place i p).stage i = { f.stage i with
    tracker := { f.tracker i with position := p }, runner := { f.runner i with lastPosition := p } } := by
  rw [Floor.place, Floor.modRunner_stage, Floor.modTracker_stage]
  rfl

theorem Floor.foldl_clearNotice_eq (l : List StageNotice) :
    ∃ n, l.foldl (fun f m => f.clearNotice (.ofStage i m)) f = { f with notices := n } := by
  induction l generalizing f with
  | nil => exact ⟨f.notices, rfl⟩
  | cons m l ih => exact ih (f.clearNotice (.ofStage i m))

/-- What a reset adds to a disable: the position 0 and the stage's notices clear. -/
def Floor.rewound : Floor := (f.place i 0).clearStageNotices i

theorem Floor.rewound_eq : ∃ n, f.rewound i = { f.place i 0 with notices := n } :=
  Floor.foldl_clearNotice_eq _ i _

theorem Floor.rewound_stage : (f.rewound i).stage i = { f.stage i with
    tracker := { f.tracker i with position := 0 }, runner := { f.runner i with lastPosition := 0 } } := by
  obtain ⟨n, hn⟩ := f.rewound_eq i
  rw [hn]
  exact f.place_stage i 0

theorem Floor.rewound_stageEvent : Floor.StageEvent i f (f.rewound i) := by
  obtain ⟨n, hn⟩ := f.rewound_eq i
  rw [hn]
  have hplace : Floor.StageEvent i f (f.place i 0) :=
    (Floor.StageEvent.modTracker f i _).trans (Floor.StageEvent.modRunner _ i _)
  exact ⟨hplace.now, hplace.reels, hplace.chars, hplace.casts, hplace.mask, hplace.stages, hplace.cues⟩

theorem Floor.rewound_stores : (f.rewound i).cues = f.cues ∧ (f.rewound i).monitor = f.monitor := by
  obtain ⟨n, hn⟩ := f.rewound_eq i
  rw [hn]
  exact ⟨rfl, rfl⟩

theorem Floor.rewound_notices (n : Notice) : (f.rewound i).notices[n.index] =
    match n with
    | .ofStage j _ => if j = i then false else f.notices[n.index]
    | _ => f.notices[n.index] := (f.place i 0).clearStageNotices_notices i n

theorem Floor.resetStage_eq : f.resetStage i = (f.disable i).rewound i := rfl

/-- A disable, or a reset of the stage. -/
def Floor.quit (reset : Bool) : Floor := if reset then f.resetStage i else f.disable i

theorem Floor.quit_disable : f.quit i false = f.disable i := if_neg Bool.false_ne_true
theorem Floor.quit_reset : f.quit i true = (f.disable i).rewound i := (if_pos rfl).trans (f.resetStage_eq i)

theorem Floor.quit_stage (reset : Bool) : (f.quit i reset).stage i = {
    tracker := { (f.tracker i).enterIdle with position := if reset then 0 else (f.tracker i).position }
    runner := { (f.runner i).goOffline (if reset then 0 else (f.tracker i).position) with runs := [] }
    faults := f.faults i
    path := { f.path i with state := .free, talkWanted := false, gapExpiry := none, demand := false }
    overlay := { f.overlay i with waiting := none, lastFrame := none, flashMarks := [] } } := by
  have hstage := f.disable_stage i
  cases reset with
  | false => rw [Floor.quit_disable, hstage]; rfl
  | true =>
    rw [Floor.quit_reset, Floor.rewound_stage, Floor.tracker, Floor.runner, hstage]
    rfl

theorem Floor.quit_stageEvent (reset : Bool) : Floor.StageEvent i f (f.quit i reset) := by
  cases reset with
  | false => rw [Floor.quit_disable]; exact f.disable_stageEvent i
  | true => rw [Floor.quit_reset]; exact (f.disable_stageEvent i).trans (Floor.rewound_stageEvent _ i)

/-- A reset changes neither the cues nor the monitor unit beyond a disable. -/
theorem Floor.quit_stores (reset : Bool) :
    (f.quit i reset).cues = (f.disable i).cues ∧ (f.quit i reset).monitor = (f.disable i).monitor := by
  cases reset with
  | false => rw [Floor.quit_disable]; exact ⟨rfl, rfl⟩
  | true => rw [Floor.quit_reset]; exact Floor.rewound_stores _ i

theorem Floor.quit_takesAborted (reset : Bool) :
    f.TakesAborted (f.quit i reset) (fun j _ => j == i) (fun _ => (f.tracker i).position) :=
  have hstores := f.quit_stores i reset
  (f.disable_abortsAt i).takesAborted.to_agree hstores.1 hstores.2

theorem Floor.quit_notices (reset : Bool) (n : Notice) : (f.quit i reset).notices[n.index] =
    match n with
    | .ofStage j _ => if reset = true ∧ j = i then false else f.notices[n.index]
    | _ => f.notices[n.index] := by
  have hdisable := f.disable_notices i
  cases reset with
  | false =>
    rw [Floor.quit_disable, hdisable]
    cases n <;> simp
  | true =>
    rw [Floor.quit_reset, Floor.rewound_notices, hdisable]
    cases n <;> simp

theorem Floor.quit_memory (reset : Bool) (k : Fin 8) : (f.quit i reset).monitor.counters[k].memory =
    if f.monitor.counters[k].stage = i then .unknown else f.monitor.counters[k].memory := by
  rw [(f.quit_stores i reset).2, Floor.disable_memory]

end Disable

section Requests

variable {q : Request Nat} {s : State} (hs : s.Receives)
include hs

theorem exec_quit {i : Fin 4} (reset : Bool) (hq : readRequest none parse1 q = .ok i.val) :
    exec (if reset then .stageReset q else .stageDisable q) s = .next (s.carriedOut (s.floor.quit i reset)
      (if reset then Code.stageReset else Code.stageDisable) .ok []) := by
  cases reset with
  | false => exact (exec_owned hs rfl hq).trans (by simp [State.ownStageDisable, stageOfNat_val, hs, Floor.quit])
  | true => exact (exec_owned hs rfl hq).trans (by simp [State.ownStageReset, stageOfNat_val, hs, Floor.quit])

theorem exec_quit_refused {n : Nat} (hq : readRequest none parse1 q = .ok n) (hn : 3 < n) :
    exec (.stageDisable q) s = .next (s.replied Code.stageDisable .badRequest []) ∧
    exec (.stageReset q) s = .next (s.replied Code.stageReset .badRequest []) :=
  ⟨(exec_owned hs rfl hq).trans (by simp [State.ownStageDisable, stageOfNat_none hn, hs]),
    (exec_owned hs rfl hq).trans (by simp [State.ownStageReset, stageOfNat_none hn, hs])⟩

end Requests

/-- Settles O44: a disable aborts every run of the stage and then quiets its four blocks; a reset does the same and then
places the tracker at 0 and clears the notices. -/
theorem stageDisableAndReset : Obligations.StageDisableAndReset := by
  unfold Obligations.StageDisableAndReset
  refine ⟨fun q s i reset hs hq => ⟨_, exec_quit hs reset hq, ?_⟩, fun q s n hs hq hn => exec_quit_refused hs hq hn⟩
  obtain ⟨g, hg⟩ : ∃ g, g = s.floor.quit i reset := ⟨_, rfl⟩
  have hstage := s.floor.quit_stage i reset
  have hevent := s.floor.quit_stageEvent i reset
  have htakes := s.floor.quit_takesAborted i reset
  have hnotices := s.floor.quit_notices i reset
  have hmemory := s.floor.quit_memory i reset
  rw [← hg] at hstage hevent htakes hnotices hmemory ⊢
  refine ⟨congrArg Stage.runner hstage, congrArg Stage.tracker hstage, congrArg Stage.path hstage,
    congrArg Stage.overlay hstage, (congrArg Stage.faults hstage).trans rfl, htakes, hevent.stages, hnotices, hmemory, hevent.mask,
    hevent.reels, hevent.chars, hevent.casts, rfl, rfl, rfl, rfl, rfl, rfl, rfl⟩

end Sys2Proof.Machine
end

section
/-! TRACKER_SET (R100; log 21). -/

namespace Sys2Proof.Machine

/-! ## The settings -/

/-- The settings of a TRACKER_SET without the restart: the values, then the rate. -/
def Tracker.adjusted (x : TrackerSettings) (t : Tracker) : Tracker :=
  ({ t with source := x.source, lockCount := x.lockCount, jumpConfirm := x.jumpConfirm,
            freewheelLimit := x.freewheelLimit } : Tracker).takeRate x.rate

/-- Whether settings restart a tracker: it is not IDLE, and its source or its rate changes. -/
def Tracker.restarts (x : TrackerSettings) (t : Tracker) : Bool :=
  (t.source != x.source || t.rate != x.rate) && t.state != .idle

theorem Tracker.restarts_iff (x : TrackerSettings) (t : Tracker) :
    t.restarts x = true ↔ (x.source ≠ t.source ∨ x.rate ≠ t.rate) ∧ t.state ≠ .idle := by
  simp only [Tracker.restarts, Bool.and_eq_true, Bool.or_eq_true, bne_iff_ne, ne_comm]

theorem Tracker.takeSettings_eq (x : TrackerSettings) (t : Tracker) : t.takeSettings x =
    if t.restarts x then (t.adjusted x).enterSearching else t.adjusted x := rfl

/-- The settings of a tracker field by field (R82, R100). -/
theorem Tracker.adjusted_eq (x : TrackerSettings) (t : Tracker) : t.adjusted x = { t with
    source := x.source, rate := x.rate
    lockCount := x.lockCount, jumpConfirm := x.jumpConfirm, freewheelLimit := x.freewheelLimit
    e8 := if x.rate = t.rate then t.e8 else 8 * x.rate.nominal
    speed := if x.rate = t.rate then t.speed else 10000
    inSpeed := if x.rate = t.rate then t.inSpeed else true
    position := if x.rate ≠ t.rate ∧ x.rate.framesPerDay ≤ t.position / 64 then t.position % 64 else t.position } := by
  unfold Tracker.adjusted Tracker.takeRate
  by_cases h : x.rate = t.rate
  · simp [h]
  · simp [h, Ne.symm h]

/-! ## The change handed on -/

section Change

variable (f : Floor) (i : Fin 4)

/-- A tracker taken to a state without a position that counts: the runner and the transmitter take the change, and a
chase stops (R99, R108, R172). -/
theorem Floor.trackerChanged_lost {g : Tracker → Tracker} (hlocked : (g (f.tracker i)).state ≠ .locked)
    (hfreewheel : (g (f.tracker i)).state ≠ .freewheel) :
    (f.modTracker i g).trackerChanged i = (f.changedTo i (g (f.tracker i))).stopChase i := by
  have hforget : (((f.modTracker i g).modRunner i fun r =>
      { r with lastPosition := ((f.modTracker i g).tracker i).position }).forgetFrame i) =
      f.changedTo i (g (f.tracker i)) := by
    simp only [Floor.forgetFrame, Floor.modOverlay, Floor.modRunner, Floor.modTracker, Floor.modStage_modStage,
      Floor.changedTo]
    refine Floor.modStage_congr _ _ _ _ ?_
    simp only [Floor.tracker, Floor.modStage_stage]
  rw [← hforget]
  unfold Floor.trackerChanged
  simp only [Floor.modRunner_tracker, Floor.modTracker_tracker]

variable (x : TrackerSettings)

theorem Floor.setTracker_restart (h : (f.tracker i).restarts x = true) :
    f.setTracker i x = (f.changedTo i ((f.tracker i).adjusted x).enterSearching).stopChase i := by
  have htake : (f.tracker i).takeSettings x = ((f.tracker i).adjusted x).enterSearching := by
    rw [Tracker.takeSettings_eq, if_pos h]
  have hchanged := f.trackerChanged_lost i (g := Tracker.takeSettings x) (by rw [htake]; nofun) (by rw [htake]; nofun)
  rw [← htake, ← hchanged]
  exact if_pos h

theorem Floor.setTracker_stay (h : (f.tracker i).restarts x = false) :
    f.setTracker i x = f.modTracker i fun _ => (f.tracker i).adjusted x := by
  have htake : (f.tracker i).takeSettings x = (f.tracker i).adjusted x := by
    rw [Tracker.takeSettings_eq, if_neg (by simp [h])]
  have hstay : f.setTracker i x = f.modTracker i (Tracker.takeSettings x) := if_neg (by
    have hr : _ = false := h
    simpa [Tracker.restarts] using hr)
  rw [hstay]
  refine Floor.modStage_congr _ _ _ _ ?_
  exact congrArg (fun t => ({ f.stage i with tracker := t } : Stage)) htake

theorem Floor.changedTo_stage (t : Tracker) : (f.changedTo i t).stage i = { f.stage i with
    tracker := t, runner := { f.runner i with lastPosition := t.position }
    overlay := { f.overlay i with lastFrame := none } } := by
  rw [Floor.changedTo, Floor.modStage_stage]
  rfl

theorem Floor.changedTo_runner (t : Tracker) :
    (f.changedTo i t).runner i = { f.runner i with lastPosition := t.position } := by
  rw [Floor.runner, Floor.changedTo_stage]

/-- A stopped chase leaves the last frame as it stands (R172). -/
theorem Floor.stopChase_lastFrame : ((f.stopChase i).overlay i).lastFrame = (f.overlay i).lastFrame := by
  unfold Floor.stopChase
  split
  · obtain ⟨p, hp⟩ := f.leaveWork_stage i .standby (f.tracker i).position
    rw [Floor.overlay, hp]
  · rfl

theorem Floor.setTracker_stageEvent (x : TrackerSettings) : Floor.StageEvent i f (f.setTracker i x) := by
  unfold Floor.setTracker
  dsimp only
  split
  · exact f.changed_stageEvent i _
  · exact .modTracker f i _

section Restart

variable {f i} {x : TrackerSettings} (h : (f.tracker i).restarts x = true)
include h

/-- A restarted tracker is the adjusted one in SEARCHING (R83). -/
theorem Floor.setTracker_restart_tracker :
    (f.setTracker i x).tracker i = ((f.tracker i).adjusted x).enterSearching := by
  rw [f.setTracker_restart i x h, Floor.stopChase_tracker, Floor.tracker, Floor.changedTo_stage]

theorem Floor.setTracker_restart_overlay : ((f.setTracker i x).overlay i).lastFrame = none := by
  rw [f.setTracker_restart i x h, Floor.stopChase_lastFrame, Floor.overlay, Floor.changedTo_stage]

theorem Floor.setTracker_restart_notices : (f.setTracker i x).notices = f.notices := by
  rw [f.setTracker_restart i x h, Floor.stopChase_notices]
  rfl

/-- A working runner loses its runs at the adjusted position, under the adjusted rate (log 21). -/
theorem Floor.setTracker_restart_working (hw : (f.runner i).state.working = true) :
    (f.modTracker i fun _ => (f.tracker i).adjusted x).LosesRuns (f.setTracker i x) i
      ((f.tracker i).adjusted x).position ∧
    (f.setTracker i x).runner i = { f.runner i with
      state := .standby, blankingCount := 0, runs := [], lastPosition := ((f.tracker i).adjusted x).position } := by
  obtain ⟨t, ht⟩ : ∃ t, t = (f.tracker i).adjusted x := ⟨_, rfl⟩
  have hrunner := f.changedTo_runner i t.enterSearching
  have htracker : (f.changedTo i t.enterSearching).tracker i = t.enterSearching := by
    rw [Floor.tracker, Floor.changedTo_stage]
  have hstop : (f.changedTo i t.enterSearching).stopChase i =
      (f.changedTo i t.enterSearching).leaveWork i .standby t.position := by
    rw [Floor.stopChase, htracker, hrunner]
    exact if_pos hw
  rw [f.setTracker_restart i x h, ← ht, hstop]
  refine ⟨(Floor.leaveWork_losesRuns _ i _ _).of_agree rfl rfl rfl (fun j => ?_) ?_ ?_ ?_ ?_, ?_⟩
  · by_cases hj : j = i
    · subst hj
      rw [hrunner, Floor.modTracker_runner]
    · rw [Floor.runner, Floor.runner, Floor.changedTo, Floor.modStage_stage_ne _ _ _ _ hj, Floor.modTracker_stage_ne _ _ _ _ hj]
  · rw [hrunner, Floor.modTracker_runner]
  · rw [Floor.path, Floor.changedTo_stage, Floor.modTracker_path]; rfl
  · rw [Floor.overlay, Floor.changedTo_stage, Floor.modTracker_overlay]
  · rw [htracker, Floor.modTracker_tracker]; rfl
  · rw [Floor.leaveWork_runner, hrunner]; rfl

/-- A runner that does not work takes the position, and nothing else of the stage changes (R108). -/
theorem Floor.setTracker_restart_idle (hw : (f.runner i).state.working = false) :
    (f.setTracker i x).runner i = { f.runner i with lastPosition := ((f.tracker i).adjusted x).position } ∧
    (f.setTracker i x).path i = f.path i ∧ (f.setTracker i x).cues = f.cues ∧
    (f.setTracker i x).monitor = f.monitor := by
  have hrunner := f.changedTo_runner i ((f.tracker i).adjusted x).enterSearching
  have hstop : (f.changedTo i ((f.tracker i).adjusted x).enterSearching).stopChase i =
      f.changedTo i ((f.tracker i).adjusted x).enterSearching := by
    rw [Floor.stopChase, hrunner]
    exact if_neg (by simp [hw])
  rw [f.setTracker_restart i x h, hstop]
  refine ⟨hrunner, ?_, rfl, rfl⟩
  rw [Floor.path, Floor.changedTo_stage]
  rfl

end Restart

end Change

/-! ## The request -/

section Request

variable {s : State} {q : Request TrackerSetFields} {x : TrackerSetFields} (hs : s.Receives)
  (hq : readRequest (some 5) parseTrackerSet q = .ok x)

/-- Whether a TRACKER_SET gives a value (R100). -/
def givesSetting (x : TrackerSetFields) : Bool :=
  x.source.isSome || x.rate.isSome || x.lockCount.isSome || x.jumpConfirm.isSome || x.freewheelLimit.isSome

/-- The settings that a TRACKER_SET asks for (R100). -/
def Tracker.asked (t : Tracker) (x : TrackerSetFields) (source : Option SourceChoice) (rate : Option Rate) :
    TrackerSettings :=
  ⟨source.getD t.source, rate.getD t.rate, x.lockCount.getD t.lockCount, x.jumpConfirm.getD t.jumpConfirm,
    x.freewheelLimit.getD t.freewheelLimit⟩

def TrackerSettings.fitted (a : TrackerSettings) : TrackerSettings :=
  ⟨a.source, a.rate, max 2 (min a.lockCount 16), max 1 (min a.jumpConfirm 8), min a.freewheelLimit 60⟩

theorem TrackerSettings.fitted_ne_iff (a : TrackerSettings) : (a.fitted != a) = false ↔
    (2 ≤ a.lockCount ∧ a.lockCount ≤ 16) ∧ (1 ≤ a.jumpConfirm ∧ a.jumpConfirm ≤ 8) ∧ a.freewheelLimit ≤ 60 := by
  obtain ⟨source, rate, lock, jump, limit⟩ := a
  simp only [TrackerSettings.fitted, bne_eq_false_iff_eq, TrackerSettings.mk.injEq, true_and]
  omega

include hs hq

theorem exec_trackerSet {i : Fin 4} {source : Option SourceChoice} {rate : Option Rate} (hi : x.stage = i.val)
    (hgives : givesSetting x = true) (hsource : givenCode SourceChoice.ofCode x.source = .ok source)
    (hrate : givenCode Rate.ofCode x.rate = .ok rate) :
    exec (.trackerSet q) s = .next (s.carriedOut (s.floor.setTracker i ((s.floor.tracker i).asked x source rate).fitted)
      Code.trackerSet (clampStatus (((s.floor.tracker i).asked x source rate).fitted != (s.floor.tracker i).asked x source rate))
      ((s.floor.tracker i).asked x source rate).fitted.bytes) := by
  refine (exec_owned hs rfl hq).trans (congrArg _ ?_)
  have hg : _ = true := hgives
  unfold givesSetting at hg
  simp [State.ownTrackerSet, stageOfNat_val, hi, hg, hsource, hrate, hs, Tracker.asked, TrackerSettings.fitted, fit]

theorem exec_trackerSet_refused (h : 3 < x.stage ∨ givesSetting x = false ∨
    (∃ n, x.source = some n ∧ 2 < n) ∨ (∃ n, x.rate = some n ∧ 5 < n)) :
    exec (.trackerSet q) s = .next (s.replied Code.trackerSet .badRequest []) := by
  refine (exec_owned hs rfl hq).trans (congrArg _ ?_)
  by_cases hstage : 3 < x.stage
  · simp [State.ownTrackerSet, stageOfNat_none hstage, hs]
  have hi : stageOfNat x.stage = some ⟨x.stage, by omega⟩ := dif_pos (by omega)
  cases hg : givesSetting x with
  | false =>
    unfold givesSetting at hg
    simp [State.ownTrackerSet, hi, hg, hs]
  | true =>
    rw [hg] at h
    unfold givesSetting at hg
    by_cases hsource : ∀ n, x.source = some n → n < 3
    · obtain ⟨source, hread⟩ := (givenCode_listed SourceChoice.ofCode_eq x.source).1 hsource
      have hrate : ¬∀ n, x.rate = some n → n < 6 := fun hall => by
        obtain h | h | ⟨n, hn, hlt⟩ | ⟨n, hn, hlt⟩ := h
        · exact hstage h
        · cases h
        · exact absurd (hsource n hn) (by omega)
        · exact absurd (hall n hn) (by omega)
      simp [State.ownTrackerSet, hi, hg, hread, givenCode_unlisted Rate.ofCode_eq hrate, hs]
    · simp [State.ownTrackerSet, hi, hg, givenCode_unlisted SourceChoice.ofCode_eq hsource, hs]

end Request

/-- Settles O38: a TRACKER_SET adjusts the tracker, and where it restarts it the change to SEARCHING is handed to the runner
with the adjusted position and rate. -/
theorem trackerSetTakesSettings : Obligations.TrackerSetTakesSettings := by
  unfold Obligations.TrackerSetTakesSettings
  refine ⟨fun q x s i source rate hs hq hi hgiven hsource hrate => ?_, fun q x s hs hq hbad => ?_⟩
  · intro t r newSource newRate lock jump limit set
    have hgives : givesSetting x = true := by simpa [givesSetting, or_assoc] using hgiven
    refine ⟨_, exec_trackerSet hs hq hi hgives hsource hrate, ?_⟩
    have hstatus : clampStatus ((t.asked x source rate).fitted != t.asked x source rate) =
        if (2 ≤ lock ∧ lock ≤ 16) ∧ (1 ≤ jump ∧ jump ≤ 8) ∧ limit ≤ 60 then .ok else .clamped := by
      have hne := (t.asked x source rate).fitted_ne_iff
      cases hb : (t.asked x source rate).fitted != t.asked x source rate with
      | false => exact (if_pos (hne.1 hb)).symm
      | true => exact (if_neg fun h => by rw [hne.2 h] at hb; cases hb).symm
    rw [hstatus]
    obtain ⟨y, hy⟩ : ∃ y, y = (t.asked x source rate).fitted := ⟨_, rfl⟩
    have hset : t.adjusted y = set := by rw [Tracker.adjusted_eq, hy]; rfl
    have hrestarts : t.restarts y = true ↔ (newSource ≠ t.source ∨ newRate ≠ t.rate) ∧ t.state ≠ .idle := by
      rw [Tracker.restarts_iff, hy]; rfl
    have hstay : ¬((newSource ≠ t.source ∨ newRate ≠ t.rate) ∧ t.state ≠ .idle) →
        s.floor.setTracker i y = s.floor.modTracker i fun _ => set := fun h => by
      rw [← hset]
      exact s.floor.setTracker_stay i y (Bool.eq_false_iff.2 (mt hrestarts.1 h))
    have hevent := s.floor.setTracker_stageEvent i y
    have htracker : (s.floor.setTracker i y).tracker i =
        if (newSource ≠ t.source ∨ newRate ≠ t.rate) ∧ t.state ≠ .idle then set.enterSearching else set := by
      split
      · next h => rw [← hset]; exact Floor.setTracker_restart_tracker (hrestarts.2 h)
      · next h => rw [hstay h, Floor.modTracker_tracker]
    have hoverlay := fun h => Floor.setTracker_restart_overlay (f := s.floor) (i := i) (hrestarts.2 h)
    have hnotices := fun h => Floor.setTracker_restart_notices (f := s.floor) (i := i) (hrestarts.2 h)
    have hworking := fun h => Floor.setTracker_restart_working (f := s.floor) (i := i) (hrestarts.2 h)
    have hidle := fun h => Floor.setTracker_restart_idle (f := s.floor) (i := i) (hrestarts.2 h)
    have hbytes : (t.asked x source rate).fitted.bytes = [byte newSource.code, byte newRate.code,
        byte (max 2 (min lock 16)), byte (max 1 (min jump 8)), byte (min limit 60)] := rfl
    rw [hbytes]
    have hadjusted : (s.floor.tracker i).adjusted y = set := hset
    rw [hadjusted] at hworking hidle
    rw [show ((s.floor.tracker i).asked x source rate).fitted = y from hy.symm]
    generalize s.floor.setTracker i y = g at hstay hevent htracker hoverlay hnotices hworking hidle ⊢
    refine ⟨htracker, hevent.stages, rfl, fun h k => hstay fun a => a.1.elim (· h) (· k), fun h => hstay fun a => a.2 h,
      fun h k => ⟨hoverlay ⟨h, k⟩, hnotices ⟨h, k⟩, hworking ⟨h, k⟩, hidle ⟨h, k⟩⟩, hevent.reels, hevent.chars, hevent.casts,
      rfl, rfl, rfl, rfl, rfl⟩
  · refine exec_trackerSet_refused hs hq (hbad.imp_right fun h => ?_)
    refine h.imp_left fun hnone => ?_
    obtain ⟨hsource, hrate, hlock, hjump, hlimit⟩ := hnone
    simp [givesSetting, hsource, hrate, hlock, hjump, hlimit]

end Sys2Proof.Machine
end

section
/-! The path and the runs of a stage of which some runs are aborted (R134 to R137). -/

namespace Sys2Proof.Machine

/-! ## A path settled with no claim to be granted -/

section Settle

variable {f : Floor} {i : Fin 4}

/-- Demand as it stands is the demand of the run list (R134). -/
theorem Floor.demandNow_eq (f : Floor) (i : Fin 4) : f.demandNow i = f.demands i (f.runner i).runs := by
  unfold Floor.demandNow Floor.demands
  congr 2
  funext r
  unfold Floor.runDemands
  cases r.punch <;> rfl

variable (t : (f.stage i).PathTable) (c : (f.stage i).ClaimsStand)
include t

/-- A claim demands protection (R134). -/
theorem Floor.demandNow_of_request (h : f.recordRequest i = true) : f.demandNow i = true := by
  obtain ⟨r, hr, hp⟩ := List.any_eq_true.1 h
  have hp : r.punch ≠ .unpunched := bne_iff_ne.1 hp
  have hmode : (f.runner i).recordMode = .record := t.windows r hr hp
  have hdemands : f.runDemands i r = true := by
    unfold Floor.runDemands
    cases hs : r.punch with
    | unpunched => exact absurd hs hp
    | waiting => rfl
    | punched => rfl
  rw [Floor.demandNow, hmode, List.any_eq_true.2 ⟨r, hr, hdemands⟩]
  rfl

include c

/-- Where every claim stands, a settled path grants none: the runner is as before, and the path follows the claims and the
demand as they stand (R135, R137). -/
theorem Floor.settlePath_settled : (f.settlePath i).runner i = f.runner i ∧
    (f.settlePath i).path i = (f.path i).settled f.now (f.gapCounts i) (f.recordRequest i) (f.demandNow i) := by
  have hlength : f.gapLength i = f.gapCounts i := rfl
  have hclaims : f.recordRequest i = true →
      (f.path i).state = .record ∨ (f.path i).state = .protected_ ∧ (f.path i).gapExpiry.isSome = true := fun h =>
    have ⟨r, hr, hp⟩ := List.any_eq_true.1 h
    c ⟨r, hr, bne_iff_ne.1 hp⟩
  have hdemand := Floor.demandNow_of_request t
  have hopen : (f.path i).state ≠ .record → (f.path i).state ≠ .protected_ → f.recordRequest i = false := fun h k => by
    cases hr : f.recordRequest i with
    | false => rfl
    | true => exact ((hclaims hr).elim h fun hp => k hp.1).elim
  have hsame : ∀ p : Path, p.state = .record → p.demand = true → { p with state := .record, demand := true } = p :=
    fun p hp hd => by rw [← hp, ← hd]
  have hgap : (f.path i).state = .record → (f.path i).gapExpiry = none := t.record
  have hheld : (f.path i).demand = true ↔ (f.path i).state = .protected_ ∨ (f.path i).state = .record := t.demand
  unfold Floor.settlePath
  dsimp only
  cases hs : (f.path i).state with
  | record =>
    cases hr : f.recordRequest i with
    | true =>
      simp only [hdemand hr, ↓reduceIte, Floor.modPath_runner, Floor.modPath_path, Path.settled, hs, true_and]
      exact hsame _ hs (hheld.2 (.inr hs))
    | false =>
      simp only [Bool.false_eq_true, ↓reduceIte, Floor.releaseRecord, Floor.modPath_path, Floor.modPath_runner,
        Floor.startGap, hlength, Path.settled, hs]
      split <;> simp [Path.rest, hgap hs]
  | protected_ =>
    cases hd : f.demandNow i with
    | true =>
      have hgrant : (f.recordRequest i && (f.path i).gapExpiry.isNone) = false := by
        cases hr : f.recordRequest i with
        | false => rfl
        | true =>
          obtain hrecord | ⟨-, hrunning⟩ := hclaims hr
          · rw [hs] at hrecord; cases hrecord
          · rw [Option.isNone_eq_false_iff.2 hrunning]; rfl
      simp [hgrant, Path.settled, hs]
    | false => simp [Path.settled, hs, Path.rest]
  | free =>
    have hr := hopen (by rw [hs]; decide) (by rw [hs]; decide)
    cases hd : f.demandNow i <;> simp [hr, Floor.raiseDemand, Path.settled, hs]
  | talk =>
    have hr := hopen (by rw [hs]; decide) (by rw [hs]; decide)
    cases hd : f.demandNow i with
    | false => simp [Path.settled, hs]
    | true =>
      simp only [hr, Floor.raiseDemand, hs, Floor.startGap, hlength, Path.settled, ↓reduceIte, Bool.false_and,
        Bool.false_eq_true, Floor.modPath_runner, Floor.modPath_path]
      split <;> simp
  | gap =>
    have hr := hopen (by rw [hs]; decide) (by rw [hs]; decide)
    cases hd : f.demandNow i <;> simp [hr, Floor.raiseDemand, Path.settled, hs]

end Settle

/-! ## Some runs of a stage aborted -/

section Released

variable {f : Floor} {i : Fin 4} {which : Run → Bool}

theorem Floor.foldl_abortRun_stageEvent (f : Floor) (i : Fin 4) (e : Nat) (l : List Run) :
    Floor.StageEvent i f (l.foldl (fun f r => f.abortRun i r e) f) :=
  Floor.StageEvent.foldl f i l _ fun g r => g.abortRun_stageEvent i r e

/-- Demand does not turn on what an event of a stage leaves of the cues. -/
theorem Floor.demands_congr {f g : Floor} {i : Fin 4} (a : ∀ h, (g.cue h).map Cue.settled = (f.cue h).map Cue.settled)
    (hmode : (g.runner i).recordMode = (f.runner i).recordMode) (hpath : g.path i = f.path i)
    (htracker : g.tracker i = f.tracker i) (l : List Run) : g.demands i l = f.demands i l := by
  unfold Floor.demands
  rw [hmode, hpath, htracker]
  congr 2
  funext r
  have hcue := a r.handle
  cases hg : g.cue r.handle with
  | none =>
    rw [hg] at hcue
    rw [Option.map_eq_none_iff.1 hcue.symm]
  | some d =>
    rw [hg] at hcue
    obtain ⟨c, hf, hc⟩ := Option.map_eq_some_iff.1 hcue.symm
    have hfields : c.fields = d.fields := congrArg (fun x : Nat × CueFields × Enable × Approval × Lock => x.2.1) hc
    rw [hf]
    simp only [hfields]

/-- Where the runs to abort are told by their handles, they leave the run list, their marks and the path of the stage take
the release, and every other run stands (R122, R137, R175). -/
theorem Floor.abortRuns_released (f : Floor) (i : Fin 4) (which : Run → Bool) (e : Nat)
    (hwhich : ∀ r ∈ (f.runner i).runs, ∀ x ∈ (f.runner i).runs, r.handle = x.handle → which r = which x) :
    f.StageReleased (f.abortRuns i which e) i which := by
  obtain ⟨a, ha⟩ : ∃ a, a = ((f.runner i).runs.filter which).foldl (fun f r => f.abortRun i r e) f := ⟨_, rfl⟩
  have hstage := f.foldl_abortRun_stage i e ((f.runner i).runs.filter which)
  have hevent := f.foldl_abortRun_stageEvent i e ((f.runner i).runs.filter which)
  rw [← ha] at hstage hevent
  have habort : f.abortRuns i which e = a.settlePath i := by rw [ha]; rfl
  have hany : ∀ h, (((f.runner i).runs.filter which).any fun r => r.handle == h) =
      (f.runner i).runs.any fun r => which r && r.handle == h := fun h => by rw [List.any_filter]
  have hrest : ((f.runner i).runs.filter fun x => !((f.runner i).runs.filter which).any fun r => r.handle == x.handle) =
      (f.runner i).runs.filter fun r => !which r := by
    refine List.filter_congr fun x hx => ?_
    rw [hany]
    refine congrArg _ (Bool.eq_iff_iff.2 ?_)
    simp only [List.any_eq_true, Bool.and_eq_true, beq_iff_eq]
    exact ⟨fun ⟨r, hr, hw, hh⟩ => (hwhich r hr x hx hh) ▸ hw, fun hw => ⟨x, hx, hw, rfl⟩⟩
  have hruns : (a.runner i).runs = (f.runner i).runs.filter fun r => !which r := by
    rw [Floor.runner, hstage]
    exact hrest
  have hmode : (a.runner i).recordMode = (f.runner i).recordMode := by rw [Floor.runner, hstage]; rfl
  have hpath : a.path i = f.path i := by rw [Floor.path, hstage]; rfl
  have htracker : a.tracker i = f.tracker i := by rw [Floor.tracker, hstage]; rfl
  have hcounts : a.gapCounts i = f.gapCounts i := by simp only [Floor.gapCounts, hpath, htracker]
  have hsub : ∀ r ∈ (a.runner i).runs, r ∈ (f.runner i).runs := fun r hr => by
    rw [hruns] at hr
    exact (List.mem_filter.1 hr).1
  have htable : (f.stage i).PathTable → (a.stage i).PathTable := fun t => by
    have hp : (a.stage i).path = (f.stage i).path := hpath
    refine ⟨hp ▸ t.free, hp ▸ t.talk, hp ▸ t.record, hp ▸ t.gap, hp ▸ t.demand, fun r hr hpunch => ?_⟩
    exact hmode.trans (t.windows r (hsub r hr) hpunch)
  have hclaims : (f.stage i).ClaimsStand → (a.stage i).ClaimsStand := fun c ⟨r, hr, hpunch⟩ => by
    have hp : (a.stage i).path = (f.stage i).path := hpath
    rw [hp]
    exact c ⟨r, hsub r hr, hpunch⟩
  rw [habort]
  refine ⟨fun t c => ?_, ?_, fun t c => ?_⟩
  · rw [(Floor.settlePath_settled (htable t) (hclaims c)).1, hruns]
  · have hoverlay := (Floor.settlePath_pathOnly a i).frame.2.2.1
    rw [hoverlay, Floor.overlay, hstage]
    simp only [hany]
    rfl
  · intro rest
    rw [(Floor.settlePath_settled (htable t) (hclaims c)).2, hpath, hevent.now, hcounts, Floor.demandNow_eq,
      Floor.demands_congr hevent.cue hmode hpath htracker, hruns, Floor.recordRequest, hruns]

end Released

/-! ## Aborts on several stages in an open order (R42; log 5) -/

section OpenOrder

theorem Floor.StageReleased.of_agree {f f' g g' : Floor} {i : Fin 4} {gone : Run → Bool}
    (a : f'.StageReleased g' i gone) (hstage : f'.stage i = f.stage i) (hnow : f'.now = f.now)
    (hcue : ∀ h, (f'.cue h).map Cue.settled = (f.cue h).map Cue.settled) (hstage' : g.stage i = g'.stage i) :
    f.StageReleased g i gone := by
  have hrunner : f'.runner i = f.runner i := congrArg Stage.runner hstage
  have hpath : f'.path i = f.path i := congrArg Stage.path hstage
  have htracker : f'.tracker i = f.tracker i := congrArg Stage.tracker hstage
  have hoverlay : f'.overlay i = f.overlay i := congrArg Stage.overlay hstage
  have hcounts : f'.gapCounts i = f.gapCounts i := by simp only [Floor.gapCounts, hpath, htracker]
  have hdemands := Floor.demands_congr hcue (congrArg Runner.recordMode hrunner) hpath htracker
  obtain ⟨hruns, hmarks, hsettled⟩ := a
  rw [hstage] at hruns hsettled
  simp only [hrunner, hoverlay, hpath, hnow, hcounts, hdemands] at hruns hmarks hsettled
  refine ⟨fun t c => ?_, ?_, fun t c => ?_⟩
  · rw [Floor.runner, hstage']
    exact hruns t c
  · rw [Floor.overlay, hstage']
    exact hmarks
  · rw [Floor.path, hstage']
    exact hsettled t c

theorem Floor.drawn_eq (f : Floor) {α : Type} (l : List α) : ∃ n, f.drawn l = { f with draws := n } := by
  unfold Floor.drawn
  split
  · exact ⟨f.draws, rfl⟩
  · exact ⟨f.draws, rfl⟩
  · exact ⟨f.draws + 1, rfl⟩

variable {op : Fin 4 → Floor → Floor} (hop : ∀ (j : Fin 4) (g : Floor), Floor.StageEvent j g (op j g))
include hop

theorem Floor.foldl_settled (l : List (Fin 4)) (f : Floor) (h : Nat) :
    ((l.foldl (fun f j => op j f) f).cue h).map Cue.settled = (f.cue h).map Cue.settled := by
  induction l generalizing f with
  | nil => rfl
  | cons j l ih => exact (ih (op j f)).trans ((hop j f).cue h)

/-- Events of some stages, each of its own and once, seen at one of them. -/
theorem Floor.foldl_at_mem {l : List (Fin 4)} (hl : l.Nodup) {i : Fin 4} (hi : i ∈ l) (f : Floor) :
    ∃ g : Floor, g.stage i = f.stage i ∧ g.now = f.now ∧
      (∀ h, (g.cue h).map Cue.settled = (f.cue h).map Cue.settled) ∧
      (l.foldl (fun f j => op j f) f).stage i = (op i g).stage i := by
  obtain ⟨a, b, rfl⟩ := List.append_of_mem hi
  have hnodup := List.nodup_append.1 hl
  have hb : i ∉ b := (List.nodup_cons.1 hnodup.2.1).1
  have ha : i ∉ a := fun h => hnodup.2.2 i h i List.mem_cons_self rfl
  refine ⟨a.foldl (fun f j => op j f) f, Floor.foldl_stage_of_not_mem op hop i a ha f, Floor.foldl_now op hop a f,
    Floor.foldl_settled hop a f, ?_⟩
  rw [List.foldl_append, List.foldl_cons, Floor.foldl_stage_of_not_mem op hop i b hb]

variable {l : List (Fin 4)} (hl : l.Nodup) (f : Floor)
include hl

/-- An operation on each of some stages in an open order, at one of them. -/
theorem Floor.forEachOpen_at_mem {i : Fin 4} (hi : i ∈ l) : ∃ g : Floor, g.stage i = f.stage i ∧ g.now = f.now ∧
    (∀ h, (g.cue h).map Cue.settled = (f.cue h).map Cue.settled) ∧
    (f.forEachOpen l op).stage i = (op i g).stage i := by
  have hmem : i ∈ f.openOrder l := (f.openOrder_perm l).mem_iff.2 hi
  obtain ⟨n, hn⟩ := f.drawn_eq l
  obtain ⟨g, hg⟩ := Floor.foldl_at_mem hop ((f.openOrder_perm l).nodup_iff.2 hl) hmem (f.drawn l)
  rw [hn] at hg
  refine ⟨g, hg.1, hg.2.1, hg.2.2.1, ?_⟩
  rw [← hg.2.2.2, ← hn]
  rfl

omit hl in
theorem Floor.forEachOpen_of_not_mem {i : Fin 4} (hi : i ∉ l) : (f.forEachOpen l op).stage i = f.stage i := by
  have hmem : i ∉ f.openOrder l := mt (f.openOrder_perm l).mem_iff.1 hi
  obtain ⟨n, hn⟩ := f.drawn_eq l
  have hstage := Floor.foldl_stage_of_not_mem op hop i _ hmem (f.drawn l)
  rw [hn] at hstage
  refine Eq.trans ?_ hstage
  rw [← hn]
  rfl

theorem Floor.forEachOpen_released {i : Fin 4} (hi : i ∈ l) {gone : Run → Bool}
    (hreleased : ∀ g : Floor, g.stage i = f.stage i → g.StageReleased (op i g) i gone) :
    f.StageReleased (f.forEachOpen l op) i gone := by
  obtain ⟨g, hstage, hnow, hcue, hafter⟩ := Floor.forEachOpen_at_mem hop hl f hi
  exact (hreleased g hstage).of_agree hstage hnow hcue hafter

theorem Floor.forEachOpen_takesAborted {which : Run → Bool} {gone : Fin 4 → Run → Bool} {ended : Fin 4 → Nat}
    (habort : ∀ i ∈ l, ∀ g : Floor, g.stage i = f.stage i → g.AbortsAt (op i g) i which (ended i))
    (hgone : ∀ j, ∀ r ∈ (f.runner j).runs, gone j r = (decide (j ∈ l) && which r)) :
    f.TakesAborted (f.forEachOpen l op) gone ended := by
  have hperm := f.openOrder_perm l
  obtain ⟨n, hn⟩ := f.drawn_eq l
  have htakes := Floor.foldl_takesAborted (which := which) (gone := gone) hop _ (hperm.nodup_iff.2 hl)
    ({ f with draws := n } : Floor) ended (fun i hi g hg => habort i (hperm.mem_iff.1 hi) g hg)
    (fun j r hr => by rw [hgone j r hr]; simp only [hperm.mem_iff])
  have hfold : f.forEachOpen l op = (f.openOrder l).foldl (fun f j => op j f) { f with draws := n } := by
    rw [← hn]
    rfl
  rw [hfold]
  exact ⟨htakes.cues, htakes.free, htakes.counted⟩

end OpenOrder

end Sys2Proof.Machine
end

section
/-! A forced retire (R38, R40 to R42, R122, R137). -/

namespace Sys2Proof.Machine

/-! ## The aborts of a cue's runs -/

section AbortCue

variable (f : Floor) (h : Nat)

/-- The aborts of a cue's runs on one stage. -/
def Floor.abortCueOn (i : Fin 4) (f : Floor) : Floor := f.abortRuns i (fun r => r.handle == h) (f.tracker i).position

theorem Floor.abortCueOn_stageEvent (i : Fin 4) (g : Floor) : Floor.StageEvent i g (Floor.abortCueOn h i g) :=
  g.abortRuns_stageEvent i _ _

theorem Floor.stagesRunning_nodup : (f.stagesRunning h).Nodup := (List.nodup_finRange 4).filter _

theorem Floor.abortCue_eq : f.abortCue h = f.forEachOpen (f.stagesRunning h) (Floor.abortCueOn h) := rfl

/-- What the aborts leave of a stage beyond its runs, its marks and its path: all of it (R38). -/
theorem Floor.abortRuns_frame (i : Fin 4) (which : Run → Bool) (e : Nat) :
    (f.abortRuns i which e).tracker i = f.tracker i ∧ (f.abortRuns i which e).faults i = f.faults i ∧
    (f.abortRuns i which e).runner i = { f.runner i with runs := ((f.abortRuns i which e).runner i).runs } ∧
    (f.abortRuns i which e).overlay i = { f.overlay i with flashMarks := ((f.abortRuns i which e).overlay i).flashMarks } := by
  have hstage := f.foldl_abortRun_stage i e ((f.runner i).runs.filter which)
  obtain ⟨p, c, -, hsettle⟩ := Floor.settlePath_pathOnly
    (((f.runner i).runs.filter which).foldl (fun f r => f.abortRun i r e) f) i
  have habort : (f.abortRuns i which e).stage i = _ := congrArg (Floor.stage · i) hsettle
  rw [Floor.modStage_stage, hstage] at habort
  refine ⟨?_, ?_, ?_, ?_⟩
  · rw [Floor.tracker, habort]; rfl
  · rw [Floor.faults, habort]; rfl
  · rw [Floor.runner, habort]; rfl
  · rw [Floor.overlay, habort]; rfl

theorem Floor.abortCue_frame (i : Fin 4) :
    (f.abortCue h).tracker i = f.tracker i ∧ (f.abortCue h).faults i = f.faults i ∧
    (f.abortCue h).runner i = { f.runner i with runs := ((f.abortCue h).runner i).runs } ∧
    (f.abortCue h).overlay i = { f.overlay i with flashMarks := ((f.abortCue h).overlay i).flashMarks } := by
  by_cases hi : i ∈ f.stagesRunning h
  · obtain ⟨g, hg, -, -, hstage⟩ := Floor.forEachOpen_at_mem (Floor.abortCueOn_stageEvent h) (f.stagesRunning_nodup h) f hi
    obtain ⟨htracker, hfaults, hrunner, hoverlay⟩ := g.abortRuns_frame i (fun r => r.handle == h) (g.tracker i).position
    have hafter : (f.abortCue h).stage i = (g.abortRuns i (fun r => r.handle == h) (g.tracker i).position).stage i := hstage
    simp only [Floor.tracker, Floor.faults, Floor.runner, Floor.overlay, hafter] at htracker hfaults hrunner hoverlay ⊢
    rw [← hg]
    exact ⟨htracker, hfaults, hrunner, hoverlay⟩
  · have hstage : (f.abortCue h).stage i = f.stage i :=
      Floor.forEachOpen_of_not_mem (Floor.abortCueOn_stageEvent h) f hi
    simp only [Floor.tracker, Floor.faults, Floor.runner, Floor.overlay, hstage]
    trivial

/-- The takes and the in-flight counts of a forced retire (R38, R40, R41). -/
theorem Floor.abortCue_takesAborted :
    f.TakesAborted (f.abortCue h) (fun _ r => r.handle == h) fun i => (f.tracker i).position := by
  refine Floor.forEachOpen_takesAborted (Floor.abortCueOn_stageEvent h) (f.stagesRunning_nodup h) f
    (which := fun r => r.handle == h) (fun i hi g hg => ?_) fun j r hr => ?_
  · have htracker : g.tracker i = f.tracker i := congrArg Stage.tracker hg
    rw [← htracker]
    exact Floor.AbortsAt.abortRuns g i _ _
  · rw [Bool.eq_iff_iff, Bool.and_eq_true, decide_eq_true_eq, Floor.stagesRunning, List.mem_filter]
    exact ⟨fun hh => ⟨⟨List.mem_finRange j, List.any_eq_true.2 ⟨r, hr, hh⟩⟩, hh⟩, And.right⟩

theorem Floor.abortCue_released {i : Fin 4} (hi : i ∈ f.stagesRunning h) :
    f.StageReleased (f.abortCue h) i fun r => r.handle == h :=
  Floor.forEachOpen_released (Floor.abortCueOn_stageEvent h) (f.stagesRunning_nodup h) f hi fun g _ =>
    g.abortRuns_released i _ _ fun r _ x _ heq => by rw [heq]

theorem Floor.forEachOpen_keeps {β : Type} (p : Floor → β) {op : Fin 4 → Floor → Floor} (hop : ∀ j g, p (op j g) = p g)
    (hdraws : ∀ g n, p { g with draws := n } = p g) (f : Floor) (l : List (Fin 4)) : p (f.forEachOpen l op) = p f := by
  have hfold : ∀ (l : List (Fin 4)) (f : Floor), p (l.foldl (fun f j => op j f) f) = p f := fun l => by
    induction l with
    | nil => exact fun _ => rfl
    | cons j l ih => exact fun f => (ih (op j f)).trans (hop j f)
  obtain ⟨n, hn⟩ := f.drawn_eq l
  refine (hfold (f.openOrder l) (f.drawn l)).trans ?_
  rw [hn, hdraws]

theorem Floor.abortCue_stores : (f.abortCue h).reels = f.reels ∧ (f.abortCue h).chars = f.chars ∧
    (f.abortCue h).casts = f.casts ∧ (f.abortCue h).notices = f.notices := by
  have hevent := Floor.abortCueOn_stageEvent h
  exact ⟨Floor.forEachOpen_keeps Floor.reels (fun j g => (hevent j g).reels) (fun _ _ => rfl) f _,
    Floor.forEachOpen_keeps Floor.chars (fun j g => (hevent j g).chars) (fun _ _ => rfl) f _,
    Floor.forEachOpen_keeps Floor.casts (fun j g => (hevent j g).casts) (fun _ _ => rfl) f _,
    Floor.forEachOpen_keeps Floor.notices (fun j g => g.abortRuns_notices j _ _) (fun _ _ => rfl) f _⟩

/-! ## The cues -/

/-- The runs of a cue that a forced retire aborts, counted (R38). -/
theorem Floor.abortedRuns_mine_length : (f.abortedRuns (fun _ r => r.handle == h) h).length =
    ((List.finRange 4).map fun i => ((f.runner i).runs.map Run.handle).count h).sum := by
  rw [Floor.abortedRuns, List.length_flatMap]
  refine congrArg List.sum (List.map_congr_left fun i _ => ?_)
  rw [List.length_map, ← List.countP_eq_length_filter, List.count, List.countP_map]
  simp only [Bool.and_self]
  rfl

/-- A forced retire aborts no run of another cue. -/
theorem Floor.abortedRuns_other {j : Nat} (hj : j ≠ h) : f.abortedRuns (fun _ r => r.handle == h) j = [] := by
  refine List.flatMap_eq_nil_iff.2 fun i _ => List.map_eq_nil_iff.2 (List.filter_eq_nil_iff.2 fun r _ hr => ?_)
  simp only [Bool.and_eq_true, beq_iff_eq] at hr
  exact hj (hr.2.symm.trans hr.1)

theorem Floor.TakesAborted.cue_of_none {f g : Floor} {gone : Fin 4 → Run → Bool} {ended : Fin 4 → Nat}
    (a : f.TakesAborted g gone ended) {j : Nat} (hnone : f.abortedRuns gone j = []) : g.cue j = f.cue j := by
  cases hc : f.cue j with
  | none => exact a.free j hc
  | some c =>
    obtain ⟨last, hg, hlast, -⟩ := a.cues j c hc
    rw [hnone] at hg hlast
    rw [hg, hlast rfl]
    rfl

end AbortCue

/-- Settles O27: the aborts on the stages that run the cue, each of its own stage, in whatever order they come. -/
theorem forcedRetireAbortsRuns : Obligations.ForcedRetireAbortsRuns := by
  unfold Obligations.ForcedRetireAbortsRuns
  intro q x s c hs hq hforce hcue hlock mine locked
  have hflag : flagOfCode x.force = some true := by rw [hforce]; rfl
  have hexec := exec_cueRetire_accepted hs hq (Floor.checkRetire_ok hflag hcue hlock (.inl rfl))
  obtain ⟨hlive, -⟩ := (s.floor.resolveCue_eq_ok_iff _ _).1 hcue
  have hlock : ∀ k, locked.cue k = (s.floor.cue k).map fun c => if k = x.handle then { c with lock := .retiring } else c :=
    Floor.modCue_lock x.handle .retiring
  have hrunning : ∀ i, i ∈ locked.stagesRunning x.handle ↔ (s.floor.runner i).runs.any mine = true := fun i =>
    List.mem_filter.trans (and_iff_right (List.mem_finRange i))
  have hbegin : s.floor.beginRetire x.handle true = locked.abortCue x.handle := rfl
  have htakes := locked.abortCue_takesAborted x.handle
  have hframe := locked.abortCue_frame x.handle
  have hstores := locked.abortCue_stores x.handle
  have hhandles := locked.abortCue_handles x.handle
  have hreleased := fun i hi => Floor.abortCue_released locked x.handle (i := i) ((hrunning i).2 hi)
  have hwhole : ∀ i, (s.floor.runner i).runs.any mine = false → (locked.abortCue x.handle).stage i = locked.stage i :=
    fun i hi => Floor.forEachOpen_of_not_mem (Floor.abortCueOn_stageEvent x.handle) locked fun hmem => by
      rw [(hrunning i).1 hmem] at hi
      cases hi
  have hother : ∀ j, j ≠ x.handle → (locked.abortCue x.handle).cue j = s.floor.cue j := fun j hj => by
    rw [htakes.cue_of_none (locked.abortedRuns_other x.handle hj), hlock]
    simp [hj]
  obtain ⟨last, hd, -⟩ := htakes.cues x.handle { c with lock := .retiring } (by rw [hlock, hlive]; simp)
  rw [Floor.abortedRuns_mine_length] at hd
  rw [hbegin] at hexec
  generalize locked.abortCue x.handle = g at htakes hframe hstores hhandles hreleased hwhole hother hd hexec
  obtain ⟨hreels, hchars, hcasts, hnotices⟩ := hstores
  have hstate : ∀ i, (g.runner i).state = (s.floor.runner i).state := fun i => by
    rw [(hframe i).2.2.1]
    rfl
  exact ⟨_, _, hexec, rfl, rfl, rfl, fun i => ⟨hstate i, hhandles i⟩, hd, rfl, rfl, rfl,
    htakes, hreleased, hwhole, hframe, hother, hreels, hchars, hcasts, hnotices, rfl, rfl, rfl, rfl⟩

end Sys2Proof.Machine
end

section
/-! REEL_CLOSE: the stages that chase the reel stop, and a reel without cues is closed at once (R58, R59, R61). -/

namespace Sys2Proof.Machine

section Closure

variable (f : Floor) (slot : Nat)

/-- A stage chases a reel (R59). -/
def Floor.chases (i : Fin 4) : Bool := (f.runner i).selected == some slot && (f.runner i).state.working

theorem Floor.chases_iff (i : Fin 4) :
    f.chases slot i = true ↔ (f.runner i).selected = some slot ∧ (f.runner i).state.working = true := by
  rw [Floor.chases, Bool.and_eq_true, beq_iff_eq]

theorem Floor.mem_stagesChasing (i : Fin 4) : i ∈ f.stagesChasing slot ↔ f.chases slot i = true :=
  List.mem_filter.trans (and_iff_right (List.mem_finRange i))

theorem Floor.stagesChasing_nodup : (f.stagesChasing slot).Nodup := (List.nodup_finRange 4).filter _

/-! ## The stages that stop -/

theorem Floor.stopChase_working {i : Fin 4} (h : (f.runner i).state.working = true) :
    f.stopChase i = f.leaveWork i .standby (f.tracker i).position := if_pos h

/-- The stop of one of the stages that chase the reel. -/
def Floor.stopOn (i : Fin 4) (f : Floor) : Floor := f.stopChase i

theorem Floor.stopOn_stageEvent (i : Fin 4) (g : Floor) : Floor.StageEvent i g (Floor.stopOn i g) := g.stopChase_stageEvent i

theorem Floor.beginClosure_eq :
    f.beginClosure slot = (f.markClosing slot).forEachOpen (f.stagesChasing slot) Floor.stopOn := rfl

/-- A stage that chases the reel leaves its work, whatever the other stages do (R59). -/
theorem Floor.beginClosure_stage {i : Fin 4} (h : f.chases slot i = true) : ∃ p,
    (f.beginClosure slot).stage i = { f.stage i with
      runner := { f.runner i with runs := [], state := .standby, blankingCount := 0 }
      overlay := { f.overlay i with flashMarks :=
        (f.overlay i).flashMarks.filter fun h => !(f.runner i).runs.any fun r => r.handle == h }
      path := p } := by
  obtain ⟨g, hg, -, -, hstage⟩ := Floor.forEachOpen_at_mem Floor.stopOn_stageEvent (f.stagesChasing_nodup slot)
    (f.markClosing slot) ((f.mem_stagesChasing slot i).2 h)
  have hstage' : g.stage i = f.stage i := hg
  have hrunner : g.runner i = f.runner i := congrArg Stage.runner hstage'
  have hoverlay : g.overlay i = f.overlay i := congrArg Stage.overlay hstage'
  have hworking : (g.runner i).state.working = true := by rw [hrunner]; exact ((f.chases_iff slot i).1 h).2
  obtain ⟨p, hp⟩ := g.leaveWork_stage i .standby (g.tracker i).position
  refine ⟨p, hstage.trans ?_⟩
  rw [Floor.stopOn, g.stopChase_working hworking, hp, hstage', hrunner, hoverlay]

theorem Floor.beginClosure_stage_other {i : Fin 4} (h : f.chases slot i = false) :
    (f.beginClosure slot).stage i = f.stage i :=
  Floor.forEachOpen_of_not_mem Floor.stopOn_stageEvent (f.markClosing slot) fun hmem => by
    rw [(f.mem_stagesChasing slot i).1 hmem] at h
    cases h

theorem Floor.beginClosure_released {i : Fin 4} (h : f.chases slot i = true) :
    f.StageReleased (f.beginClosure slot) i fun _ => true := by
  have hworking := ((f.chases_iff slot i).1 h).2
  have hreleased := Floor.forEachOpen_released Floor.stopOn_stageEvent (f.stagesChasing_nodup slot) (f.markClosing slot)
    ((f.mem_stagesChasing slot i).2 h) (gone := fun _ => true) fun g hg => by
      have hrunner : g.runner i = f.runner i := congrArg Stage.runner hg
      rw [Floor.stopOn, g.stopChase_working (by rw [hrunner]; exact hworking)]
      exact (g.leaveWork_losesRuns i .standby _).2.2
  exact ⟨hreleased.runs, hreleased.marks, hreleased.path⟩

theorem Floor.beginClosure_takesAborted : f.TakesAborted (f.beginClosure slot) (fun i _ => f.chases slot i)
    fun i => (f.tracker i).position := by
  have htakes := Floor.forEachOpen_takesAborted Floor.stopOn_stageEvent (f.stagesChasing_nodup slot) (f.markClosing slot)
    (which := fun _ => true) (gone := fun i _ => f.chases slot i) (ended := fun i => (f.tracker i).position)
    (fun i hi g hg => by
      have hrunner : g.runner i = f.runner i := congrArg Stage.runner hg
      have htracker : g.tracker i = f.tracker i := congrArg Stage.tracker hg
      have hworking := ((f.chases_iff slot i).1 ((f.mem_stagesChasing slot i).1 hi)).2
      rw [Floor.stopOn, g.stopChase_working (by rw [hrunner]; exact hworking), htracker]
      exact Floor.AbortsAt.leaveWork g i .standby _)
    fun j r _ => by rw [Bool.and_true, Bool.eq_iff_iff, decide_eq_true_eq, Floor.mem_stagesChasing]
  exact ⟨htakes.cues, htakes.free, htakes.counted⟩

/-- The closure that begins marks the reel, and touches no other table (R58). -/
theorem Floor.beginClosure_stores : (f.beginClosure slot).reels = (f.markClosing slot).reels ∧
    (f.beginClosure slot).chars = f.chars ∧ (f.beginClosure slot).casts = f.casts ∧
    (f.beginClosure slot).notices = f.notices := by
  have hevent := Floor.stopOn_stageEvent
  exact ⟨Floor.forEachOpen_keeps Floor.reels (fun j g => (hevent j g).reels) (fun _ _ => rfl) _ _,
    Floor.forEachOpen_keeps Floor.chars (fun j g => (hevent j g).chars) (fun _ _ => rfl) _ _,
    Floor.forEachOpen_keeps Floor.casts (fun j g => (hevent j g).casts) (fun _ _ => rfl) _ _,
    Floor.forEachOpen_keeps Floor.notices (fun j g => g.stopChase_notices j) (fun _ _ => rfl) _ _⟩

theorem Floor.beginClosure_reel (k : Nat) : (f.beginClosure slot).reel k =
    (f.reel k).map fun r => if k = slot then { r with state := .reelClosing } else r := by
  rw [Floor.reel, (f.beginClosure_stores slot).1]
  refine (Table.find_modify k slot (fun r : Reel => { r with state := .reelClosing }) f.reels).trans ?_
  by_cases hk : k = slot
  · simp [hk, Floor.reel]
  · simp [hk, Floor.reel]

/-! ## The selections of a closed reel (R61) -/

theorem Stage.clearSelection_eq (st : Stage) : st.clearSelection slot = { st with runner := { st.runner with
    selected := if st.runner.selected = some slot then none else st.runner.selected
    manualReel := if st.runner.selected = some slot then none else st.runner.manualReel } } := by
  unfold Stage.clearSelection
  split <;> rfl

theorem Floor.endClosure_stage (i : Fin 4) : (f.endClosure slot).stage i = (f.stage i).clearSelection slot := by
  simp [Floor.endClosure, Floor.stage, Floor.setNotice]

theorem Floor.endClosure_reel (k : Nat) :
    (f.endClosure slot).reel k = if k = slot then none else f.reel k := by
  by_cases hk : k = slot
  · rw [hk, if_pos rfl]
    exact Table.find_erase_self slot f.reels
  · rw [if_neg hk]
    exact Table.find_erase_other hk f.reels

/-! ## A reel closed, at once where it has no cues -/

/-- What an accepted REEL_CLOSE makes of the floor (R58, R59, R61). -/
def Floor.closeReel (empty : Bool) : Floor :=
  if empty then (f.beginClosure slot).endClosure slot else f.beginClosure slot

variable (empty : Bool)

/-- The selection of a stage after an accepted REEL_CLOSE (R61). -/
def Floor.clearedBy (i : Fin 4) (x : Option Nat) : Option Nat :=
  if empty = true ∧ (f.runner i).selected = some slot then none else x

/-- A stage after an accepted REEL_CLOSE. -/
theorem Floor.closeReel_stage (i : Fin 4) : (f.closeReel slot empty).stage i = { (f.beginClosure slot).stage i with
    runner := { (f.beginClosure slot).runner i with
      selected := f.clearedBy slot empty i (f.runner i).selected
      manualReel := f.clearedBy slot empty i (f.runner i).manualReel } } := by
  have hkept : ((f.beginClosure slot).runner i).selected = (f.runner i).selected ∧
      ((f.beginClosure slot).runner i).manualReel = (f.runner i).manualReel := by
    cases hc : f.chases slot i with
    | false => rw [Floor.runner, f.beginClosure_stage_other slot hc]; exact ⟨rfl, rfl⟩
    | true =>
      obtain ⟨p, hp⟩ := f.beginClosure_stage slot hc
      rw [Floor.runner, hp]
      exact ⟨rfl, rfl⟩
  obtain ⟨hselected, hmanual⟩ := hkept
  cases empty with
  | false =>
    simp only [Floor.closeReel, Floor.clearedBy, Bool.false_eq_true, false_and, ↓reduceIte, ← hselected, ← hmanual]
    rfl
  | true =>
    simp only [Floor.closeReel, Floor.clearedBy, true_and, ↓reduceIte, ← hselected, ← hmanual]
    rw [Floor.endClosure_stage, Stage.clearSelection_eq]
    rfl

/-- The blocks of a stage after an accepted REEL_CLOSE: a chasing runner stops, every selection of a closed reel is
cleared (R59, R61). -/
theorem Floor.closeReel_frame (i : Fin 4) : (f.closeReel slot empty).tracker i = f.tracker i ∧
    (f.closeReel slot empty).faults i = f.faults i ∧
    (f.closeReel slot empty).overlay i =
      { f.overlay i with flashMarks := ((f.closeReel slot empty).overlay i).flashMarks } ∧
    (f.closeReel slot empty).runner i = { f.runner i with
      state := if f.chases slot i then .standby else (f.runner i).state
      blankingCount := if f.chases slot i then 0 else (f.runner i).blankingCount
      runs := if f.chases slot i then [] else (f.runner i).runs
      selected := f.clearedBy slot empty i (f.runner i).selected
      manualReel := f.clearedBy slot empty i (f.runner i).manualReel } := by
  have hstage := f.closeReel_stage slot empty i
  simp only [Floor.tracker, Floor.faults, Floor.overlay, Floor.runner, hstage]
  cases hc : f.chases slot i with
  | false =>
    rw [f.beginClosure_stage_other slot hc]
    exact ⟨rfl, rfl, rfl, rfl⟩
  | true =>
    obtain ⟨p, hp⟩ := f.beginClosure_stage slot hc
    rw [hp]
    exact ⟨rfl, rfl, rfl, rfl⟩

theorem Floor.closeReel_stage_other {i : Fin 4} (h : f.chases slot i = false) : (f.closeReel slot empty).stage i =
    { f.stage i with runner := (f.closeReel slot empty).runner i } := by
  rw [Floor.runner, Floor.closeReel_stage, f.beginClosure_stage_other slot h]

theorem Floor.closeReel_released {i : Fin 4} (h : f.chases slot i = true) :
    f.StageReleased (f.closeReel slot empty) i fun _ => true := by
  obtain ⟨hruns, hmarks, hpath⟩ := f.beginClosure_released slot h
  have hstage := f.closeReel_stage slot empty i
  refine ⟨fun t c => ?_, ?_, fun t c => ?_⟩
  · rw [Floor.runner, hstage]
    exact hruns t c
  · rw [Floor.overlay, hstage]
    exact hmarks
  · rw [Floor.path, hstage]
    exact hpath t c

theorem Floor.closeReel_takesAborted : f.TakesAborted (f.closeReel slot empty) (fun i _ => f.chases slot i)
    fun i => (f.tracker i).position := by
  cases empty <;> exact (f.beginClosure_takesAborted slot).to_agree rfl rfl

theorem Floor.closeReel_stores : (f.closeReel slot empty).chars = f.chars ∧ (f.closeReel slot empty).casts = f.casts := by
  obtain ⟨-, hchars, hcasts, -⟩ := f.beginClosure_stores slot
  cases empty <;> exact ⟨hchars, hcasts⟩

theorem Floor.closeReel_reel {k : Nat} (hk : k ≠ slot) : (f.closeReel slot empty).reel k = f.reel k := by
  have hkept : (f.beginClosure slot).reel k = f.reel k := by
    rw [Floor.beginClosure_reel]
    simp [hk]
  cases empty with
  | false => exact hkept
  | true => exact (Floor.endClosure_reel _ slot k).trans ((if_neg hk).trans hkept)

/-- A reel with cues is CLOSING (R58). -/
theorem Floor.closeReel_closing {slot : Nat} {reel : Reel} (h : f.reel slot = some reel) :
    (f.closeReel slot false).reel slot = some { reel with state := .reelClosing } ∧
    (f.closeReel slot false).notices = f.notices := by
  refine ⟨?_, (f.beginClosure_stores slot).2.2.2⟩
  refine (f.beginClosure_reel slot slot).trans ?_
  rw [h]
  simp

/-- A reel without cues is gone, with its selections, and REEL_CLOSED is set (R61). -/
theorem Floor.closeReel_closed : (f.closeReel slot true).reel slot = none ∧
    (f.closeReel slot true).notices = f.notices.set 25 true ∧
    ∀ i, ((f.closeReel slot true).runner i).selected ≠ some slot := by
  refine ⟨(Floor.endClosure_reel _ slot slot).trans (if_pos rfl), ?_, fun i => ?_⟩
  · have hnotices : (f.closeReel slot true).notices = (f.beginClosure slot).notices.set 25 true := rfl
    rw [hnotices, (f.beginClosure_stores slot).2.2.2]
  · rw [(f.closeReel_frame slot true i).2.2.2]
    simp only [Floor.clearedBy, true_and]
    split
    · nofun
    · next h => exact h

end Closure

/-- A reel number leads to the one reel that holds it (R46). -/
theorem State.StoresCanonical.find_number {s : State} (tables : s.StoresCanonical) {n : Nat} {e : Nat × Reel}
    (he : e ∈ s.floor.reels) (hn : e.2.number = n) : s.floor.reels.find? (fun e => e.2.number == n) = some e := by
  obtain ⟨d, hd⟩ : ∃ d, s.floor.reels.find? (fun e => e.2.number == n) = some d :=
    Option.isSome_iff_exists.1 (List.find?_isSome.2 ⟨e, he, beq_iff_eq.2 hn⟩)
  have hdn : d.2.number = n := by simpa using List.find?_some hd
  rw [hd, List.inj_on_of_nodup_map tables.numbers (List.mem_of_find?_eq_some hd) he (hdn.trans hn.symm)]

/-! ## The request -/

section Request

variable {s : State} {q : Request Nat} {n : Nat} (hs : s.Receives) (hq : readRequest none parse1 q = .ok n)

theorem State.closeIfEmpty_eq {slot : Nat} {reel : Reel} (h : s.floor.reel slot = some reel) :
    s.closeIfEmpty slot =
      if reel.order.isEmpty then { s with floor := s.floor.endClosure slot, closure := none } else s := by
  rw [State.closeIfEmpty, h]
  rfl

theorem State.handover_closed_respond (hs : s.Receives) (floor : Floor) (closure : Option Nat) (code : Byte) (st : Status)
    (p : List Byte) : ({ s.handover with floor := floor, closure := closure } : State).respond code st p =
      ({ s with closure := closure } : State).carriedOut floor code st p := by
  rcases hs with h | h
  · simp [State.handover, h, State.windowEnded, State.respond, State.carriedOut, State.replied]
  · simp [State.handover, h.1, State.respond, State.carriedOut, State.replied]

include hs hq

theorem exec_reelClose {slot : Nat} {reel : Reel} (hreel : s.floor.resolveReel n = .ok (slot, reel))
    (hlive : s.floor.reel slot = some reel) (hfree : s.closure = none) :
    exec (.reelClose q) s = .next (({ s with closure := if reel.order.isEmpty then none else some slot } : State).carriedOut
      (s.floor.closeReel slot reel.order.isEmpty) Code.reelClose .accepted []) := by
  refine (exec_owned hs rfl hq).trans (congrArg _ ?_)
  have hmarked : (s.floor.beginClosure slot).reel slot = some { reel with state := .reelClosing } := by
    rw [Floor.beginClosure_reel, hlive]
    simp
  have hclosed := State.closeIfEmpty_eq
    (s := { s.handover.modFloor fun f => f.beginClosure slot with closure := some slot }) (slot := slot)
    (by rw [State.modFloor_floor, State.handover_floor]; exact hmarked)
  have hfree' : (s.handover.closure).isNone = true := by simp [hfree]
  have hown : s.handover.ownReelClose n =
      (({ s.handover.modFloor fun f => f.beginClosure slot with closure := some slot } : State).closeIfEmpty slot).respond
        Code.reelClose .accepted [] := by
    simp only [State.ownReelClose, State.handover_floor, hreel, except_ok_bind, hfree', require_true]
    rfl
  rw [hown, hclosed]
  have hfloor : (s.handover.modFloor fun f => f.beginClosure slot).floor = s.floor.beginClosure slot := by
    rw [State.modFloor_floor, State.handover_floor]
  cases he : reel.order.isEmpty with
  | false =>
    rw [if_neg Bool.false_ne_true, if_neg Bool.false_ne_true, ← State.handover_closed_respond hs]
    simp only [Floor.closeReel, ← hfloor]
    rfl
  | true =>
    rw [if_pos rfl, if_pos rfl, ← State.handover_closed_respond hs]
    simp only [Floor.closeReel, ← hfloor]
    rfl

theorem exec_reelClose_refused {st : Status} (h : s.floor.resolveReel n = .error st) :
    exec (.reelClose q) s = .next (s.replied Code.reelClose st []) :=
  (exec_owned hs rfl hq).trans (by simp [State.ownReelClose, h, hs])

theorem exec_reelClose_busy {slot : Nat} {reel : Reel} (h : s.floor.resolveReel n = .ok (slot, reel))
    (hbusy : s.closure ≠ none) : exec (.reelClose q) s = .next (s.replied Code.reelClose .maintBusy []) := by
  have hbusy' : s.closure.isNone = false := Option.isNone_eq_false_iff.2 (Option.isSome_iff_ne_none.2 hbusy)
  exact (exec_owned hs rfl hq).trans (by simp [State.ownReelClose, h, hs, hbusy'])

end Request

/-- Settles O34: the closure begins with the stops of the stages that chase the reel, and ends at once where it has no
cues. -/
theorem reelCloseIsAccepted : Obligations.ReelCloseIsAccepted := by
  unfold Obligations.ReelCloseIsAccepted
  constructor
  · intro q n slot reel s hs tables hq hreel hfree chases cleared
    obtain ⟨hlive, hopen⟩ := Floor.resolveReel_reel tables.reels hreel
    have hexec := exec_reelClose hs hq hreel hlive hfree
    have hframe := s.floor.closeReel_frame slot reel.order.isEmpty
    have hother := fun i => Floor.closeReel_stage_other s.floor slot reel.order.isEmpty (i := i)
    have hreleased := fun i => Floor.closeReel_released s.floor slot reel.order.isEmpty (i := i)
    have htakes := s.floor.closeReel_takesAborted slot reel.order.isEmpty
    have hstores := s.floor.closeReel_stores slot reel.order.isEmpty
    have hreels := fun k => Floor.closeReel_reel s.floor slot reel.order.isEmpty (k := k)
    have hclosing := s.floor.closeReel_closing hlive
    have hclosed := s.floor.closeReel_closed slot
    have hcleared : ∀ i x, s.floor.clearedBy slot reel.order.isEmpty i x = cleared i x := fun i x => by
      simp only [Floor.clearedBy, List.isEmpty_iff, cleared]
    simp only [hcleared] at hframe
    have hchases : ∀ i, chases i = s.floor.chases slot i := fun _ => rfl
    have hruns : ∀ i, ((s.floor.closeReel slot reel.order.isEmpty).runner i).state =
        (if chases i then .standby else (s.floor.runner i).state) ∧
        ((s.floor.closeReel slot reel.order.isEmpty).runner i).runs =
          if chases i then [] else (s.floor.runner i).runs := fun i => by
      rw [(hframe i).2.2.2]
      exact ⟨rfl, rfl⟩
    refine ⟨_, hexec, rfl, rfl, fun i hsel hw => ?_, fun i hno => ?_, htakes, hreleased, hother, hframe, hreels,
      fun hne => ?_, fun hempty => ?_, hstores.1, hstores.2, rfl, rfl, rfl, rfl⟩
    · have hc : chases i = true := (s.floor.chases_iff slot i).2 ⟨hsel, hw⟩
      have hr := hruns i
      rw [hc] at hr
      exact hr
    · have hc : chases i = false := Bool.eq_false_iff.2 (mt (s.floor.chases_iff slot i).1 hno)
      have hr := hruns i
      rw [hc] at hr
      exact hr
    · have he : reel.order.isEmpty = false := Bool.eq_false_iff.2 (mt List.isEmpty_iff.1 hne)
      rw [he]
      exact ⟨rfl, hclosing⟩
    · have he : reel.order.isEmpty = true := List.isEmpty_iff.2 hempty
      rw [he]
      exact ⟨rfl, hclosed⟩
  · intro q n s hs tables hq refused
    have hfind : ∀ e ∈ s.floor.reels, e.2.number = n → s.floor.reels.find? (fun e => e.2.number == n) = some e :=
      fun e he hn => tables.find_number he hn
    refine ⟨fun hnone => exec_reelClose_refused hs hq (Floor.resolveReel_unknown hnone), fun e he hn hstate => ?_,
      fun e he hn hstate hbusy => ?_⟩
    · exact exec_reelClose_refused hs hq (Floor.resolveReel_closing (hfind e he hn) hstate)
    · exact exec_reelClose_busy hs hq ((s.floor.resolveReel_eq_ok_iff n e.1 e.2).2 ⟨hfind e he hn, hstate⟩) hbusy

end Sys2Proof.Machine
end

section
/-! A point of a forward move: what it makes of the runs of a stage, of their cues and of the monitor unit (R119 to R121,
R186). -/

namespace Sys2Proof.Machine

/-! ## One run -/

/-- The point t is the punch-out point of a cue. -/
def Floor.endsAt (f : Floor) (t h : Nat) : Bool :=
  match f.cue h with
  | some c => f.punchOut c == t
  | none => false

/-- A run that goes on, after the point t (R119, R120). -/
def Floor.pointed (f : Floor) (i : Fin 4) (t : Nat) (x : Run) : Run :=
  match f.cue x.handle with
  | some c => { (if f.claims i t x then f.claimed i t x else x) with phase := c.fields.phaseAt t }
  | none => x

/-- A cue after one of its runs took the point t (R40, R41, R121). -/
def Floor.cuePointed (f : Floor) (i : Fin 4) (t : Nat) (c : Cue) (r : Run) : Cue :=
  if f.punchOut c = t then { c with
    inFlight := c.inFlight - 1
    takeCount := if r.punch = .punched then min (c.takeCount + 1) 999 else c.takeCount
    lastTake := if r.punch = .punched then
        some { stage := i, punchedAt := (f.punchedBy r t).getD t, endedAt := t, outcome := .complete }
      else c.lastTake }
  else c

section OneRun

variable (f : Floor) (i : Fin 4) (t : Nat) (r : Run)

theorem Floor.pointed_handle (x : Run) : (f.pointed i t x).handle = x.handle := by
  unfold Floor.pointed
  split
  · split
    · exact f.claimed_handle i t x
    · rfl
  · rfl

theorem Floor.completeRun_stage (x : Run) (e : Nat) : (f.completeRun i x e).stage i = (f.stage i).withoutRun x.handle := by
  have hreport : ∀ y : Run, (f.reportRun i y e .complete).stage i = f.stage i := fun y => by
    unfold Floor.reportRun
    split <;> rfl
  have hcue : ∀ (g : Floor) (h : Nat) (u : Cue → Cue), (g.modCue h u).stage i = g.stage i := fun _ _ _ => rfl
  simp only [Floor.completeRun, Floor.dropRun, Floor.dropMark, Floor.modOverlay_stage, hcue, Floor.modRunner_stage, hreport]
  rfl

/-- What the point t for one run makes of its stage (R119, R121, R175). -/
theorem Floor.runAtPoint_stage : (f.runAtPoint i t r).stage i = { f.stage i with
    runner := { (f.stage i).runner with runs :=
      ((f.stage i).runner.runs.filter fun x => !(r.handle == x.handle && f.endsAt t r.handle)).map fun x =>
        if r.handle == x.handle then f.pointed i t x else x }
    overlay := { (f.stage i).overlay with flashMarks :=
      (f.stage i).overlay.flashMarks.filter fun h => !(r.handle == h && f.endsAt t r.handle) } } := by
  have hself : ∀ x : Run, r.handle = x.handle → f.cue x.handle = f.cue r.handle := fun x hx => by rw [hx]
  cases hc : f.cue r.handle with
  | none =>
    have hends : f.endsAt t r.handle = false := by rw [Floor.endsAt, hc]
    have hstand : f.runAtPoint i t r = f := by rw [Floor.runAtPoint, hc]
    have hmap : (fun x => if r.handle == x.handle then f.pointed i t x else x) = id := by
      funext x
      split
      · next hx => rw [Floor.pointed, hself x (beq_iff_eq.1 hx), hc]; rfl
      · rfl
    rw [hstand, hends, hmap]
    simp
  | some c =>
    by_cases ht : f.punchOut c = t
    · have hends : f.endsAt t r.handle = true := by rw [Floor.endsAt, hc]; exact beq_iff_eq.2 ht
      have hcomplete : f.runAtPoint i t r = f.completeRun i r t := by rw [Floor.runAtPoint, hc]; exact if_pos ht
      have hside : ∀ h, (h != r.handle) = !(r.handle == h) := fun h => by rw [bne, BEq.comm]
      have hmap : ((f.stage i).runner.runs.filter fun x => !(r.handle == x.handle)).map
          (fun x => if r.handle == x.handle then f.pointed i t x else x) =
          (f.stage i).runner.runs.filter fun x => !(r.handle == x.handle) := by
        refine (List.map_congr_left fun x hx => ?_).trans (List.map_id _)
        rw [if_neg (by simpa using (List.mem_filter.1 hx).2)]
        rfl
      rw [hcomplete, hends, Floor.completeRun_stage, Stage.withoutRun]
      simp only [Bool.and_true, hmap, hside]
    · have hends : f.endsAt t r.handle = false := by rw [Floor.endsAt, hc]; exact beq_false_of_ne ht
      have hgoes : f.runAtPoint i t r = f.modRunner i fun q => { q with runs := q.runs.map fun x =>
          if x.handle = r.handle then
            { (if f.claims i t x then f.claimed i t x else x) with phase := c.fields.phaseAt t }
          else x } := by
        rw [Floor.runAtPoint, hc]
        exact if_neg ht
      have hmap : (fun x => if x.handle = r.handle then
            ({ (if f.claims i t x then f.claimed i t x else x) with phase := c.fields.phaseAt t } : Run)
          else x) = fun x => if r.handle == x.handle then f.pointed i t x else x := by
        funext x
        by_cases hx : r.handle = x.handle
        · rw [if_pos hx.symm, if_pos (beq_iff_eq.2 hx), Floor.pointed, hself x hx, hc]
        · rw [if_neg (Ne.symm hx), if_neg (mt beq_iff_eq.1 hx)]
      rw [hgoes, hends, hmap, Floor.modRunner_stage]
      simp

/-- A run that completes, at its cue. -/
theorem Floor.completeRun_cue (h : Nat) : (f.completeRun i r t).cue h = (f.cue h).map fun c => if h = r.handle then { c with
    inFlight := c.inFlight - 1
    takeCount := if r.punch = .punched then min (c.takeCount + 1) 999 else c.takeCount
    lastTake := if r.punch = .punched then
        some { stage := i, punchedAt := (f.punchedBy r t).getD t, endedAt := t, outcome := .complete }
      else c.lastTake } else c := by
  simp only [Floor.completeRun, Floor.reportRun, Floor.dropRun, Floor.dropMark, Floor.cue, Floor.takeReport]
  split
  · next hp =>
    simp only [Floor.modOverlay_cues, Floor.modCue, Floor.modRunner_cues, Floor.countOccurrence_cues, Table.find_modify]
    by_cases hh : h = r.handle
    · simp only [hh, ↓reduceIte, Option.map_map]
      rfl
    · simp [hh]
  · next hp =>
    simp only [Floor.modOverlay_cues, Floor.modCue, Floor.modRunner_cues, Table.find_modify]
    by_cases hh : h = r.handle <;> simp [hh]

theorem Floor.runAtPoint_cue (h : Nat) : (f.runAtPoint i t r).cue h =
    (f.cue h).map fun c => if h = r.handle then f.cuePointed i t c r else c := by
  cases hc : f.cue r.handle with
  | none =>
    have hstand : f.runAtPoint i t r = f := by rw [Floor.runAtPoint, hc]
    rw [hstand]
    by_cases hh : h = r.handle
    · rw [hh, hc]; rfl
    · simp [hh]
  | some c =>
    by_cases ht : f.punchOut c = t
    · have hcomplete : f.runAtPoint i t r = f.completeRun i r t := by rw [Floor.runAtPoint, hc]; exact if_pos ht
      rw [hcomplete, Floor.completeRun_cue]
      by_cases hh : h = r.handle
      · rw [hh, hc]; simp [Floor.cuePointed, ht]
      · simp [hh]
    · have hgoes : (f.runAtPoint i t r).cue h = f.cue h := by
        rw [Floor.runAtPoint, hc]
        simp only [ht, ↓reduceIte]
        rfl
      rw [hgoes]
      by_cases hh : h = r.handle
      · rw [hh, hc]; simp [Floor.cuePointed, ht]
      · simp [hh]

/-! ## The monitor unit -/

/-- A counter after n occurrences of a source on a stage (R186, R187). -/
def Counter.taken (source : CounterSource) (i : Fin 4) (frozen : Bool) (n : Nat) (c : Counter) : Counter :=
  if c.source = source then c.counted frozen (c.sees i n) else c

theorem Counter.taken_zero (source : CounterSource) (frozen : Bool) (c : Counter) : c.taken source i frozen 0 = c := by
  have hzero : c.sees i 0 = 0 := by unfold Counter.sees; split <;> rfl
  rw [Counter.taken, hzero, Counter.counted_zero, ite_self]

/-- Occurrences add up. -/
theorem Counter.taken_taken (source : CounterSource) (frozen : Bool) (m n : Nat) (c : Counter) :
    (c.taken source i frozen m).taken source i frozen n = c.taken source i frozen (m + n) := by
  by_cases hc : c.source = source
  · have hsees : (c.counted frozen (c.sees i m)).sees i n = c.sees i n := by
      simp only [Counter.sees, Counter.counted_stage]
    have hsource : (c.counted frozen (c.sees i m)).source = source := (c.counted_source frozen _).trans hc
    rw [Counter.taken, Counter.taken, Counter.taken, if_pos hc, if_pos hsource, if_pos hc, hsees, Counter.counted_counted,
      Counter.sees_add]
  · simp only [Counter.taken, hc, ↓reduceIte]

theorem Floor.countOccurrence_counter (source : CounterSource) (k : Fin 8) :
    (f.countOccurrence i source).monitor.counters[k] = f.monitor.counters[k].taken source i f.monitor.frozen 1 := by
  simp only [Floor.countOccurrence, Floor.modCounters, Fin.getElem_fin, Vector.getElem_map]
  generalize f.monitor.counters[k.val] = c
  by_cases hs : c.stage = i <;> by_cases hc : c.source = source <;>
    simp [Counter.taken, Counter.counted, Counter.sees, Counter.add, hc, hs, Config.counterMax]

/-- A monitor unit that comes from another by occurrences of a source on a stage. -/
structure Monitor.Takes (source : CounterSource) (i : Fin 4) (n : Nat) (m m' : Monitor) : Prop where
  rest : m' = { m with counters := m'.counters }
  counters : ∀ k : Fin 8, m'.counters[k] = m.counters[k].taken source i m.frozen n

theorem Monitor.Takes.refl (source : CounterSource) (m : Monitor) : m.Takes source i 0 m :=
  ⟨rfl, fun _ => (Counter.taken_zero i source m.frozen _).symm⟩

theorem Monitor.Takes.trans {source : CounterSource} {a b : Nat} {m m' m'' : Monitor} (h : m.Takes source i a m')
    (h' : m'.Takes source i b m'') : m.Takes source i (a + b) m'' := by
  have hfrozen : m'.frozen = m.frozen := by rw [h.rest]
  refine ⟨?_, fun k => ?_⟩
  · rw [h'.rest, h.rest]
  · rw [h'.counters, h.counters, hfrozen, Counter.taken_taken]

theorem Floor.countOccurrence_takes (source : CounterSource) :
    f.monitor.Takes source i 1 (f.countOccurrence i source).monitor := ⟨rfl, fun k => f.countOccurrence_counter i source k⟩

/-- A PUNCHED run at its punch-out point is counted as a complete take (R186). -/
theorem Floor.runAtPoint_monitor : f.monitor.Takes .takesComplete i
    (if r.punch = .punched ∧ f.endsAt t r.handle = true then 1 else 0) (f.runAtPoint i t r).monitor := by
  cases hc : f.cue r.handle with
  | none =>
    have hstand : f.runAtPoint i t r = f := by rw [Floor.runAtPoint, hc]
    rw [hstand, Floor.endsAt, hc, if_neg (by simp)]
    exact .refl i _ _
  | some c =>
    by_cases ht : f.punchOut c = t
    · have hcomplete : f.runAtPoint i t r = f.completeRun i r t := by rw [Floor.runAtPoint, hc]; exact if_pos ht
      have hends : f.endsAt t r.handle = true := by rw [Floor.endsAt, hc]; exact beq_iff_eq.2 ht
      rw [hcomplete, hends]
      by_cases hp : r.punch = .punched
      · rw [if_pos ⟨hp, rfl⟩, Floor.completeRun, Floor.reportRun, if_pos hp]
        exact f.countOccurrence_takes i _
      · rw [if_neg fun h => hp h.1, Floor.completeRun, Floor.reportRun, if_neg hp]
        exact .refl i _ _
    · have hends : f.endsAt t r.handle = false := by rw [Floor.endsAt, hc]; exact beq_false_of_ne ht
      have hgoes : (f.runAtPoint i t r).monitor = f.monitor := by
        rw [Floor.runAtPoint, hc]
        simp only [ht, ↓reduceIte]
        rfl
      rw [hgoes, hends, if_neg (by simp)]
      exact .refl i _ _

end OneRun

/-! ## The runs of a list -/

/-- Two floors agree in what decides of a point: the reels, the reference count, the settled part of the cues, the record
mode and the path of the stage. -/
structure Floor.SamePoints (f g : Floor) (i : Fin 4) : Prop where
  reels : g.reels = f.reels
  now : g.now = f.now
  cue : ∀ h, (g.cue h).map Cue.settled = (f.cue h).map Cue.settled
  mode : (g.runner i).recordMode = (f.runner i).recordMode
  path : g.path i = f.path i

section SamePoints

variable {f g : Floor} {i : Fin 4} (a : f.SamePoints g i)
include a

/-- A cue of either floor is one of the other, with the same reel and fields. -/
theorem Floor.SamePoints.cue_cases (h : Nat) : f.cue h = none ∧ g.cue h = none ∨
    ∃ c d, f.cue h = some c ∧ g.cue h = some d ∧ d.reel = c.reel ∧ d.fields = c.fields := by
  have hcue := a.cue h
  cases hg : g.cue h with
  | none =>
    rw [hg] at hcue
    exact .inl ⟨Option.map_eq_none_iff.1 hcue.symm, rfl⟩
  | some d =>
    rw [hg] at hcue
    obtain ⟨c, hf, hc⟩ := Option.map_eq_some_iff.1 hcue.symm
    have hreel : c.reel = d.reel := congrArg Prod.fst hc
    have hfields : c.fields = d.fields := congrArg (fun x : Nat × CueFields × Enable × Approval × Lock => x.2.1) hc
    exact .inr ⟨c, d, hf, rfl, hreel.symm, hfields.symm⟩

theorem Floor.SamePoints.punchOut {c d : Cue} (hreel : d.reel = c.reel) (hfields : d.fields = c.fields) :
    g.punchOut d = f.punchOut c := by
  rw [Floor.punchOut, Floor.punchOut, hfields, hreel, Floor.reelRate, Floor.reelRate, Floor.reel, Floor.reel, a.reels]

theorem Floor.SamePoints.endsAt (t h : Nat) : g.endsAt t h = f.endsAt t h := by
  rw [Floor.endsAt, Floor.endsAt]
  obtain ⟨hf, hg⟩ | ⟨c, d, hf, hg, hreel, hfields⟩ := a.cue_cases h
  · rw [hf, hg]
  · rw [hf, hg]
    simp only [a.punchOut hreel hfields]

theorem Floor.SamePoints.claimed (t : Nat) (x : Run) : g.claimed i t x = f.claimed i t x := by
  rw [Floor.claimed, Floor.claimed, Floor.recordGate, Floor.recordGate, a.path, a.now]

theorem Floor.SamePoints.pointed (t : Nat) (x : Run) : g.pointed i t x = f.pointed i t x := by
  rw [Floor.pointed, Floor.pointed]
  obtain ⟨hf, hg⟩ | ⟨c, d, hf, hg, -, hfields⟩ := a.cue_cases x.handle
  · rw [hf, hg]
  · have hclaims : g.claims i t x = f.claims i t x := by
      rw [Floor.claims, Floor.claims, hf, hg, a.mode]
      simp only [hfields]
    rw [hf, hg]
    simp only [hclaims, a.claimed, hfields]

theorem Floor.SamePoints.cuePointed (t : Nat) (c : Cue) (r : Run) : g.cuePointed i t c r = f.cuePointed i t c r := by
  have hout : g.punchOut c = f.punchOut c := a.punchOut rfl rfl
  rw [Floor.cuePointed, Floor.cuePointed, hout, Floor.punchedBy, Floor.punchedBy, a.now]

end SamePoints

theorem Floor.runAtPoint_samePoints (f : Floor) (i : Fin 4) (t : Nat) (r : Run) : f.SamePoints (f.runAtPoint i t r) i := by
  have hevent := f.runAtPoint_stageEvent i t r
  have hstage := f.runAtPoint_stage i t r
  refine ⟨hevent.reels, hevent.now, hevent.cue, ?_, ?_⟩
  · rw [Floor.runner, hstage]; rfl
  · rw [Floor.path, hstage]; rfl

section Fold

variable (i : Fin 4) (t : Nat)

/-- The point t for some runs of a stage, one after another, each of another cue (R119). -/
theorem Floor.foldl_runAtPoint_stage (l : List Run) (hl : (l.map Run.handle).Nodup) (f : Floor) :
    (l.foldl (fun f r => f.runAtPoint i t r) f).stage i = { f.stage i with
      runner := { (f.stage i).runner with runs :=
        ((f.stage i).runner.runs.filter fun x => !l.any fun r => r.handle == x.handle && f.endsAt t r.handle).map fun x =>
          if (l.any fun r => r.handle == x.handle) then f.pointed i t x else x }
      overlay := { (f.stage i).overlay with flashMarks :=
        (f.stage i).overlay.flashMarks.filter fun h => !l.any fun r => r.handle == h && f.endsAt t r.handle } } := by
  induction l generalizing f with
  | nil => simp
  | cons r l ih =>
    obtain ⟨hr, hnodup⟩ := List.nodup_cons.1 hl
    have hsame := f.runAtPoint_samePoints i t r
    rw [List.foldl_cons, ih hnodup, Floor.runAtPoint_stage]
    have hkeep : ∀ x : Run, (if r.handle == x.handle then f.pointed i t x else x).handle = x.handle := fun x => by
      split
      · exact f.pointed_handle i t x
      · rfl
    have hmap : ((fun x => if (l.any fun r => r.handle == x.handle) then f.pointed i t x else x) ∘ fun x =>
        if r.handle == x.handle then f.pointed i t x else x) =
        fun x => if (r.handle == x.handle || l.any fun r => r.handle == x.handle) then f.pointed i t x else x := by
      funext x
      cases hx : r.handle == x.handle with
      | false => simp only [Function.comp_apply, hx, Bool.false_eq_true, ↓reduceIte, Bool.false_or]
      | true =>
        have hnone : (l.any fun r => r.handle == x.handle) = false := List.any_eq_false.2 fun y hy heq =>
          hr (List.mem_map.2 ⟨y, hy, (beq_iff_eq.1 heq).trans (beq_iff_eq.1 hx).symm⟩)
        simp only [Function.comp_apply, hx, ↓reduceIte, Bool.true_or, f.pointed_handle i t x, hnone, Bool.false_eq_true]
    have hcomm : ∀ (p : Run → Bool) (b : Bool), (!l.any p && b) = (b && !l.any p) := fun _ _ => Bool.and_comm _ _
    simp only [hsame.endsAt, hsame.pointed, List.filter_map, List.map_map, List.filter_filter, List.any_cons, Bool.not_or,
      hmap, Function.comp_def, hkeep, hcomm] <;> rfl

theorem Floor.foldl_runAtPoint_samePoints (l : List Run) (f : Floor) :
    f.SamePoints (l.foldl (fun f r => f.runAtPoint i t r) f) i := by
  induction l generalizing f with
  | nil => exact ⟨rfl, rfl, fun _ => rfl, rfl, rfl⟩
  | cons r l ih =>
    have a := f.runAtPoint_samePoints i t r
    have b := ih (f.runAtPoint i t r)
    exact ⟨b.reels.trans a.reels, b.now.trans a.now, fun h => (b.cue h).trans (a.cue h), b.mode.trans a.mode,
      b.path.trans a.path⟩

theorem Floor.foldl_runAtPoint_cue (h : Nat) (l : List Run) (f : Floor) :
    (l.foldl (fun f r => f.runAtPoint i t r) f).cue h =
      (f.cue h).map fun c => (l.filter fun r => r.handle == h).foldl (f.cuePointed i t) c := by
  induction l generalizing f with
  | nil => simp
  | cons r l ih =>
    have hsame := f.runAtPoint_samePoints i t r
    have hpointed : (f.runAtPoint i t r).cuePointed i t = f.cuePointed i t := by
      funext c x
      exact hsame.cuePointed t c x
    rw [List.foldl_cons, ih, Floor.runAtPoint_cue, Option.map_map, hpointed, List.filter_cons]
    by_cases hh : h = r.handle
    · simp [hh, Function.comp_def]
    · simp [hh, Ne.symm hh, Function.comp_def]

theorem Floor.foldl_runAtPoint_monitor (l : List Run) (f : Floor) : f.monitor.Takes .takesComplete i
    (l.filter fun r => r.punch == .punched && f.endsAt t r.handle).length
    (l.foldl (fun f r => f.runAtPoint i t r) f).monitor := by
  induction l generalizing f with
  | nil => exact .refl i _ _
  | cons r l ih =>
    have hsame := f.runAtPoint_samePoints i t r
    have htakes := (f.runAtPoint_monitor i t r).trans i (ih (f.runAtPoint i t r))
    simp only [hsame.endsAt] at htakes
    have hcount : ((r :: l).filter fun r => r.punch == .punched && f.endsAt t r.handle).length =
        (if r.punch = .punched ∧ f.endsAt t r.handle = true then 1 else 0) +
          (l.filter fun r => r.punch == .punched && f.endsAt t r.handle).length := by
      rw [List.filter_cons]
      by_cases hp : r.punch = .punched ∧ f.endsAt t r.handle = true
      · simp [hp, Nat.add_comm]
      · have hb : (r.punch == .punched && f.endsAt t r.handle) = false := by
          simpa [Bool.and_eq_true] using hp
        simp [hb, hp]
    rw [hcount]
    exact htakes

end Fold

end Sys2Proof.Machine
end

section
/-! The claims at a point, and what the path makes of them (R120, R135 to R137). -/

namespace Sys2Proof.Machine

/-! ## A path settled with claims that wait -/

/-- A claim that waits is granted at once, where no gap runs or starts (R135, R136). -/
def Path.grantsClaim (p : Path) (gap : Nat) : Bool :=
  match p.state with
  | .record => false
  | .talk => p.gapExpiry.isNone && gap == 0
  | _ => p.gapExpiry.isNone

/-- A settled path grants the claims that wait. -/
def Floor.grantsNow (f : Floor) (i : Fin 4) : Bool :=
  f.demandNow i && (f.recordRequest i && (f.path i).grantsClaim (f.gapCounts i))

section Settle

variable (f : Floor) (i : Fin 4)

theorem Floor.grant_runner (late : Option Nat) : (f.grant i late).runner i =
    { f.runner i with runs := (f.runner i).runs.map (Run.granted late (f.tracker i).position) } := by
  simp [Floor.grant]

theorem Floor.grant_path (late : Option Nat) : (f.grant i late).path i = { f.path i with state := .record } := by
  simp [Floor.grant]

/-- Demand that arises: a gap starts where the talkback gate is released (R133, R135). -/
theorem Floor.raiseDemand_path : (f.raiseDemand i).path i = { f.path i with
    state := .protected_, demand := true
    gapExpiry := if (f.path i).state = .talk ∧ f.gapCounts i ≠ 0 then some (f.now + f.gapCounts i)
      else (f.path i).gapExpiry } := by
  have hlength : f.gapLength i = f.gapCounts i := rfl
  unfold Floor.raiseDemand Floor.startGap
  by_cases ht : (f.path i).state = .talk
  · by_cases hg : f.gapCounts i = 0 <;> simp [ht, hlength, hg]
  · simp [ht]

theorem Floor.raiseDemand_runner : (f.raiseDemand i).runner i = f.runner i ∧ (f.raiseDemand i).tracker i = f.tracker i := by
  unfold Floor.raiseDemand Floor.startGap
  dsimp only
  split
  · split <;> simp
  · simp

theorem Floor.releaseRecord_runner (demand : Bool) : (f.releaseRecord i demand).runner i = f.runner i := by
  unfold Floor.releaseRecord Floor.startGap
  dsimp only
  split <;> simp

/-- A settled path where demand arises: the claims that wait are granted where no gap runs then (R135, R136). -/
theorem Floor.settlePath_raised (h : (f.path i).state = .free ∨ (f.path i).state = .talk ∨ (f.path i).state = .gap) :
    f.settlePath i = if f.demandNow i then
      (if f.recordRequest i && ((f.raiseDemand i).path i).gapExpiry.isNone then (f.raiseDemand i).grant i none
        else f.raiseDemand i)
      else f := by
  unfold Floor.settlePath
  obtain h | h | h := h <;> rw [h]

theorem Path.grantsClaim_raised (p : Path) (now gap : Nat) (h : p.state ≠ .record) :
    p.grantsClaim gap = (if p.state = .talk ∧ gap ≠ 0 then some (now + gap) else p.gapExpiry).isNone := by
  unfold Path.grantsClaim
  cases hs : p.state with
  | record => exact absurd hs h
  | talk => by_cases hg : gap = 0 <;> simp [hg]
  | protected_ => simp
  | free => simp
  | gap => simp

/-- A settled path punches the runs that wait, or leaves the runner as it is (R136). -/
theorem Floor.settlePath_runner : (f.settlePath i).runner i =
    if f.grantsNow i then
      { f.runner i with runs := (f.runner i).runs.map (Run.granted none (f.tracker i).position) }
    else f.runner i := by
  have hraised : (f.path i).state = .free ∨ (f.path i).state = .talk ∨ (f.path i).state = .gap →
      (f.settlePath i).runner i = if f.grantsNow i then
        { f.runner i with runs := (f.runner i).runs.map (Run.granted none (f.tracker i).position) }
        else f.runner i := fun h => by
    have hrecord : (f.path i).state ≠ .record := by rintro hr; rw [hr] at h; simp at h
    obtain ⟨hrunner, htracker⟩ := f.raiseDemand_runner i
    rw [f.settlePath_raised i h, Floor.raiseDemand_path, Floor.grantsNow, (f.path i).grantsClaim_raised f.now _ hrecord]
    cases hd : f.demandNow i with
    | false => rfl
    | true =>
      cases hg : f.recordRequest i && (if (f.path i).state = .talk ∧ f.gapCounts i ≠ 0 then
          some (f.now + f.gapCounts i) else (f.path i).gapExpiry).isNone with
      | false => simp [hrunner]
      | true => simp [Floor.grant_runner, hrunner, htracker]
  cases hs : (f.path i).state with
  | free => exact hraised (.inl hs)
  | talk => exact hraised (.inr (.inl hs))
  | gap => exact hraised (.inr (.inr hs))
  | record =>
    have hnone : f.grantsNow i = false := by simp [Floor.grantsNow, Path.grantsClaim, hs]
    unfold Floor.settlePath
    rw [hs, hnone]
    cases f.recordRequest i with
    | true => simp
    | false => simp [Floor.releaseRecord_runner]
  | protected_ =>
    unfold Floor.settlePath Floor.grantsNow Path.grantsClaim
    rw [hs]
    cases hd : f.demandNow i with
    | false => simp
    | true =>
      cases hg : f.recordRequest i && (f.path i).gapExpiry.isNone with
      | false => simp [hg]
      | true => simp [hg, Floor.grant_runner]

/-- Where a claim stands, a settled path goes to RECORD with the claims granted, or to PROTECTED with a gap running (R135,
R136). -/
theorem Floor.settlePath_claimed {f : Floor} {i : Fin 4} (t : (f.stage i).PathTable) (hr : f.recordRequest i = true) :
    (f.settlePath i).path i =
      if (f.path i).state = .record ∨ (f.path i).grantsClaim (f.gapCounts i) = true then
        { f.path i with state := .record, demand := true }
      else { f.path i with
        state := .protected_, demand := true
        gapExpiry := if (f.path i).state = .talk then some (f.now + f.gapCounts i) else (f.path i).gapExpiry } := by
  have hd : f.demandNow i = true := Floor.demandNow_of_request t hr
  have hheld : (f.path i).demand = true ↔ (f.path i).state = .protected_ ∨ (f.path i).state = .record := t.demand
  have htalk : (f.path i).state = .talk → (f.path i).gapExpiry = none := fun h => (t.talk h).1
  have hraised : (f.path i).state = .free ∨ (f.path i).state = .talk ∨ (f.path i).state = .gap → (f.settlePath i).path i =
      if (f.path i).grantsClaim (f.gapCounts i) = true then { f.path i with state := .record, demand := true }
      else { f.path i with
        state := .protected_, demand := true
        gapExpiry := if (f.path i).state = .talk then some (f.now + f.gapCounts i) else (f.path i).gapExpiry } := fun h => by
    have hrecord : (f.path i).state ≠ .record := by rintro hr; rw [hr] at h; simp at h
    have hgrants := (f.path i).grantsClaim_raised f.now (f.gapCounts i) hrecord
    rw [f.settlePath_raised i h, Floor.raiseDemand_path, hd, hr, ← hgrants]
    have hgap : ∀ b, (f.path i).grantsClaim (f.gapCounts i) = b → (f.path i).state = .talk → b = decide (f.gapCounts i = 0) :=
      fun b hb ht => by rw [← hb, Path.grantsClaim, ht, htalk ht]; rfl
    cases hg : (f.path i).grantsClaim (f.gapCounts i) with
    | true =>
      by_cases ht : (f.path i).state = .talk
      · have hzero : f.gapCounts i = 0 := by simpa using (hgap true hg ht).symm
        simp [Floor.grant_path, Floor.raiseDemand_path, hzero]
      · simp [Floor.grant_path, Floor.raiseDemand_path, ht]
    | false =>
      by_cases ht : (f.path i).state = .talk
      · have hzero : f.gapCounts i ≠ 0 := by simpa using (hgap false hg ht).symm
        simp [Floor.raiseDemand_path, ht, hzero]
      · simp [Floor.raiseDemand_path, ht]
  cases hs : (f.path i).state with
  | free => simpa [hs] using hraised (.inl hs)
  | talk => simpa [hs] using hraised (.inr (.inl hs))
  | gap => simpa [hs] using hraised (.inr (.inr hs))
  | record =>
    unfold Floor.settlePath
    simp [hs, hr, hd]
  | protected_ =>
    have hpath : (f.path i).demand = true := hheld.2 (.inl hs)
    have hsame : { f.path i with state := .protected_, demand := true } = f.path i := by rw [← hs, ← hpath]
    unfold Floor.settlePath Path.grantsClaim
    cases hg : (f.path i).gapExpiry.isNone with
    | true => simp [hs, hr, hd, Floor.grant_path, ← hpath]
    | false => simp [hs, hr, hd, hsame]

end Settle

end Sys2Proof.Machine
end

section
/-! A point taken by all runs of a stage (R119 to R121, R134 to R137). -/

namespace Sys2Proof.Machine

/-- Of runs that name different cues, one names its own. -/
theorem filter_handle_eq_singleton {r : Run} : ∀ {l : List Run}, (l.map Run.handle).Nodup → r ∈ l →
    (l.filter fun x => x.handle == r.handle) = [r]
  | y :: l, hnodup, hr => by
    obtain ⟨hy, hl⟩ := List.nodup_cons.1 hnodup
    rcases List.mem_cons.1 hr with rfl | hr
    · have hnone : (l.filter fun x => x.handle == r.handle) = [] :=
        List.filter_eq_nil_iff.2 fun x hx heq => hy (List.mem_map.2 ⟨x, hx, beq_iff_eq.1 heq⟩)
      rw [List.filter_cons, if_pos (beq_self_eq_true _), hnone]
    · have hne : ¬(y.handle == r.handle) = true := fun heq => hy (List.mem_map.2 ⟨r, hr, (beq_iff_eq.1 heq).symm⟩)
      rw [List.filter_cons, if_neg hne, filter_handle_eq_singleton hl hr]

section Fold

variable (f : Floor) (i : Fin 4) (t : Nat)

/-- The point t for every run of the list, before the path is settled. -/
def Floor.pointFold : Floor := (f.runner i).runs.foldl (fun f r => f.runAtPoint i t r) f

theorem Floor.runsAtPoint_eq : f.runsAtPoint i t = (f.pointFold i t).settlePath i := rfl

theorem Floor.pointFold_samePoints : f.SamePoints (f.pointFold i t) i := Floor.foldl_runAtPoint_samePoints i t _ f

theorem Floor.pointFold_stage (hnodup : ((f.runner i).runs.map Run.handle).Nodup) :
    (f.pointFold i t).stage i = { f.stage i with
      runner := { f.runner i with runs :=
        ((f.runner i).runs.filter fun x => !f.endsAt t x.handle).map (f.pointed i t) }
      overlay := { f.overlay i with flashMarks :=
        (f.overlay i).flashMarks.filter fun h => !(f.runner i).runs.any fun r => r.handle == h && f.endsAt t h } } := by
  have hends : ∀ h, ((f.runner i).runs.any fun r => r.handle == h && f.endsAt t r.handle) =
      (f.runner i).runs.any fun r => r.handle == h && f.endsAt t h := fun h => by
    refine congrArg (List.any _) (funext fun r => ?_)
    cases hr : r.handle == h with
    | false => rfl
    | true => rw [beq_iff_eq.1 hr]
  have hin : ∀ x ∈ (f.runner i).runs, ((f.runner i).runs.any fun r => r.handle == x.handle) = true := fun x hx =>
    List.any_eq_true.2 ⟨x, hx, beq_self_eq_true _⟩
  have hfilter : ((f.runner i).runs.filter fun x =>
      !(f.runner i).runs.any fun r => r.handle == x.handle && f.endsAt t r.handle) =
      (f.runner i).runs.filter fun x => !f.endsAt t x.handle := by
    refine List.filter_congr fun x hx => ?_
    rw [hends]
    cases he : f.endsAt t x.handle with
    | false => simp
    | true => simp only [Bool.and_true, hin x hx]
  have hmap : ((f.runner i).runs.filter fun x => !f.endsAt t x.handle).map
      (fun x => if ((f.runner i).runs.any fun r => r.handle == x.handle) then f.pointed i t x else x) =
      ((f.runner i).runs.filter fun x => !f.endsAt t x.handle).map (f.pointed i t) :=
    List.map_congr_left fun x hx => if_pos (hin x (List.mem_filter.1 hx).1)
  have hstage := Floor.foldl_runAtPoint_stage i t (f.runner i).runs hnodup f
  have hrunner : (f.stage i).runner = f.runner i := rfl
  rw [hrunner, hfilter, hmap] at hstage
  refine hstage.trans ?_
  simp only [hends]
  rfl

/-- A cue that one run names takes the point once. -/
theorem Floor.pointFold_cue (hnodup : ((f.runner i).runs.map Run.handle).Nodup) {r : Run} (hr : r ∈ (f.runner i).runs) :
    (f.pointFold i t).cue r.handle = (f.cue r.handle).map fun c => f.cuePointed i t c r := by
  have hone : ((f.runner i).runs.filter fun x => x.handle == r.handle) = [r] :=
    filter_handle_eq_singleton hnodup hr
  rw [Floor.pointFold, Floor.foldl_runAtPoint_cue, hone]
  rfl

theorem Floor.pointFold_cue_other {h : Nat} (hh : h ∉ (f.runner i).runs.map Run.handle) :
    (f.pointFold i t).cue h = f.cue h := by
  have hnone : ((f.runner i).runs.filter fun x => x.handle == h) = [] :=
    List.filter_eq_nil_iff.2 fun x hx heq => hh (List.mem_map.2 ⟨x, hx, beq_iff_eq.1 heq⟩)
  rw [Floor.pointFold, Floor.foldl_runAtPoint_cue, hnone]
  simp

theorem Floor.pointFold_monitor : f.monitor.Takes .takesComplete i
    ((f.runner i).runs.filter fun r => r.punch == .punched && f.endsAt t r.handle).length (f.pointFold i t).monitor :=
  Floor.foldl_runAtPoint_monitor i t _ f

end Fold

/-! ## A run at the point -/

section Pointed

variable {f : Floor} {i : Fin 4} {t : Nat} {x : Run} {c : Cue}

theorem Floor.claims_iff : f.claims i t x = true ↔
    x.punch = .unpunched ∧ (f.runner i).recordMode = .record ∧ ∃ c, f.cue x.handle = some c ∧ c.fields.punchInPoint = t := by
  unfold Floor.claims
  cases f.cue x.handle with
  | none => simp
  | some c => simp [and_comm, and_left_comm]

theorem Floor.pointed_claims (hc : f.cue x.handle = some c) (h : f.claims i t x = true) :
    f.pointed i t x = { f.claimed i t x with phase := c.fields.phaseAt t } := by
  rw [Floor.pointed, hc]
  simp only [h, ↓reduceIte]

theorem Floor.pointed_stands (hc : f.cue x.handle = some c) (h : f.claims i t x = false) :
    f.pointed i t x = { x with phase := c.fields.phaseAt t } := by
  rw [Floor.pointed, hc]
  simp only [h, Bool.false_eq_true, ↓reduceIte]

/-- A claim is PUNCHED or WAITING (R120). -/
theorem Floor.claimed_punch (f : Floor) (i : Fin 4) (t : Nat) (x : Run) : (f.claimed i t x).punch ≠ .unpunched := by
  unfold Floor.claimed
  split <;> nofun

theorem Floor.pointed_punch (hc : f.cue x.handle = some c) :
    (f.pointed i t x).punch ≠ .unpunched ↔ f.claims i t x = true ∨ x.punch ≠ .unpunched := by
  cases h : f.claims i t x with
  | true =>
    rw [Floor.pointed_claims hc h]
    exact ⟨fun _ => .inl rfl, fun _ => f.claimed_punch i t x⟩
  | false =>
    rw [Floor.pointed_stands hc h]
    simp

end Pointed

/-! ## The path at the point -/

section Path

variable {f : Floor} {i : Fin 4} {t : Nat} (hnodup : ((f.runner i).runs.map Run.handle).Nodup)
include hnodup

theorem Floor.pointFold_runner : (f.pointFold i t).runner i = { f.runner i with
    runs := ((f.runner i).runs.filter fun x => !f.endsAt t x.handle).map (f.pointed i t) } := by
  rw [Floor.runner, f.pointFold_stage i t hnodup]

theorem Floor.pointFold_frame : (f.pointFold i t).path i = f.path i ∧ (f.pointFold i t).tracker i = f.tracker i ∧
    (f.pointFold i t).gapCounts i = f.gapCounts i := by
  have hstage := f.pointFold_stage i t hnodup
  have hpath : (f.pointFold i t).path i = f.path i := by rw [Floor.path, hstage]; rfl
  have htracker : (f.pointFold i t).tracker i = f.tracker i := by rw [Floor.tracker, hstage]; rfl
  exact ⟨hpath, htracker, by simp only [Floor.gapCounts, hpath, htracker]⟩

variable (hlive : ∀ r ∈ (f.runner i).runs, (f.cue r.handle).isSome = true)
include hlive

/-- The run that a run of the list after the point was before. -/
theorem Floor.mem_pointFold {y : Run} (hy : y ∈ ((f.pointFold i t).runner i).runs) :
    ∃ x ∈ (f.runner i).runs, f.endsAt t x.handle = false ∧ y = f.pointed i t x ∧ ∃ c, f.cue x.handle = some c := by
  rw [Floor.pointFold_runner hnodup] at hy
  obtain ⟨x, hx, rfl⟩ := List.mem_map.1 hy
  obtain ⟨hx, he⟩ := List.mem_filter.1 hx
  exact ⟨x, hx, by simpa using he, rfl, Option.isSome_iff_exists.1 (hlive x hx)⟩

theorem Floor.pointFold_table (table : (f.stage i).PathTable) : ((f.pointFold i t).stage i).PathTable := by
  have hp : ((f.pointFold i t).stage i).path = (f.stage i).path := (Floor.pointFold_frame hnodup).1
  refine ⟨hp ▸ table.free, hp ▸ table.talk, hp ▸ table.record, hp ▸ table.gap, hp ▸ table.demand, fun y hy hpunch => ?_⟩
  have hmode : ((f.pointFold i t).runner i).recordMode = (f.runner i).recordMode := (f.pointFold_samePoints i t).mode
  obtain ⟨x, hx, -, rfl, c, hc⟩ := Floor.mem_pointFold hnodup hlive hy
  refine hmode.trans ?_
  obtain hclaims | hx' := (Floor.pointed_punch hc).1 hpunch
  · exact (Floor.claims_iff.1 hclaims).2.1
  · exact table.windows x hx hx'

/-- Without a claim at the point no run claims that did not before. -/
theorem Floor.pointFold_claimsStand (stand : (f.stage i).ClaimsStand)
    (hnone : ∀ r ∈ (f.runner i).runs, f.endsAt t r.handle = false → f.claims i t r = false) :
    ((f.pointFold i t).stage i).ClaimsStand := by
  have hp : ((f.pointFold i t).stage i).path = (f.stage i).path := (Floor.pointFold_frame hnodup).1
  rintro ⟨y, hy, hpunch⟩
  obtain ⟨x, hx, hends, rfl, c, hc⟩ := Floor.mem_pointFold hnodup hlive hy
  rw [hp]
  obtain hclaims | hx' := (Floor.pointed_punch hc).1 hpunch
  · rw [hnone x hx hends] at hclaims; cases hclaims
  · exact stand ⟨x, hx, hx'⟩

/-- A claim at the point requests the record path (R120, R124). -/
theorem Floor.pointFold_request {r : Run} (hr : r ∈ (f.runner i).runs) (hends : f.endsAt t r.handle = false)
    (hclaims : f.claims i t r = true) : (f.pointFold i t).recordRequest i = true := by
  obtain ⟨c, hc⟩ := Option.isSome_iff_exists.1 (hlive r hr)
  rw [Floor.recordRequest, Floor.pointFold_runner hnodup]
  refine List.any_eq_true.2 ⟨f.pointed i t r, List.mem_map.2 ⟨r, List.mem_filter.2 ⟨hr, by simpa using hends⟩, rfl⟩, ?_⟩
  exact bne_iff_ne.2 ((Floor.pointed_punch hc).2 (.inl hclaims))

/-- The path after a point without a claim (R135, R137). -/
theorem Floor.runsAtPoint_path_settled (table : (f.stage i).PathTable) (stand : (f.stage i).ClaimsStand)
    (hnone : ∀ r ∈ (f.runner i).runs, f.endsAt t r.handle = false → f.claims i t r = false) :
    (f.runsAtPoint i t).path i = (f.path i).settled f.now (f.gapCounts i)
      (((f.runsAtPoint i t).runner i).runs.any fun r => r.punch != .unpunched)
      (f.demands i ((f.runsAtPoint i t).runner i).runs) := by
  obtain ⟨hpath, htracker, hcounts⟩ := Floor.pointFold_frame (t := t) hnodup
  have hsame := f.pointFold_samePoints i t
  obtain ⟨hrunner, hsettled⟩ := Floor.settlePath_settled (Floor.pointFold_table hnodup hlive table)
    (Floor.pointFold_claimsStand hnodup hlive stand hnone)
  rw [Floor.runsAtPoint_eq, hsettled, hrunner, hpath, hcounts, hsame.now, Floor.demandNow_eq, Floor.recordRequest,
    Floor.demands_congr hsame.cue hsame.mode hpath htracker]

/-- The path after a point with a claim (R120, R135, R136). -/
theorem Floor.runsAtPoint_path_claimed (table : (f.stage i).PathTable) {r : Run} (hr : r ∈ (f.runner i).runs)
    (hends : f.endsAt t r.handle = false) (hclaims : f.claims i t r = true) :
    (f.runsAtPoint i t).path i =
      if (f.path i).state = .record ∨ (f.path i).grantsClaim (f.gapCounts i) = true then
        { f.path i with state := .record, demand := true }
      else { f.path i with
        state := .protected_, demand := true
        gapExpiry := if (f.path i).state = .talk then some (f.now + f.gapCounts i) else (f.path i).gapExpiry } := by
  obtain ⟨hpath, -, hcounts⟩ := Floor.pointFold_frame (t := t) hnodup
  have hclaimed := Floor.settlePath_claimed (Floor.pointFold_table hnodup hlive table)
    (Floor.pointFold_request hnodup hlive hr hends hclaims)
  rw [Floor.runsAtPoint_eq, hclaimed, hpath, hcounts, (f.pointFold_samePoints i t).now]

end Path

/-! ## The runs after the point -/

/-- A run that goes on, after the point and the settling of the path. -/
def Floor.afterPoint (f : Floor) (i : Fin 4) (t : Nat) (x : Run) : Run :=
  if (f.pointFold i t).grantsNow i then (f.pointed i t x).granted none t else f.pointed i t x

/-- A path grants a claim made at once, where it asserts the record gate or can assert it (R120, R136). -/
def Path.Grants (p : Path) (gap : Nat) : Prop :=
  p.state = .record ∨ (p.state = .free ∨ p.state = .protected_) ∧ p.gapExpiry = none ∨
    p.state = .talk ∧ p.gapExpiry = none ∧ gap = 0

/-- A path lets a claim wait for the end of a gap (R136). -/
def Path.Waits (p : Path) (gap : Nat) : Prop :=
  (p.state = .gap ∨ p.state = .protected_) ∧ p.gapExpiry ≠ none ∨ p.state = .talk ∧ gap ≠ 0

theorem Path.Grants.grantsClaim {p : Path} {gap : Nat} (h : p.Grants gap) : p.state = .record ∨ p.grantsClaim gap = true := by
  unfold Path.grantsClaim
  obtain h | ⟨h | h, hg⟩ | ⟨h, hg, hzero⟩ := h
  · exact .inl h
  · rw [h, hg]; exact .inr rfl
  · rw [h, hg]; exact .inr rfl
  · rw [h, hg, hzero]; exact .inr rfl

theorem Path.Waits.grantsClaim {p : Path} {gap : Nat} (h : p.Waits gap) :
    p.state ≠ .record ∧ p.grantsClaim gap = false := by
  unfold Path.grantsClaim
  obtain ⟨h | h, hg⟩ | ⟨h, hg⟩ := h
  · rw [h]; exact ⟨nofun, Option.isNone_eq_false_iff.2 (Option.isSome_iff_ne_none.2 hg)⟩
  · rw [h]; exact ⟨nofun, Option.isNone_eq_false_iff.2 (Option.isSome_iff_ne_none.2 hg)⟩
  · rw [h]; exact ⟨nofun, by simp [hg]⟩

section After

variable {f : Floor} {i : Fin 4} {t : Nat}

theorem Floor.afterPoint_handle (f : Floor) (i : Fin 4) (t : Nat) (x : Run) : (f.afterPoint i t x).handle = x.handle := by
  unfold Floor.afterPoint
  split
  · rw [Run.granted_handle, Floor.pointed_handle]
  · exact f.pointed_handle i t x

/-- What does not wait after the point is not granted. -/
theorem Floor.afterPoint_of_not_waiting {x : Run} (h : (f.pointed i t x).punch ≠ .waiting) :
    f.afterPoint i t x = f.pointed i t x := by
  unfold Floor.afterPoint
  split
  · exact Run.granted_of_not_waiting _ _ _ h
  · rfl

section Run

variable {x : Run} {c : Cue} (hc : f.cue x.handle = some c)
include hc

theorem Floor.afterPoint_phase : (f.afterPoint i t x).phase = c.fields.phaseAt t := by
  have hphase : (f.pointed i t x).phase = c.fields.phaseAt t := by rw [Floor.pointed, hc]
  unfold Floor.afterPoint
  split
  · rw [Run.granted_phase, hphase]
  · exact hphase

/-- A run that makes no claim and does not wait takes the phase alone. -/
theorem Floor.afterPoint_stands (hclaims : f.claims i t x = false) (h : x.punch ≠ .waiting) :
    f.afterPoint i t x = { x with phase := c.fields.phaseAt t } := by
  have hpointed := Floor.pointed_stands (i := i) (t := t) hc hclaims
  rw [Floor.afterPoint_of_not_waiting (by rw [hpointed]; exact h), hpointed]

end Run

variable (hnodup : ((f.runner i).runs.map Run.handle).Nodup)
include hnodup

theorem Floor.pointFold_grantsNow : (f.pointFold i t).grantsNow i = ((f.pointFold i t).demandNow i &&
    ((f.pointFold i t).recordRequest i && (f.path i).grantsClaim (f.gapCounts i))) := by
  obtain ⟨hpath, -, hcounts⟩ := Floor.pointFold_frame (t := t) hnodup
  rw [Floor.grantsNow, hpath, hcounts]

theorem Floor.runsAtPoint_runner (hpos : (f.tracker i).position = t) : (f.runsAtPoint i t).runner i = { f.runner i with
    runs := ((f.runner i).runs.filter fun x => !f.endsAt t x.handle).map (f.afterPoint i t) } := by
  have htracker := (Floor.pointFold_frame (t := t) hnodup).2.1
  rw [Floor.runsAtPoint_eq, Floor.settlePath_runner, htracker, hpos, Floor.pointFold_runner hnodup]
  unfold Floor.afterPoint
  cases (f.pointFold i t).grantsNow i with
  | false => rfl
  | true => simp [Function.comp_def]

section Run

variable {x : Run} {c : Cue} (hc : f.cue x.handle = some c)
include hc

/-- A WAITING run waits on while the gap runs (R136). -/
theorem Floor.afterPoint_waiting (hx : x.punch = .waiting) (hstate : (f.path i).state = .protected_)
    (hgap : (f.path i).gapExpiry ≠ none) : f.afterPoint i t x = { x with phase := c.fields.phaseAt t } := by
  have hclaims : f.claims i t x = false := Bool.eq_false_iff.2 fun h => by
    have hpunch := (Floor.claims_iff.1 h).1
    rw [hx] at hpunch
    cases hpunch
  have hwaits : (f.path i).grantsClaim (f.gapCounts i) = false :=
    (Path.Waits.grantsClaim (.inl ⟨.inr hstate, hgap⟩)).2
  have hnone : (f.pointFold i t).grantsNow i = false := by simp [Floor.pointFold_grantsNow hnodup, hwaits]
  rw [Floor.afterPoint, hnone]
  exact Floor.pointed_stands hc hclaims

/-- A claim that a gap keeps waiting notes its count and value (R120, R136; log 36). -/
theorem Floor.afterPoint_waits (hclaims : f.claims i t x = true) (h : (f.path i).Waits (f.gapCounts i)) :
    (f.afterPoint i t x).punch = .waiting ∧ (f.afterPoint i t x).claim = some { count := f.now, position := t } := by
  obtain ⟨hrecord, hwaits⟩ := h.grantsClaim
  have hnone : (f.pointFold i t).grantsNow i = false := by simp [Floor.pointFold_grantsNow hnodup, hwaits]
  have hgate : f.recordGate i = false := beq_false_of_ne hrecord
  rw [Floor.afterPoint, hnone]
  simp [Floor.pointed_claims hc hclaims, Floor.claimed, hgate]

/-- A claim that is granted at once is PUNCHED at the point (R120, R136). -/
theorem Floor.afterPoint_grants (hx : x ∈ (f.runner i).runs) (hends : f.endsAt t x.handle = false)
    (hclaims : f.claims i t x = true) (h : (f.path i).Grants (f.gapCounts i)) :
    (f.afterPoint i t x).punch = .punched ∧ (f.afterPoint i t x).punchedAt = some t := by
  have hpointed := Floor.pointed_claims hc hclaims
  cases hgate : f.recordGate i with
  | true =>
    have hpunched : (f.pointed i t x).punch = .punched ∧ (f.pointed i t x).punchedAt = some t := by
      simp [hpointed, Floor.claimed, hgate]
    rw [Floor.afterPoint_of_not_waiting (by rw [hpunched.1]; nofun)]
    exact hpunched
  | false =>
    have hwaiting : (f.pointed i t x).punch = .waiting ∧
        (f.pointed i t x).claim = some { count := f.now, position := t } := by
      simp [hpointed, Floor.claimed, hgate]
    have hmem : f.pointed i t x ∈ ((f.pointFold i t).runner i).runs := by
      rw [Floor.pointFold_runner hnodup]
      exact List.mem_map.2 ⟨x, List.mem_filter.2 ⟨hx, by simpa using hends⟩, rfl⟩
    have hrequest : (f.pointFold i t).recordRequest i = true :=
      List.any_eq_true.2 ⟨_, hmem, by rw [hwaiting.1]; rfl⟩
    have hmode : ((f.pointFold i t).runner i).recordMode = .record :=
      (f.pointFold_samePoints i t).mode.trans (Floor.claims_iff.1 hclaims).2.1
    have hdemand : (f.pointFold i t).demandNow i = true := by
      rw [Floor.demandNow, hmode]
      exact List.any_eq_true.2 ⟨_, hmem, by rw [Floor.runDemands, hwaiting.1]⟩
    have hgrants : (f.path i).grantsClaim (f.gapCounts i) = true :=
      h.grantsClaim.resolve_left fun hrecord => by simp [Floor.recordGate, hrecord] at hgate
    have hall : (f.pointFold i t).grantsNow i = true := by
      simp [Floor.pointFold_grantsNow hnodup, hdemand, hrequest, hgrants]
    rw [Floor.afterPoint, hall]
    simp [Run.granted, hwaiting, Run.punchPosition]

end Run

end After

end Sys2Proof.Machine
end

section
/-! A forward move by one position value, by several, and across the day wrap (R98, R119 to R123, R172; log 6, 33). -/

namespace Sys2Proof.Machine

/-! ## One value -/

/-- A floor whose stage position was moved to p, before the runs take the point. -/
structure Floor.PlacedAt (f F : Floor) (i : Fin 4) (p : Nat) : Prop where
  tracker : F.tracker i = { f.tracker i with position := p }
  runner : F.runner i = { f.runner i with lastPosition := p }
  path : F.path i = f.path i
  cues : F.cues = f.cues
  reels : F.reels = f.reels
  now : F.now = f.now
  monitor : F.monitor = f.monitor

/-- What a point p makes of the runs of a stage, of their cues, of the monitor unit and of the path, seen from before the
position moved there. -/
structure Floor.PointTaken (f g : Floor) (i : Fin 4) (p : Nat) : Prop where
  tracker : g.tracker i = { f.tracker i with position := p }
  state : (g.runner i).state = (f.runner i).state
  lastPosition : (g.runner i).lastPosition = p
  handles : (g.runner i).runs.map Run.handle = ((f.runner i).runs.map Run.handle).filter fun h => !f.endsAt p h
  runs : ∀ r ∈ (f.runner i).runs, ∀ c, f.cue r.handle = some c →
    (f.punchOut c = p → g.cue r.handle = some { c with
      inFlight := c.inFlight - 1
      takeCount := if r.punch = .punched then min (c.takeCount + 1) 999 else c.takeCount
      lastTake := if r.punch = .punched
        then some { stage := i, punchedAt := if r.lateGrant = some f.now then p else r.punchedAt.getD p,
                    endedAt := p, outcome := .complete }
        else c.lastTake }) ∧
    (f.punchOut c ≠ p → g.cue r.handle = some c ∧
      ∃ x ∈ (g.runner i).runs, x.handle = r.handle ∧ x.phase = c.fields.phaseAt p ∧
        (r.punch = .punched → x.punch = .punched ∧ x.punchedAt = r.punchedAt) ∧
        (r.punch = .waiting → (f.path i).state = .protected_ → (f.path i).gapExpiry ≠ none →
          x = { r with phase := c.fields.phaseAt p }) ∧
        (r.punch = .unpunched → (f.runner i).recordMode = .record → c.fields.punchInPoint = p →
          ((f.path i).Grants (f.gapCounts i) → x.punch = .punched ∧ x.punchedAt = some p) ∧
          ((f.path i).Waits (f.gapCounts i) → x.punch = .waiting ∧ x.claim = some { count := f.now, position := p })) ∧
        (r.punch = .unpunched → ((f.runner i).recordMode = .rehearse ∨ c.fields.punchInPoint ≠ p) → x.punch = .unpunched))
  others : ∀ h, h ∉ (f.runner i).runs.map Run.handle → g.cue h = f.cue h
  monitor : f.monitor.Takes .takesComplete i
    ((f.runner i).runs.filter fun r => r.punch == .punched && f.endsAt p r.handle).length g.monitor
  settled : (f.stage i).PathTable → (f.stage i).ClaimsStand →
    (∀ r ∈ (f.runner i).runs, f.endsAt p r.handle = false → f.claims i p r = false) →
    g.path i = (f.path i).settled f.now (f.gapCounts i) ((g.runner i).runs.any fun r => r.punch != .unpunched)
      ((f.place i p).demands i (g.runner i).runs)
  claimed : (f.stage i).PathTable → ∀ r ∈ (f.runner i).runs, f.endsAt p r.handle = false → f.claims i p r = true →
    g.path i = if (f.path i).state = .record ∨ (f.path i).grantsClaim (f.gapCounts i) = true then
        { f.path i with state := .record, demand := true }
      else { f.path i with
        state := .protected_, demand := true
        gapExpiry := if (f.path i).state = .talk then some (f.now + f.gapCounts i) else (f.path i).gapExpiry }

section PlacedAt

variable {f F : Floor} {i : Fin 4} {p : Nat} (a : f.PlacedAt F i p)
include a

theorem Floor.PlacedAt.cue (h : Nat) : F.cue h = f.cue h := by rw [Floor.cue, Floor.cue, a.cues]

theorem Floor.PlacedAt.samePoints : f.SamePoints F i where
  reels := a.reels
  now := a.now
  cue h := by rw [a.cue]
  mode := by rw [a.runner]
  path := a.path

theorem Floor.PlacedAt.runs : (F.runner i).runs = (f.runner i).runs := by rw [a.runner]

theorem Floor.PlacedAt.gapCounts : F.gapCounts i = f.gapCounts i := by
  simp only [Floor.gapCounts, a.path, a.tracker]

theorem Floor.PlacedAt.claims (x : Run) : F.claims i p x = f.claims i p x := by
  rw [Floor.claims, Floor.claims, a.cue, a.runner]

theorem Floor.PlacedAt.table (t : (f.stage i).PathTable) : (F.stage i).PathTable := by
  have hp : (F.stage i).path = (f.stage i).path := a.path
  have hr : (F.stage i).runner = { (f.stage i).runner with lastPosition := p } := a.runner
  exact ⟨hp ▸ t.free, hp ▸ t.talk, hp ▸ t.record, hp ▸ t.gap, hp ▸ t.demand, by rw [hr]; exact t.windows⟩

theorem Floor.PlacedAt.stand (t : (f.stage i).ClaimsStand) : (F.stage i).ClaimsStand := by
  have hp : (F.stage i).path = (f.stage i).path := a.path
  have hr : (F.stage i).runner = { (f.stage i).runner with lastPosition := p } := a.runner
  unfold Stage.ClaimsStand
  rw [hp, hr]
  exact t

theorem Floor.PlacedAt.demands (l : List Run) : F.demands i l = (f.place i p).demands i l := by
  refine Floor.demands_congr (fun h => ?_) ?_ ?_ ?_ l
  · rw [a.cue]; rfl
  · rw [a.runner, Floor.place_runner]
  · rw [a.path, Floor.place_path]
  · rw [a.tracker, Floor.place_tracker]

section Taken

variable (hnodup : ((f.runner i).runs.map Run.handle).Nodup)
include hnodup

theorem Floor.PlacedAt.runsAtPoint_runs : ((F.runsAtPoint i p).runner i).runs =
    ((f.runner i).runs.filter fun x => !f.endsAt p x.handle).map (F.afterPoint i p) := by
  have hnodup' : ((F.runner i).runs.map Run.handle).Nodup := by rw [a.runs]; exact hnodup
  rw [Floor.runsAtPoint_runner (t := p) hnodup' (by rw [a.tracker]), a.runs]
  simp only [a.samePoints.endsAt]

omit a hnodup in
theorem Floor.runsAtPoint_cue (F : Floor) (i : Fin 4) (p h : Nat) : (F.runsAtPoint i p).cue h = (F.pointFold i p).cue h := by
  have hcues := ((F.pointFold i p).settlePath_pathOnly i).cues.1
  rw [Floor.runsAtPoint_eq, Floor.cue, hcues]
  rfl

variable {r : Run} (hr : r ∈ (f.runner i).runs) {c : Cue} (hc : f.cue r.handle = some c)
include hr hc

/-- The cue of a run that takes the point (R40, R41, R121). -/
theorem Floor.PlacedAt.cue_taken : (F.runsAtPoint i p).cue r.handle = some (f.cuePointed i p c r) := by
  have hnodup' : ((F.runner i).runs.map Run.handle).Nodup := by rw [a.runs]; exact hnodup
  rw [Floor.runsAtPoint_cue, F.pointFold_cue i p hnodup' (by rw [a.runs]; exact hr), a.cue, hc, Option.map_some,
    a.samePoints.cuePointed]

/-- A run that completes (R121). -/
theorem Floor.PlacedAt.cue_ended (hout : f.punchOut c = p) : (F.runsAtPoint i p).cue r.handle = some { c with
    inFlight := c.inFlight - 1
    takeCount := if r.punch = .punched then min (c.takeCount + 1) 999 else c.takeCount
    lastTake := if r.punch = .punched
      then some { stage := i, punchedAt := if r.lateGrant = some f.now then p else r.punchedAt.getD p,
                  endedAt := p, outcome := .complete }
      else c.lastTake } := by
  have hpunched : (f.punchedBy r p).getD p = if r.lateGrant = some f.now then p else r.punchedAt.getD p := by
    unfold Floor.punchedBy
    split <;> rfl
  rw [a.cue_taken hnodup hr hc, Floor.cuePointed, if_pos hout, hpunched]

/-- A run that goes on (R119, R120, R136). -/
theorem Floor.PlacedAt.run_goes (hout : f.punchOut c ≠ p) : (F.runsAtPoint i p).cue r.handle = some c ∧
    ∃ x ∈ ((F.runsAtPoint i p).runner i).runs, x.handle = r.handle ∧ x.phase = c.fields.phaseAt p ∧
      (r.punch = .punched → x.punch = .punched ∧ x.punchedAt = r.punchedAt) ∧
      (r.punch = .waiting → (f.path i).state = .protected_ → (f.path i).gapExpiry ≠ none →
        x = { r with phase := c.fields.phaseAt p }) ∧
      (r.punch = .unpunched → (f.runner i).recordMode = .record → c.fields.punchInPoint = p →
        ((f.path i).Grants (f.gapCounts i) → x.punch = .punched ∧ x.punchedAt = some p) ∧
        ((f.path i).Waits (f.gapCounts i) → x.punch = .waiting ∧ x.claim = some { count := f.now, position := p })) ∧
      (r.punch = .unpunched → ((f.runner i).recordMode = .rehearse ∨ c.fields.punchInPoint ≠ p) → x.punch = .unpunched) := by
  have hnodup' : ((F.runner i).runs.map Run.handle).Nodup := by rw [a.runs]; exact hnodup
  have hends : f.endsAt p r.handle = false := by rw [Floor.endsAt, hc]; exact beq_false_of_ne hout
  have hc' : F.cue r.handle = some c := by rw [a.cue, hc]
  have hclaims : F.claims i p r = true ↔
      r.punch = .unpunched ∧ (f.runner i).recordMode = .record ∧ c.fields.punchInPoint = p := by
    rw [a.claims, Floor.claims_iff, hc]
    simp
  have hstands : ¬(r.punch = .unpunched ∧ (f.runner i).recordMode = .record ∧ c.fields.punchInPoint = p) →
      r.punch ≠ .waiting → F.afterPoint i p r = { r with phase := c.fields.phaseAt p } := fun hno hw =>
    Floor.afterPoint_stands hc' (Bool.eq_false_iff.2 (mt hclaims.1 hno)) hw
  refine ⟨?_, F.afterPoint i p r, ?_, F.afterPoint_handle i p r, Floor.afterPoint_phase hc', fun hp => ?_,
    fun hw hstate hgap => ?_, fun hu hmode hin => ⟨fun hg => ?_, fun hw => ?_⟩, fun hu hno => ?_⟩
  · rw [a.cue_taken hnodup hr hc, Floor.cuePointed, if_neg hout]
  · rw [a.runsAtPoint_runs hnodup]
    exact List.mem_map.2 ⟨r, List.mem_filter.2 ⟨hr, by simpa using hends⟩, rfl⟩
  · rw [hstands (fun h => by rw [hp] at h; exact nomatch h.1) (by rw [hp]; nofun)]
    exact ⟨hp, rfl⟩
  · exact Floor.afterPoint_waiting hnodup' hc' hw (by rw [a.path]; exact hstate) (by rw [a.path]; exact hgap)
  · exact Floor.afterPoint_grants hnodup' hc' (by rw [a.runs]; exact hr) (by rw [a.samePoints.endsAt]; exact hends)
      (hclaims.2 ⟨hu, hmode, hin⟩) (by rw [a.path, a.gapCounts]; exact hg)
  · have hwaits := Floor.afterPoint_waits hnodup' hc' (hclaims.2 ⟨hu, hmode, hin⟩) (by rw [a.path, a.gapCounts]; exact hw)
    rw [a.now] at hwaits
    exact hwaits
  · have hstay : ¬(r.punch = .unpunched ∧ (f.runner i).recordMode = .record ∧ c.fields.punchInPoint = p) := by
      rintro ⟨-, hmode, hin⟩
      rcases hno with h | h
      · rw [hmode] at h; cases h
      · exact h hin
    rw [hstands hstay (by rw [hu]; nofun)]
    exact hu

end Taken

/-- The runs of a placed floor take the point. -/
theorem Floor.PlacedAt.pointTaken (hnodup : ((f.runner i).runs.map Run.handle).Nodup)
    (hlive : ∀ r ∈ (f.runner i).runs, (f.cue r.handle).isSome = true) : f.PointTaken (F.runsAtPoint i p) i p := by
  have hsame := a.samePoints
  have hnodup' : ((F.runner i).runs.map Run.handle).Nodup := by rw [a.runs]; exact hnodup
  have hlive' : ∀ r ∈ (F.runner i).runs, (F.cue r.handle).isSome = true := fun r hr => by
    rw [a.cue]
    exact hlive r (a.runs ▸ hr)
  have hrunner := Floor.runsAtPoint_runner (t := p) hnodup' (by rw [a.tracker])
  have hruns := a.runsAtPoint_runs hnodup
  have hmonitor : (F.runsAtPoint i p).monitor = (F.pointFold i p).monitor :=
    (F.pointFold i p |>.settlePath_pathOnly i).cues.2
  refine ⟨?_, ?_, ?_, ?_, fun r hr c hc => ?_, fun h hh => ?_, ?_, fun t st hnone => ?_, fun t r hr he hcl => ?_⟩
  · rw [Floor.runsAtPoint_eq, Floor.settlePath_tracker, (Floor.pointFold_frame hnodup').2.1, a.tracker]
  · rw [hrunner, a.runner]
  · rw [hrunner, a.runner]
  · rw [hruns, List.map_map, List.filter_map]
    exact List.map_congr_left fun x _ => F.afterPoint_handle i p x
  · exact ⟨a.cue_ended hnodup hr hc, a.run_goes hnodup hr hc⟩
  · rw [Floor.runsAtPoint_cue, Floor.pointFold_cue_other F i p (by rw [a.runs]; exact hh), a.cue]
  · have htakes := F.pointFold_monitor i p
    rw [hmonitor]
    simp only [a.monitor, a.runs, hsame.endsAt] at htakes
    exact htakes
  · have hpath := Floor.runsAtPoint_path_settled (t := p) hnodup' hlive' (a.table t) (a.stand st) fun r hr he => by
      rw [a.claims]
      exact hnone r (a.runs ▸ hr) (by rw [← hsame.endsAt]; exact he)
    rw [hpath, a.path, a.now, a.gapCounts, a.demands]
  · have hpath := Floor.runsAtPoint_path_claimed hnodup' hlive' (a.table t) (by rw [a.runs]; exact hr)
      (by rw [hsame.endsAt]; exact he) (by rw [a.claims]; exact hcl)
    rw [hpath, a.path, a.now, a.gapCounts]

end PlacedAt

end Sys2Proof.Machine
end

section
/-! The values of a forward move (R98, R119, R123, R172, R176; log 6, 33). -/

namespace Sys2Proof.Machine

section Reach

variable (f : Floor) (i : Fin 4) (t : Nat)

/-! ## What a packet point leaves -/

/-- The transmitter alone takes a packet point (R172). -/
theorem Floor.packetPoint_frame : (f.packetPoint i t).tracker i = f.tracker i ∧ (f.packetPoint i t).runner i = f.runner i ∧
    (f.packetPoint i t).path i = f.path i ∧ (f.packetPoint i t).cues = f.cues ∧ (f.packetPoint i t).reels = f.reels ∧
    (f.packetPoint i t).now = f.now ∧ (f.packetPoint i t).monitor = f.monitor := by
  unfold Floor.packetPoint
  dsimp only
  split <;> simp

theorem Floor.place_overlay (p : Nat) : (f.place i p).overlay i = f.overlay i := by simp [Floor.place]

theorem Floor.packetPoint_draws (n : Nat) :
    (({ f with draws := n } : Floor).packetPoint i t).overlay i = (f.packetPoint i t).overlay i := by
  have hoverlay : ({ f with draws := n } : Floor).overlay i = f.overlay i := rfl
  have hcompose : ({ f with draws := n } : Floor).composePacket i (t / 64) = f.composePacket i (t / 64) := rfl
  unfold Floor.packetPoint
  dsimp only
  rw [hoverlay, hcompose]
  split
  · rw [Floor.modOverlay_overlay, Floor.modOverlay_overlay]
    rfl
  · rfl

theorem Floor.PointTaken.packetPoint {f g : Floor} {i : Fin 4} {p : Nat} (a : f.PointTaken g i p) (q : Nat) :
    f.PointTaken (g.packetPoint i q) i p := by
  obtain ⟨htracker, hrunner, hpath, hcues, -, -, hmonitor⟩ := g.packetPoint_frame i q
  have hcue : ∀ h, (g.packetPoint i q).cue h = g.cue h := fun h => by rw [Floor.cue, hcues]; rfl
  obtain ⟨a1, a2, a3, a4, a5, a6, a7, a8, a9⟩ := a
  exact ⟨by rw [htracker]; exact a1, by rw [hrunner]; exact a2, by rw [hrunner]; exact a3, by rw [hrunner]; exact a4,
    by simp only [hrunner, hcue]; exact a5, by simp only [hcue]; exact a6, by rw [hmonitor]; exact a7,
    by rw [hrunner, hpath]; exact a8, by rw [hpath]; exact a9⟩

/-! ## What the runs at a point leave -/

theorem Floor.runsAtPoint_frame : (f.runsAtPoint i t).tracker i = f.tracker i ∧
    ((f.runsAtPoint i t).runner i).lastPosition = (f.runner i).lastPosition := by
  have hone : ∀ (g : Floor) (r : Run), (g.runAtPoint i t r).tracker i = g.tracker i ∧
      ((g.runAtPoint i t r).runner i).lastPosition = (g.runner i).lastPosition := fun g r => by
    have hstage := g.runAtPoint_stage i t r
    rw [Floor.tracker, Floor.runner, hstage]
    exact ⟨rfl, rfl⟩
  have hfold : ∀ (l : List Run) (g : Floor), (l.foldl (fun f r => f.runAtPoint i t r) g).tracker i = g.tracker i ∧
      ((l.foldl (fun f r => f.runAtPoint i t r) g).runner i).lastPosition = (g.runner i).lastPosition := fun l => by
    induction l with
    | nil => exact fun _ => ⟨rfl, rfl⟩
    | cons r l ih => exact fun g => ⟨(ih _).1.trans (hone g r).1, (ih _).2.trans (hone g r).2⟩
  obtain ⟨htracker, hlast⟩ := hfold (f.runner i).runs f
  have hsettle : ((f.runsAtPoint i t).runner i).lastPosition = ((f.pointFold i t).runner i).lastPosition := by
    rw [Floor.runsAtPoint_eq, Floor.settlePath_runner]
    split <;> rfl
  exact ⟨(Floor.settlePath_tracker _ i).trans htracker, hsettle.trans hlast⟩

/-! ## A value reached -/

theorem Floor.place_placedAt (p : Nat) : f.PlacedAt (f.place i p) i p :=
  ⟨f.place_tracker i p, f.place_runner i p, f.place_path i p, rfl, rfl, rfl, rfl⟩

theorem Floor.PlacedAt.draws {f F : Floor} {i : Fin 4} {p : Nat} (a : f.PlacedAt F i p) (n : Nat) :
    f.PlacedAt { F with draws := n } i p := ⟨a.tracker, a.runner, a.path, a.cues, a.reels, a.now, a.monitor⟩

theorem Floor.PlacedAt.packetPoint {f F : Floor} {i : Fin 4} {p : Nat} (a : f.PlacedAt F i p) (q : Nat) :
    f.PlacedAt (F.packetPoint i q) i p := by
  obtain ⟨htracker, hrunner, hpath, hcues, hreels, hnow, hmonitor⟩ := F.packetPoint_frame i q
  exact ⟨htracker.trans a.tracker, hrunner.trans a.runner, hpath.trans a.path, hcues.trans a.cues, hreels.trans a.reels,
    hnow.trans a.now, hmonitor.trans a.monitor⟩

/-- A value reached: the runs take the point before the packet point or, where a claim and a packet point share the value,
after it, as the free choice falls (R119, R176; log 6). -/
theorem Floor.reach_cases : ∃ F : Floor, f.PlacedAt F i t ∧ F.overlay i = f.overlay i ∧
    (F.packetPoint i t).overlay i = ((f.place i t).packetPoint i t).overlay i ∧
    (f.reach i t = (F.runsAtPoint i t).packetPoint i t ∨
      (f.place i t).claimMeetsPacket i t = true ∧ f.reach i t = (F.packetPoint i t).runsAtPoint i t) := by
  have hplaced := f.place_placedAt i t
  have hoverlay := f.place_overlay i t
  unfold Floor.reach
  dsimp only
  split
  · next hmeets =>
    refine ⟨{ f.place i t with draws := (f.place i t).draws + 1 }, hplaced.draws _, hoverlay,
      Floor.packetPoint_draws _ i t _, ?_⟩
    split
    · exact .inr ⟨hmeets, rfl⟩
    · exact .inl rfl
  · exact ⟨f.place i t, hplaced, hoverlay, rfl, .inl rfl⟩

theorem Floor.reach_placed : (f.reach i t).tracker i = { f.tracker i with position := t } ∧
    ((f.reach i t).runner i).lastPosition = t := by
  obtain ⟨F, a, -, -, h | ⟨-, h⟩⟩ := f.reach_cases i t
  · obtain ⟨htracker, hrunner, -⟩ := (F.runsAtPoint i t).packetPoint_frame i t
    obtain ⟨htracker', hlast'⟩ := F.runsAtPoint_frame i t
    rw [h, htracker, hrunner, htracker', hlast', a.tracker, a.runner]
    exact ⟨rfl, rfl⟩
  · obtain ⟨htracker', hlast'⟩ := (F.packetPoint i t).runsAtPoint_frame i t
    rw [h, htracker', hlast', (a.packetPoint t).tracker, (a.packetPoint t).runner]
    exact ⟨rfl, rfl⟩

theorem Floor.place_self {g : Floor} {p : Nat} (ht : (g.tracker i).position = p) (hl : (g.runner i).lastPosition = p) :
    g.place i p = g := by
  have htracker : g.modTracker i (fun x => { x with position := p }) = g :=
    Floor.modStage_self _ _ _ (by rw [← ht]; rfl)
  have hrunner : g.modRunner i (fun r => { r with lastPosition := p }) = g :=
    Floor.modStage_self _ _ _ (by rw [← hl]; rfl)
  rw [Floor.place, htracker, hrunner]

/-! ## Several values -/

theorem Floor.reachThrough_add (old m n : Nat) :
    f.reachThrough i old (m + n) = (f.reachThrough i old m).reachThrough i (old + m) n := by
  induction n with
  | zero => rfl
  | succ n ih => rw [← Nat.add_assoc, Floor.reachThrough, Floor.reachThrough, ih, Nat.add_assoc old m n]

theorem Floor.reachThrough_tracker {old : Nat} (h : (f.tracker i).position = old) (n : Nat) :
    (f.reachThrough i old n).tracker i = { f.tracker i with position := old + n } := by
  induction n with
  | zero => rw [Nat.add_zero, ← h]; rfl
  | succ n ih => rw [Floor.reachThrough, (Floor.reach_placed _ i _).1, ih]; rfl

theorem Rate.one_lt_framesPerDay (r : Rate) : 1 < r.framesPerDay := by cases r <;> decide

/-- A forward move that does not cross the day wrap. -/
theorem Floor.forwardMove_day {new : Nat} (h : ¬((f.tracker i).position / 64 + 1 = (f.tracker i).rate.framesPerDay ∧ new / 64 = 0)) :
    f.forwardMove i new =
      (f.reachThrough i (f.tracker i).position (new - (f.tracker i).position)).place i new := if_neg h

/-- A forward move to a higher value: the values up to it, in ascending order (R98). -/
theorem Floor.forwardMove_ahead {new : Nat} (h : (f.tracker i).position < new) :
    f.forwardMove i new = f.reachThrough i (f.tracker i).position (new - (f.tracker i).position) := by
  have hday := (f.tracker i).rate.one_lt_framesPerDay
  rw [f.forwardMove_day i (by omega)]
  obtain ⟨n, hn⟩ : ∃ n, new - (f.tracker i).position = n + 1 := ⟨new - (f.tracker i).position - 1, by omega⟩
  have hnew : (f.tracker i).position + n + 1 = new := by omega
  rw [hn, Floor.reachThrough, hnew]
  obtain ⟨htracker, hlast⟩ := Floor.reach_placed (f.reachThrough i (f.tracker i).position n) i new
  exact Floor.place_self i (by rw [htracker]) hlast

/-- A move by several values is a move to one between and a move on (R98). -/
theorem Floor.forwardMove_forwardMove {m new : Nat} (hm : (f.tracker i).position < m) (hnew : m < new) :
    f.forwardMove i new = (f.forwardMove i m).forwardMove i new := by
  have hposition : ((f.forwardMove i m).tracker i).position = m := by
    rw [f.forwardMove_ahead i hm, Floor.reachThrough_tracker f i rfl]
    exact Nat.add_sub_cancel' hm.le
  rw [f.forwardMove_ahead i (hm.trans hnew), (f.forwardMove i m).forwardMove_ahead i (by rw [hposition]; exact hnew), hposition,
    f.forwardMove_ahead i hm]
  have hsum : new - (f.tracker i).position = (m - (f.tracker i).position) + (new - m) := by omega
  rw [hsum, Floor.reachThrough_add, Nat.add_sub_cancel' hm.le]

/-! ## The next value -/

theorem Floor.forwardMove_next : f.forwardMove i ((f.tracker i).position + 1) = f.reach i ((f.tracker i).position + 1) := by
  have hone : (f.tracker i).position + 1 - (f.tracker i).position = 1 := Nat.add_sub_cancel_left ..
  rw [f.forwardMove_ahead i (Nat.lt_add_one _), hone]
  rfl

/-- The flash marks without those of the runs that complete at a point (R175). -/
def Floor.unmarked (f : Floor) (i : Fin 4) (t : Nat) (o : Overlay) : Overlay :=
  { o with flashMarks := o.flashMarks.filter fun h => !(f.runner i).runs.any fun r => r.handle == h && f.endsAt t h }

theorem Floor.PlacedAt.unmarked {f F : Floor} {i : Fin 4} {p : Nat} (a : f.PlacedAt F i p) :
    F.unmarked i p = f.unmarked i p := by
  funext o
  unfold Floor.unmarked
  simp only [a.samePoints.endsAt, a.runs]

variable {f i t} (hnodup : ((f.runner i).runs.map Run.handle).Nodup)
  (hlive : ∀ r ∈ (f.runner i).runs, (f.cue r.handle).isSome = true)
include hnodup hlive

theorem Floor.reach_pointTaken : f.PointTaken (f.reach i t) i t := by
  obtain ⟨F, a, -, -, h | ⟨-, h⟩⟩ := f.reach_cases i t
  · rw [h]
    exact (a.pointTaken hnodup hlive).packetPoint t
  · rw [h]
    exact (a.packetPoint t).pointTaken hnodup hlive

omit hlive in
/-- No mark is kept of a run that completes (R175). -/
theorem Floor.runsAtPoint_overlay : (f.runsAtPoint i t).overlay i = f.unmarked i t (f.overlay i) := by
  have hsettle := ((f.pointFold i t).settlePath_pathOnly i).frame.2.2.1
  rw [Floor.runsAtPoint_eq, hsettle, Floor.overlay, f.pointFold_stage i t hnodup]
  rfl

omit hlive in
/-- The transmitter takes the packet point after the runs took the point, or before where a claim meets it (R172, R176). -/
theorem Floor.reach_overlay :
      (∃ h : Floor, h.tracker i = (f.reach i t).tracker i ∧ h.runner i = (f.reach i t).runner i ∧
      h.path i = (f.reach i t).path i ∧ h.cues = (f.reach i t).cues ∧ h.now = f.now ∧
      h.overlay i = f.unmarked i t (f.overlay i) ∧ f.reach i t = h.packetPoint i t) ∨
    (t % 64 = (f.overlay i).phase ∧ (∃ r ∈ (f.runner i).runs, f.claims i t r = true) ∧
      (f.reach i t).overlay i = f.unmarked i t (((f.place i t).packetPoint i t).overlay i)) := by
  obtain ⟨F, a, hsame, hpacket, h | ⟨hmeets, h⟩⟩ := f.reach_cases i t
  · have hoverlay := Floor.runsAtPoint_overlay (f := F) (t := t) (by rw [a.runs]; exact hnodup)
    obtain ⟨htracker, hrunner, hpath, hcues, -, -, -⟩ := (F.runsAtPoint i t).packetPoint_frame i t
    refine .inl ⟨F.runsAtPoint i t, ?_, ?_, ?_, ?_, (F.runsAtPoint_stageEvent i t).now.trans a.now, ?_, h⟩
    · rw [h, htracker]
    · rw [h, hrunner]
    · rw [h, hpath]
    · rw [h, hcues]
    · rw [hoverlay, a.unmarked, hsame]
  · have hoverlay := Floor.runsAtPoint_overlay (f := F.packetPoint i t) (t := t)
      (by rw [(a.packetPoint t).runs]; exact hnodup)
    have hplaced := f.place_placedAt i t
    rw [Floor.claimMeetsPacket, Bool.and_eq_true, beq_iff_eq, List.any_eq_true, hplaced.runs, f.place_overlay i t] at hmeets
    obtain ⟨hphase, r, hr, hclaims⟩ := hmeets
    refine .inr ⟨hphase, ⟨r, hr, by rw [← hplaced.claims]; exact hclaims⟩, ?_⟩
    rw [h, hoverlay, (a.packetPoint t).unmarked, hpacket]

end Reach

end Sys2Proof.Machine
end

section
/-! The day wrap of a forward move, and the statement of the points (R98, R119 to R123; log 33). -/

namespace Sys2Proof.Machine

/-! ## A stage without runs -/

section NoRuns

variable {f : Floor} {i : Fin 4} (h : (f.runner i).runs = [])
include h

/-- A stage without runs rests: its path holds no demand and no gate of a recording (R137). -/
theorem Floor.settlePath_rests : ((f.settlePath i).path i).state ≠ .record ∧ ((f.settlePath i).path i).state ≠ .protected_ := by
  have hd : f.demandNow i = false := by simp [Floor.demandNow, h]
  have hr : f.recordRequest i = false := by simp [Floor.recordRequest, h]
  have hrest : ∀ p : Path, p.rest ≠ .record ∧ p.rest ≠ .protected_ := fun p => by
    unfold Path.rest
    split
    · exact ⟨nofun, nofun⟩
    · split <;> exact ⟨nofun, nofun⟩
  unfold Floor.settlePath
  cases hs : (f.path i).state with
  | record => simpa [hd, hr, Floor.releaseRecord] using hrest _
  | protected_ => simpa [hd] using hrest _
  | free => simp [hd, hs]
  | talk => simp [hd, hs]
  | gap => simp [hd, hs]

theorem Floor.settlePath_of_rest (hrecord : (f.path i).state ≠ .record) (hprotected : (f.path i).state ≠ .protected_) :
    f.settlePath i = f := by
  have hd : f.demandNow i = false := by simp [Floor.demandNow, h]
  unfold Floor.settlePath
  cases hs : (f.path i).state with
  | record => exact absurd hs hrecord
  | protected_ => exact absurd hs hprotected
  | free => simp [hd]
  | talk => simp [hd]
  | gap => simp [hd]

/-- A packet without entries sets no flash flag, and so no mark (R174, R175). -/
theorem Floor.packetPoint_marks (t : Nat) : ((f.packetPoint i t).overlay i).flashMarks = (f.overlay i).flashMarks := by
  have hflash : (f.composePacket i (t / 64)).flash = [] := by simp [Floor.composePacket, h]
  unfold Floor.packetPoint
  dsimp only
  split
  · rw [Floor.modOverlay_overlay]
    unfold Overlay.take Overlay.start
    split <;> simp [hflash]
  · rfl

end NoRuns

/-! ## Every run of a stage aborted -/

theorem Floor.abortAll_losesRuns (f : Floor) (i : Fin 4) (e : Nat) : f.LosesRuns (f.abortAll i e) i e :=
  (f.leaveWork_losesRuns i (f.runner i).state e).to_agree rfl rfl
    (by rw [Floor.leaveWork, Floor.modRunner_runner]) (by rw [Floor.leaveWork, Floor.modRunner_overlay])
    (by rw [Floor.leaveWork, Floor.modRunner_path])

theorem Floor.abortAll_runner (f : Floor) (i : Fin 4) (e : Nat) : (f.abortAll i e).runner i = { f.runner i with runs := [] } := by
  have hruns : ((f.abortAll i e).runner i).runs = [] := (f.abortAll_losesRuns i e).1
  have hframe := (f.abortRuns_frame i (fun _ => true) e).2.2.1
  rw [← hruns]
  exact hframe

theorem Floor.abortAll_tracker (f : Floor) (i : Fin 4) (e : Nat) : (f.abortAll i e).tracker i = f.tracker i :=
  (f.abortRuns_frame i (fun _ => true) e).1

/-- A path settled without runs rests. -/
theorem Floor.abortAll_rests (f : Floor) (i : Fin 4) (e : Nat) :
    ((f.abortAll i e).path i).state ≠ .record ∧ ((f.abortAll i e).path i).state ≠ .protected_ := by
  refine Floor.settlePath_rests ?_
  rw [List.filter_true, Floor.runner, Floor.foldl_abortRun_all]

theorem Floor.LosesRuns.of_place {f g : Floor} {i : Fin 4} {e p : Nat} (l : f.LosesRuns g i e) :
    (f.place i p).LosesRuns g i e := by
  refine l.of_agree rfl rfl rfl (fun j => ?_) ?_ ?_ ?_ ?_
  · by_cases hj : j = i
    · rw [hj, Floor.place_runner]
    · rw [Floor.runner, Floor.runner, (f.place_stageEvent i p).stages j hj]
  · rw [Floor.place_runner]
  · rw [Floor.place_path]
  · rw [Floor.place_overlay]
  · rw [Floor.place_tracker]

/-! ## The day wrap -/

section Wrap

variable (f : Floor) (i : Fin 4) {new : Nat}

/-- The day wrap: the values up to DE, the aborts, the value 0 and the values above it (R98, R123). -/
theorem Floor.forwardMove_wrap (h : (f.tracker i).position / 64 + 1 = (f.tracker i).rate.framesPerDay) (hnew : new < 64) :
    f.forwardMove i new = ((((f.reachThrough i (f.tracker i).position
      ((f.tracker i).rate.dayEnd - (f.tracker i).position)).abortAll i (f.tracker i).rate.dayEnd).reach i 0).place i new) :=
  if_pos ⟨h, Nat.div_eq_of_lt hnew⟩

/-- Without runs the value 0 gives the packet point alone. -/
theorem Floor.reach_of_rest {b : Floor} {i : Fin 4} (hruns : (b.runner i).runs = []) (hrecord : (b.path i).state ≠ .record)
    (hprotected : (b.path i).state ≠ .protected_) (t : Nat) : b.reach i t = (b.place i t).packetPoint i t := by
  have hplaced : ((b.place i t).runner i).runs = [] := by rw [Floor.place_runner]; exact hruns
  have hmeets : (b.place i t).claimMeetsPacket i t = false := by
    rw [Floor.claimMeetsPacket, hplaced]
    exact Bool.and_false _
  have hpoint : (b.place i t).runsAtPoint i t = b.place i t := by
    rw [Floor.runsAtPoint, hplaced]
    have hpath := b.place_path i t
    exact Floor.settlePath_of_rest (f := b.place i t) hplaced (by rw [hpath]; exact hrecord) (by rw [hpath]; exact hprotected)
  unfold Floor.reach
  dsimp only
  rw [hmeets, hpoint]
  rfl

/-- The move to DE: the values up to it. -/
theorem Floor.forwardMove_dayEnd :
    f.forwardMove i (f.tracker i).rate.dayEnd = ((f.reachThrough i (f.tracker i).position
      ((f.tracker i).rate.dayEnd - (f.tracker i).position)).place i (f.tracker i).rate.dayEnd) := by
  have hday := (f.tracker i).rate.one_lt_framesPerDay
  refine f.forwardMove_day i fun hwrap => ?_
  have hzero := hwrap.2
  unfold Rate.dayEnd at hzero
  omega

/-- What the day wrap makes of the runs left at DE: aborted there, the position goes to 0, and then on (R98, R123;
log 33). -/
theorem Floor.forwardMove_wrap_losesRuns (h : (f.tracker i).position / 64 + 1 = (f.tracker i).rate.framesPerDay)
    (hnew : new < 64) :
    let e := f.forwardMove i (f.tracker i).rate.dayEnd
    e.LosesRuns (f.forwardMove i new) i (f.tracker i).rate.dayEnd ∧
      (f.forwardMove i new).tracker i = { f.tracker i with position := new } ∧
      (f.forwardMove i new).runner i = { e.runner i with runs := [], lastPosition := new } ∧
      ∃ h : Floor, e.LosesRuns h i (f.tracker i).rate.dayEnd ∧ h.tracker i = { f.tracker i with position := 0 } ∧
        h.runner i = { e.runner i with runs := [], lastPosition := 0 } ∧
        f.forwardMove i new = (h.packetPoint i 0).place i new := by
  rw [f.forwardMove_wrap i h hnew, f.forwardMove_dayEnd i]
  have htracker := f.reachThrough_tracker i rfl ((f.tracker i).rate.dayEnd - (f.tracker i).position)
  generalize f.reachThrough i (f.tracker i).position ((f.tracker i).rate.dayEnd - (f.tracker i).position) = m at htracker ⊢
  generalize (f.tracker i).rate.dayEnd = de at htracker ⊢
  intro e
  have hruns : ((m.abortAll i de).runner i).runs = [] := by rw [Floor.abortAll_runner]
  obtain ⟨hrecord, hprotected⟩ := m.abortAll_rests i de
  rw [Floor.reach_of_rest hruns hrecord hprotected]
  have hlost : e.LosesRuns (m.abortAll i de) i de := (m.abortAll_losesRuns i de).of_place
  have hafter : e.LosesRuns ((m.abortAll i de).place i 0) i de :=
    hlost.to_agree rfl rfl (by rw [Floor.place_runner]) (by rw [Floor.place_overlay]) (by rw [Floor.place_path])
  have hzero : ((m.abortAll i de).place i 0).tracker i = { f.tracker i with position := 0 } := by
    rw [Floor.place_tracker, Floor.abortAll_tracker, htracker]
  have hrunner : ((m.abortAll i de).place i 0).runner i = { e.runner i with runs := [], lastPosition := 0 } := by
    rw [Floor.place_runner, Floor.abortAll_runner, Floor.place_runner]
  obtain ⟨b, hb⟩ : ∃ b, b = (m.abortAll i de).place i 0 := ⟨_, rfl⟩
  rw [← hb] at hafter hzero hrunner ⊢
  obtain ⟨htracker', hrunner', hpath', hcues', -, -, hmonitor'⟩ := b.packetPoint_frame i 0
  refine ⟨hafter.to_agree ?_ ?_ ?_ ?_ ?_, ?_, ?_, b, hafter, hzero, hrunner, rfl⟩
  · rw [Floor.place_cues, hcues']
  · exact hmonitor'
  · rw [Floor.place_runner, hrunner']
  · rw [Floor.place_overlay, Floor.packetPoint_marks (by rw [hrunner])]
  · rw [Floor.place_path, hpath']
  · rw [Floor.place_tracker, htracker', hzero]
  · rw [Floor.place_runner, hrunner', hrunner]

end Wrap

/-! ## The statement -/

theorem Counter.taken_eq (source : CounterSource) (i : Fin 4) (frozen : Bool) (n : Nat) (c : Counter) :
    c.taken source i frozen n =
      if c.stage = i ∧ c.source = source ∧ n ≠ 0 ∧ c.enabled = true ∧ frozen = false
      then { c with value := min (c.value + n) 4294967295 } else c := by
  unfold Counter.taken Counter.counted Counter.sees
  by_cases hs : c.stage = i <;> by_cases hc : c.source = source <;> simp [hs, hc]

/-- On a path of the table a claim is granted in these cases alone (R132, R136). -/
theorem Stage.PathTable.grants {st : Stage} (t : st.PathTable) {gap : Nat}
    (h : st.path.state = .record ∨ st.path.grantsClaim gap = true) : st.path.Grants gap := by
  obtain h | h := h
  · exact .inl h
  unfold Path.grantsClaim at h
  cases hs : st.path.state with
  | record => exact .inl hs
  | free => exact .inr (.inl ⟨.inl hs, by simpa [hs] using h⟩)
  | protected_ => exact .inr (.inl ⟨.inr hs, by simpa [hs] using h⟩)
  | talk => exact .inr (.inr ⟨hs, by simpa [hs] using h⟩)
  | gap =>
    have hgap := t.gap hs
    have hnone : st.path.gapExpiry = none := by simpa [hs] using h
    rw [hnone] at hgap
    cases hgap

/-- Settles O47: the next value is one point for all runs; several values are points one after another; the day wrap aborts
what is left at DE. -/
theorem runsTakeTheirPoints : Obligations.RunsTakeTheirPoints := by
  unfold Obligations.RunsTakeTheirPoints
  refine ⟨fun f i p => ?_, fun f c reel hreel => ?_, ?_, fun f i m new hm hnew => f.forwardMove_forwardMove i hm hnew,
    fun f i new => f.forwardMove_wrap_losesRuns i⟩
  · rw [Floor.place, Floor.modRunner, Floor.modTracker, Floor.modStage_modStage]
  · rw [Floor.punchOut, Floor.reelRate, hreel]
  · intro f i q path p g gap leaves granted reachesIn claims unmarked hnodup hlive
    have hg : g = f.reach i p := f.forwardMove_next i
    have htaken : f.PointTaken (f.reach i p) i p := Floor.reach_pointTaken hnodup hlive
    have hoverlay := Floor.reach_overlay (t := p) hnodup
    rw [← hg] at htaken hoverlay
    have hreaches : ∀ r, reachesIn r ↔ f.claims i p r = true := fun r => Floor.claims_iff.symm
    have hnone : ¬claims → ∀ r ∈ q.runs, f.endsAt p r.handle = false → f.claims i p r = false := fun hno r hr he =>
      Bool.eq_false_iff.2 fun hcl => hno ⟨r, hr, (hreaches r).2 hcl, he⟩
    refine ⟨htaken.tracker, htaken.state, htaken.lastPosition, ?_, fun r hr c hc => ?_, htaken.others, htaken.monitor.rest,
      fun k => ?_, fun t st => ⟨fun hno => htaken.settled t st (hnone hno), fun hcl hgr => ?_, fun hcl hgr => ?_⟩, ?_⟩
    · refine htaken.handles.trans (congrArg (List.filter · _) (funext fun h => ?_))
      unfold Floor.endsAt
      cases f.cue h <;> rfl
    · obtain ⟨hends, hgoes⟩ := htaken.runs r hr c hc
      refine ⟨hends, fun hout => ?_⟩
      obtain ⟨hcue, x, hx, hhandle, hphase, hpunched, hwaiting, hclaims, hunpunched⟩ := hgoes hout
      exact ⟨hcue, x, hx, hhandle, hphase, hpunched, fun hw _ => hwaiting hw, hclaims, hunpunched⟩
    · exact (htaken.monitor.counters k).trans (Counter.taken_eq ..)
    · obtain ⟨r, hr, hin, he⟩ := hcl
      have hpath := htaken.claimed t r hr he ((hreaches r).1 hin)
      rw [if_pos (Path.Grants.grantsClaim (p := f.path i) (gap := f.gapCounts i) hgr)] at hpath
      exact hpath
    · obtain ⟨r, hr, hin, he⟩ := hcl
      have hpath := htaken.claimed t r hr he ((hreaches r).1 hin)
      have hwaits : ¬((f.path i).state = .record ∨ (f.path i).grantsClaim (f.gapCounts i) = true) := fun h =>
        hgr (t.grants h)
      rw [if_neg hwaits] at hpath
      exact hpath
    · refine hoverlay.imp_right fun ⟨hphase, ⟨r, hr, hcl⟩, hmarks⟩ => ⟨hphase, ⟨r, hr, (hreaches r).2 hcl⟩, hmarks⟩

end Sys2Proof.Machine
end

section
/-! REEL_OPEN: the checks of R48 in their order, and the FREE slot that the reel takes (R46, R48). -/

namespace Sys2Proof.Machine

/-! ## The slot taken -/

theorem Floor.openReel_reel (f : Floor) (number : Nat) (rate : Rate) (k : Nat) :
    (f.openReel number rate).reel k = if k = Table.lowestFree f.reels then some (newReel number rate) else f.reel k := by
  by_cases hk : k = Table.lowestFree f.reels
  · rw [if_pos hk, hk]
    exact Table.find_put_self _ _ _
  · rw [if_neg hk]
    exact Table.find_put_other hk _ _

theorem Floor.reelHeld_iff (f : Floor) (number : Nat) (state : ReelState) :
    f.reelHeld number state = true ↔ ∃ e ∈ f.reels, e.2.number = number ∧ e.2.state = state := by
  simp only [Floor.reelHeld, List.any_eq_true, Bool.and_eq_true, beq_iff_eq]

/-! ## The checks of R48 -/

section Open

variable {s : State} {x : ReelRateFields} {r : Rate} (h : s.Receives)
include h

/-- A REEL_OPEN that passes its checks (R48). -/
theorem State.ownReelOpen_opened (hnumber : 1 ≤ x.reel ∧ x.reel ≤ 99) (hrate : Rate.ofCode x.rate = some r)
    (hnew : ∀ state, s.floor.reelHeld x.reel state = false) (hroom : s.floor.reels.length < Config.reelSlotCount) :
    s.handover.ownReelOpen x =
      s.carriedOut (s.floor.openReel x.reel r) Code.reelOpen .ok (derivedDefaults r.base).bytes := by
  simp only [State.ownReelOpen, hnumber, hrate, hnew, hroom, State.handover_floor, decide_true, Bool.and_self,
    Bool.not_false, require_true, orElse_some, except_ok_bind]
  exact s.handover_modFloor_respond h _ _ _ _

/-- A reel number or a rate code out of range. -/
theorem State.ownReelOpen_unnamed (hbad : ¬(1 ≤ x.reel ∧ x.reel ≤ 99 ∧ x.rate ≤ 5)) :
    s.handover.ownReelOpen x = s.replied Code.reelOpen .badRequest [] := by
  by_cases hnumber : 1 ≤ x.reel ∧ x.reel ≤ 99
  · have hcode : 5 < x.rate := Nat.lt_of_not_le fun hle => hbad ⟨hnumber.1, hnumber.2, hle⟩
    simp [State.ownReelOpen, hnumber, (Rate.ofCode_eq_none_iff _).2 hcode, h]
  · have hrange : (decide (1 ≤ x.reel) && decide (x.reel ≤ 99)) = false := by
      simpa only [← Bool.not_eq_true, Bool.and_eq_true, decide_eq_true_eq] using hnumber
    simp [State.ownReelOpen, hrange, h]

/-- The checks on the reel table, in their order. -/
theorem State.ownReelOpen_refused (hnumber : 1 ≤ x.reel ∧ x.reel ≤ 99) (hrate : Rate.ofCode x.rate = some r) :
    let refused := fun st => s.handover.ownReelOpen x = s.replied Code.reelOpen st []
    (s.floor.reelHeld x.reel .reelOpened = true → refused .duplicateLabel) ∧
    (s.floor.reelHeld x.reel .reelOpened = false → s.floor.reelHeld x.reel .reelClosing = true →
      refused .reelClosing) ∧
    (s.floor.reelHeld x.reel .reelOpened = false → s.floor.reelHeld x.reel .reelClosing = false →
      Config.reelSlotCount ≤ s.floor.reels.length → refused .reelTableFull) := by
  refine ⟨fun hopen => ?_, fun hopen hclosing => ?_, fun hopen hclosing hfull => ?_⟩
  · simp [State.ownReelOpen, hnumber, hrate, hopen, h]
  · simp [State.ownReelOpen, hnumber, hrate, hopen, hclosing, h]
  · simp [State.ownReelOpen, hnumber, hrate, hopen, hclosing, Nat.not_lt.2 hfull, h]

end Open

/-- Settles O32: the lowest FREE slot taken, and the checks of R48 in their order. -/
theorem reelOpenTakesFreeSlot : Obligations.ReelOpenTakesFreeSlot := by
  refine ⟨fun q x s r hs tables hq hlo hhi hrate hnew hroom => ?_, fun q x s hs hq => ?_⟩
  · have hexec : exec (.reelOpen q) s = .next (s.handover.ownReelOpen x) := exec_owned hs rfl hq
    have hunheld : ∀ state, s.floor.reelHeld x.reel state = false := fun state => Bool.eq_false_iff.2 fun hheld => by
      obtain ⟨e, he, hn, -⟩ := (s.floor.reelHeld_iff x.reel state).1 hheld
      exact hnew e he hn
    rw [State.ownReelOpen_opened hs ⟨hlo, hhi⟩ hrate hunheld hroom] at hexec
    exact ⟨_, Table.lowestFree s.floor.reels, hexec, Table.lowestFree_lt tables.reels hroom,
      (Table.lowestFree_spec tables.reels).1, (s.floor.openReel_reel _ _ _).trans (if_pos rfl),
      fun k hk => (s.floor.openReel_reel _ _ k).trans (if_neg hk), rfl⟩
  · intro refused held named
    have hexec : exec (.reelOpen q) s = .next (s.handover.ownReelOpen x) := exec_owned hs rfl hq
    have hheld : ∀ state, s.floor.reelHeld x.reel state = true ↔ held state := s.floor.reelHeld_iff x.reel
    have hunheld : ∀ state, ¬held state → s.floor.reelHeld x.reel state = false :=
      fun state hno => Bool.eq_false_iff.2 (mt (hheld state).1 hno)
    simp only [refused, hexec]
    refine ⟨fun hn => congrArg _ (State.ownReelOpen_unnamed hs hn), ?_⟩
    rw [← forall_and, ← forall_and]
    rintro ⟨hlo, hhi, hcode⟩
    obtain ⟨r, hrate⟩ := Rate.exists_ofCode hcode
    obtain ⟨hduplicate, hclosing, hfull⟩ := State.ownReelOpen_refused hs ⟨hlo, hhi⟩ hrate
    exact ⟨fun h => congrArg _ (hduplicate ((hheld _).2 h)),
      fun h k => congrArg _ (hclosing (hunheld _ h) ((hheld _).2 k)),
      fun h k hroom => congrArg _ (hfull (hunheld _ h) (hunheld _ k) hroom)⟩

end Sys2Proof.Machine
end

section
/-! CLOSURE_STEP: the last cue of the closing reel is freed, and with the last one the closure ends (R53, R60, R61, R66). -/

namespace Sys2Proof.Machine

/-! ## The last cue freed -/

section FreeCue

variable {f : Floor} {h : Nat} {c : Cue} (hc : f.cue h = some c)
include hc

theorem Floor.freeCue_eq :
    f.freeCue h = { f.lowerUse c.fields.characters with cues := Table.erase h f.cues } := by
  unfold Floor.freeCue
  rw [hc]
  rfl

theorem Floor.freeCue_cue (j : Nat) : (f.freeCue h).cue j = if j = h then none else f.cue j := by
  rw [Floor.freeCue_eq hc]
  split
  · next hj => rw [hj]; exact Table.find_erase_self h f.cues
  · next hj => exact Table.find_erase_other hj f.cues

theorem Floor.freeCue_character (id : Nat) : (f.freeCue h).character id =
    (f.character id).map fun d => { d with useCount := d.useCount - c.fields.characters.count id } := by
  rw [Floor.freeCue_eq hc]
  exact Floor.lowerUse_character _ _ _

variable (slot : Nat)

theorem Floor.freeLast_cue (j : Nat) : (f.freeLast slot h).cue j = if j = h then none else f.cue j :=
  Floor.freeCue_cue (f := f.modReel slot fun r => { r with order := r.order.dropLast }) hc j

theorem Floor.freeLast_character (id : Nat) : (f.freeLast slot h).character id =
    (f.character id).map fun d => { d with useCount := d.useCount - c.fields.characters.count id } :=
  Floor.freeCue_character (f := f.modReel slot fun r => { r with order := r.order.dropLast }) hc id

theorem Floor.freeLast_reel (k : Nat) : (f.freeLast slot h).reel k =
    if k = slot then (f.reel k).map fun r => { r with order := r.order.dropLast } else f.reel k := by
  rw [Floor.freeLast, Floor.freeCue_eq (f := f.modReel slot _) hc]
  exact Table.find_modify k slot (fun r : Reel => { r with order := r.order.dropLast }) f.reels

theorem Floor.freeLast_frame : f.freeLast slot h = { f with
    cues := (f.freeLast slot h).cues, reels := (f.freeLast slot h).reels, chars := (f.freeLast slot h).chars } := by
  rw [Floor.freeLast, Floor.freeCue_eq (f := f.modReel slot _) hc]
  rfl

end FreeCue

/-! ## The step -/

/-- A closure step frees the last cue, and where it was the only one ends the closure (R60, R61). -/
theorem exec_closureStep {s : State} {slot h : Nat} {reel : Reel} {c : Cue} {l : List Nat}
    (hclosure : s.closure = some slot) (hreel : s.floor.reel slot = some reel) (horder : reel.order = l ++ [h]) (hc : s.floor.cue h = some c) :
    exec .closureStep s = .next (if l.isEmpty then
        { s with floor := (s.floor.freeLast slot h).endClosure slot, closure := none }
      else { s with floor := s.floor.freeLast slot h }) := by
  have hlast : (s.floor.reel slot).bind (fun r => r.order.getLast?) = some h := by
    rw [hreel, Option.bind_some, horder, List.getLast?_concat]
  have hleft : (s.floor.freeLast slot h).reel slot = some { reel with order := l } := by
    rw [Floor.freeLast_reel hc, if_pos rfl, hreel, Option.map_some, horder, List.dropLast_concat]
  have hstep : exec .closureStep s = .next ((s.modFloor fun f => f.freeLast slot h).closeIfEmpty slot) := by
    simp only [exec, execClosureStep, hclosure, hlast]
  rw [hstep, State.closeIfEmpty_eq (s := s.modFloor fun f => f.freeLast slot h) hleft]
  rfl

/-- Settles O35: the last cue freed, and where the order list is then empty the end of the closure. -/
theorem closureStepFreesLastCue : Obligations.ClosureStepFreesLastCue := by
  intro s slot h reel c l hclosure hreel horder hc
  have hexec := exec_closureStep hclosure hreel horder hc
  have hcue := Floor.freeLast_cue hc slot
  have hchar := Floor.freeLast_character hc slot
  have hreels := Floor.freeLast_reel hc slot
  have hframe := Floor.freeLast_frame hc slot
  cases l with
  | nil =>
    refine ⟨_, hexec, (hcue h).trans (if_pos rfl), fun j hj => (hcue j).trans (if_neg hj), fun k hk => ?_, hchar,
      fun hne => absurd rfl hne, fun _ => ?_, rfl, rfl, rfl⟩
    · exact (Floor.endClosure_reel _ slot k).trans ((if_neg hk).trans ((hreels k).trans (if_neg hk)))
    · have hstage : ∀ i, ((s.floor.freeLast slot h).endClosure slot).stage i = (s.floor.stage i).clearSelection slot :=
        fun i => by rw [Floor.endClosure_stage, hframe]; rfl
      refine ⟨(Floor.endClosure_reel _ slot slot).trans (if_pos rfl), rfl, ?_, fun i => ?_, hstage⟩
      · have hnotices : (s.floor.freeLast slot h).notices = s.floor.notices := by rw [hframe]
        exact congrArg (·.set 25 true) hnotices
      · refine (congrArg (·.runner.selected) (hstage i)).trans ?_
        rw [Stage.clearSelection_eq]
        rfl
  | cons g l =>
    refine ⟨_, hexec, (hcue h).trans (if_pos rfl), fun j hj => (hcue j).trans (if_neg hj),
      fun k hk => (hreels k).trans (if_neg hk), hchar, fun _ => ⟨?_, ?_⟩,
      fun hnil => absurd hnil (List.cons_ne_nil g l), rfl, rfl, rfl⟩
    · exact congrArg (fun floor => ({ s with floor := floor } : State)) hframe
    · refine (hreels slot).trans ?_
      rw [if_pos rfl, hreel, Option.map_some, horder, List.dropLast_concat]

end Sys2Proof.Machine
end

section
/-! STAGE_SELECT_REEL: a selection taken, with the stop of the chase that a change makes, and its refusals (R109, R122;
log 31). -/

namespace Sys2Proof.Machine

/-! ## A selection -/

/-- A runner with a selection. -/
def Runner.selecting (mode : SelectionMode) (manual selected : Option Nat) (r : Runner) : Runner :=
  { r with mode := mode, manualReel := manual, selected := selected }

/-- The selection that a runner holds. -/
def Runner.HasSelection (mode : SelectionMode) (manual selected : Option Nat) (r : Runner) : Prop :=
  r.mode = mode ∧ r.manualReel = manual ∧ r.selected = selected

section Select

variable {f : Floor} {i : Fin 4} {mode : SelectionMode} {manual selected : Option Nat}

/-- A selection that the stage holds changes nothing (R109). -/
theorem Floor.select_same (h : (f.runner i).HasSelection mode manual selected) :
    f.select i mode manual selected = f := if_pos h

/-- A change of the selection stops the chase (R109). -/
theorem Floor.select_change (h : ¬(f.runner i).HasSelection mode manual selected) :
    f.select i mode manual selected = (f.modRunner i (.selecting mode manual selected)).stopChase i := if_neg h

/-- A runner that holds a selection keeps its stage when it takes it again. -/
theorem Floor.modRunner_selecting_self (h : (f.runner i).HasSelection mode manual selected) :
    f.modRunner i (.selecting mode manual selected) = f := by
  obtain ⟨rfl, rfl, rfl⟩ := h
  have hself : f.stages.set i f.stages[i] = f.stages := by simp
  exact congrArg (fun stages => { f with stages := stages }) hself

/-- A runner that does not work takes the selection, and nothing else changes (R109). -/
theorem Floor.select_idle (h : (f.runner i).state.working = false) :
    f.select i mode manual selected = f.modRunner i (.selecting mode manual selected) := by
  by_cases hsame : (f.runner i).HasSelection mode manual selected
  · rw [Floor.select_same hsame, Floor.modRunner_selecting_self hsame]
  · have hidle : ((f.modRunner i (.selecting mode manual selected)).runner i).state.working = false := by
      rw [Floor.modRunner_runner]
      exact h
    rw [Floor.select_change hsame]
    exact if_neg (Bool.eq_false_iff.1 hidle)

/-- A working runner whose selection changes leaves its work at the tracker position (R109, R122). -/
theorem Floor.select_working (hne : ¬(f.runner i).HasSelection mode manual selected)
    (h : (f.runner i).state.working = true) : f.select i mode manual selected =
      (f.modRunner i (.selecting mode manual selected)).leaveWork i .standby (f.tracker i).position := by
  rw [Floor.select_change hne, Floor.stopChase_working _ (by rw [Floor.modRunner_runner]; exact h),
    Floor.modRunner_tracker]

/-- The runs of a working runner whose selection changes are lost (R122). -/
theorem Floor.select_losesRuns (hne : ¬(f.runner i).HasSelection mode manual selected)
    (h : (f.runner i).state.working = true) :
    (f.select i mode manual selected).runner i =
      { (f.runner i).selecting mode manual selected with runs := [], state := .standby, blankingCount := 0 } ∧
    f.LosesRuns (f.select i mode manual selected) i (f.tracker i).position := by
  rw [Floor.select_working hne h]
  refine ⟨by rw [Floor.leaveWork_runner, Floor.modRunner_runner], ?_⟩
  refine (Floor.leaveWork_losesRuns _ i _ _).of_agree rfl rfl rfl (fun j => ?_) ?_ ?_ ?_ ?_
  · by_cases hj : j = i
    · rw [hj, Floor.modRunner_runner]; rfl
    · rw [Floor.runner, f.modRunner_stage_ne i j _ hj, Floor.runner]
  · rw [Floor.modRunner_runner]; rfl
  · rw [Floor.modRunner_path]
  · rw [Floor.modRunner_overlay]
  · rw [Floor.modRunner_tracker]

variable (f i mode manual selected)

theorem Floor.select_hasSelection :
    ((f.select i mode manual selected).runner i).HasSelection mode manual selected := by
  by_cases hsame : (f.runner i).HasSelection mode manual selected
  · rw [Floor.select_same hsame]
    exact hsame
  · cases hw : (f.runner i).state.working with
    | true => rw [(Floor.select_losesRuns hsame hw).1]; exact ⟨rfl, rfl, rfl⟩
    | false => rw [Floor.select_idle hw, Floor.modRunner_runner]; exact ⟨rfl, rfl, rfl⟩

theorem Floor.select_stageEvent : Floor.StageEvent i f (f.select i mode manual selected) := by
  by_cases hsame : (f.runner i).HasSelection mode manual selected
  · rw [Floor.select_same hsame]
    exact .refl f i
  · rw [Floor.select_change hsame]
    exact (Floor.StageEvent.modRunner f i _).trans (Floor.stopChase_stageEvent _ i)

theorem Floor.select_notices : (f.select i mode manual selected).notices = f.notices := by
  by_cases hsame : (f.runner i).HasSelection mode manual selected
  · rw [Floor.select_same hsame]
  · rw [Floor.select_change hsame, Floor.stopChase_notices, Floor.modRunner_notices]

end Select

/-! ## The request -/

/-- The selection that a STAGE_SELECT_REEL asks for: a reel, none, or auto (R109, R201). -/
def Floor.AsksSelection (f : Floor) (x : SelectReelFields) (mode : SelectionMode) (manual selected : Option Nat) : Prop :=
  (x.choice = 0 ∧ 1 ≤ x.reel ∧ x.reel ≤ 99 ∧ mode = .manual ∧ manual = some x.reel ∧
    ∃ slot reel, f.resolveReel x.reel = .ok (slot, reel) ∧ selected = some slot) ∨
  (x.choice = 1 ∧ mode = .manual ∧ manual = none ∧ selected = none) ∨
  (x.choice = 2 ∧ mode = .auto ∧ manual = none ∧ selected = none)

section Request

variable {s : State} {q : Request SelectReelFields} {x : SelectReelFields} (hs : s.Receives)
  (hq : readRequest none parseSelectReel q = .ok x)
include hs hq

theorem exec_stageSelectReel {i : Fin 4} {mode : SelectionMode} {manual selected : Option Nat} (hi : x.stage = i.val)
    (hasks : s.floor.AsksSelection x mode manual selected) : exec (.stageSelectReel q) s =
      .next (s.carriedOut (s.floor.select i mode manual selected) Code.stageSelectReel .ok []) := by
  refine (exec_owned hs rfl hq).trans (congrArg _ ?_)
  rcases hasks with ⟨hchoice, hlo, hhi, rfl, rfl, slot, reel, hreel, rfl⟩ | ⟨hchoice, rfl, rfl, rfl⟩ |
    ⟨hchoice, rfl, rfl, rfl⟩
  · simp [State.ownStageSelectReel, hi, stageOfNat_val, hchoice, hlo, hhi, hreel, hs]
  · simp [State.ownStageSelectReel, hi, stageOfNat_val, hchoice, hs]
  · simp [State.ownStageSelectReel, hi, stageOfNat_val, hchoice, hs]

/-- A stage, a choice or a reel number out of range. -/
theorem exec_stageSelectReel_bad
    (hbad : ¬(x.stage ≤ 3 ∧ (x.choice = 0 ∧ 1 ≤ x.reel ∧ x.reel ≤ 99 ∨ x.choice = 1 ∨ x.choice = 2))) :
    exec (.stageSelectReel q) s = .next (s.replied Code.stageSelectReel .badRequest []) := by
  refine (exec_owned hs rfl hq).trans (congrArg _ ?_)
  by_cases hstage : x.stage ≤ 3
  · have hi : stageOfNat x.stage = some ⟨x.stage, by omega⟩ := dif_pos (by omega)
    have hchoice := fun h => hbad ⟨hstage, h⟩
    match hx : x.choice with
    | 0 =>
      have hrange : (decide (1 ≤ x.reel) && decide (x.reel ≤ 99)) = false := by
        rw [← Bool.not_eq_true, Bool.and_eq_true, decide_eq_true_eq, decide_eq_true_eq]
        exact fun h => hchoice (.inl ⟨hx, h⟩)
      simp [State.ownStageSelectReel, hi, hx, hrange, hs]
    | 1 => exact absurd (.inr (.inl hx)) hchoice
    | 2 => exact absurd (.inr (.inr hx)) hchoice
    | n + 3 => simp [State.ownStageSelectReel, hi, hx, hs]
  · simp [State.ownStageSelectReel, stageOfNat_none (Nat.lt_of_not_le hstage), hs]

/-- A reel number that does not resolve (R47). -/
theorem exec_stageSelectReel_unresolved {st : Status} (hstage : x.stage ≤ 3) (hchoice : x.choice = 0)
    (hlo : 1 ≤ x.reel) (hhi : x.reel ≤ 99) (hreel : s.floor.resolveReel x.reel = .error st) :
    exec (.stageSelectReel q) s = .next (s.replied Code.stageSelectReel st []) := by
  refine (exec_owned hs rfl hq).trans (congrArg _ ?_)
  have hi : stageOfNat x.stage = some ⟨x.stage, by omega⟩ := dif_pos (by omega)
  simp [State.ownStageSelectReel, hi, hchoice, hlo, hhi, hreel, hs]

end Request

/-- Settles O45: the selection taken, with the stop of a working runner where it changes, and the refusals. -/
theorem stageSelectReelTakesSelection : Obligations.StageSelectReelTakesSelection := by
  refine ⟨fun q x s i mode manual selected hs hq hi hasks => ?_, fun q x s hs hq => ?_⟩
  · intro r same
    obtain ⟨hmode, hmanual, hselected⟩ := s.floor.select_hasSelection i mode manual selected
    have hevent := s.floor.select_stageEvent i mode manual selected
    refine ⟨_, exec_stageSelectReel hs hq hi hasks, fun hsame => ?_, hmode, hmanual, hselected, fun hne hw => ?_,
      fun hidle => ?_, hevent.stages, rfl, hevent.reels, hevent.chars, hevent.casts,
      s.floor.select_notices i mode manual selected, rfl, rfl, rfl, rfl, rfl⟩
    · rw [Floor.select_same hsame]
      rfl
    · obtain ⟨hrunner, hloses⟩ := Floor.select_losesRuns hne hw
      rw [State.carriedOut, State.replied_floor, hrunner]
      exact ⟨rfl, rfl, rfl, hloses⟩
    · rw [Floor.select_idle hidle]
      rfl
  · intro refused named
    have hunresolved : ∀ {st}, named → x.choice = 0 → s.floor.resolveReel x.reel = .error st → refused st :=
      fun ⟨hstage, hnamed⟩ hchoice hreel => by
        obtain ⟨-, hlo, hhi⟩ : x.choice = 0 ∧ 1 ≤ x.reel ∧ x.reel ≤ 99 := by omega
        exact exec_stageSelectReel_unresolved hs hq hstage hchoice hlo hhi hreel
    exact ⟨exec_stageSelectReel_bad hs hq,
      fun hn hchoice hunknown => hunresolved hn hchoice (Floor.resolveReel_unknown hunknown),
      fun slot reel hn hchoice hfind hstate => hunresolved hn hchoice (Floor.resolveReel_closing hfind hstate)⟩

end Sys2Proof.Machine
end

section
/-! The cast map: where a character stands, and what a podium set and a character released make of it (R63, R69 to
R72). -/

namespace Sys2Proof.Machine

/-! ## The place of a character -/

theorem Podiums.place_eq_none_iff (p : Podiums) (id : Nat) : p.place id = .none ↔ ∀ k : Fin 6, p[k] ≠ some id := by
  simp [Podiums.place, List.find?_eq_none]

theorem Podiums.place_held {p : Podiums} {id : Nat} {k : Fin 6} (h : p.place id = some k) : p[k] = some id := by
  simpa using List.find?_some h

theorem Floor.castPlace_eq_none_iff (f : Floor) (id : Nat) :
    f.castPlace id = none ↔ ∀ (i : Fin 4) (k : Fin 6), f.casts[i][k] ≠ some id := by
  simp only [Floor.castPlace, List.findSome?_eq_none_iff, List.mem_finRange, forall_const, Option.map_eq_none_iff,
    Podiums.place_eq_none_iff]

theorem Floor.castPlace_held {f : Floor} {id : Nat} {i : Fin 4} {k : Fin 6} (h : f.castPlace id = some (i, k)) :
    f.casts[i][k] = some id := by
  obtain ⟨j, -, hj⟩ := List.exists_of_findSome?_eq_some h
  obtain ⟨l, hl, heq⟩ := Option.map_eq_some_iff.1 hj
  obtain ⟨rfl, rfl⟩ := Prod.mk.inj heq
  exact Podiums.place_held hl

/-- A character stands nowhere but at its one podium (R69). -/
theorem Floor.CastMap.castPlace_eq_some_iff {f : Floor} (m : f.CastMap) {id : Nat} {i : Fin 4} {k : Fin 6} :
    f.castPlace id = some (i, k) ↔ f.casts[i][k] = some id := by
  refine ⟨Floor.castPlace_held, fun h => ?_⟩
  cases hp : f.castPlace id with
  | none => exact absurd h ((f.castPlace_eq_none_iff id).1 hp i k)
  | some e =>
    obtain ⟨rfl, rfl⟩ := m.once _ _ _ _ id (Floor.castPlace_held hp) h
    rfl

/-- A character stands on no stage but one: it stands there, or nowhere (R70). -/
theorem Floor.CastMap.castPlace_all_iff {f : Floor} (m : f.CastMap) (id : Nat) (i : Fin 4) :
    ((f.castPlace id).all fun e => e.1 == i) = true ↔ ∀ (j : Fin 4) (l : Fin 6), f.casts[j][l] = some id → j = i := by
  simp only [Option.all_eq_true, beq_iff_eq, Prod.forall, m.castPlace_eq_some_iff]

/-! ## A podium set, a character released -/

variable (f : Floor)

theorem Floor.setPodium_podium (i j : Fin 4) (k l : Fin 6) (x : Option Nat) :
    (f.setPodium i k x).casts[j][l] = if j = i ∧ l = k then x else f.casts[j][l] := by
  by_cases hi : j = i
  · subst hi
    by_cases hk : l = k
    · simp [Floor.setPodium, hk]
    · have hne : k.val ≠ l.val := fun h => hk (Fin.ext h.symm)
      simp [Floor.setPodium, hk, hne]
  · have hne : i.val ≠ j.val := fun h => hi (Fin.ext h.symm)
    simp [Floor.setPodium, hi, hne]

/-- A release changes the cast map and nothing else. -/
theorem Floor.uncast_eq (id : Nat) : f.uncast id = { f with casts := (f.uncast id).casts } := by
  unfold Floor.uncast
  split <;> rfl

variable {f}

/-- A release empties the one podium that holds the character (R72). -/
theorem Floor.CastMap.uncast_podium (m : f.CastMap) (id : Nat) (j : Fin 4) (l : Fin 6) :
    (f.uncast id).casts[j][l] = if f.casts[j][l] = some id then none else f.casts[j][l] := by
  cases hp : f.castPlace id with
  | none =>
    rw [if_neg ((f.castPlace_eq_none_iff id).1 hp j l)]
    simp only [Floor.uncast, hp]
  | some e =>
    have hplace : f.casts[j][l] = some id ↔ j = e.1 ∧ l = e.2 := by
      rw [← m.castPlace_eq_some_iff, hp, Option.some.injEq, Prod.ext_iff, eq_comm, @eq_comm _ e.2]
    simp only [Floor.uncast, hp, Floor.setPodium_podium, hplace]

/-- A character moved: its new podium holds it, and its old one is empty, as one change (R71). -/
theorem Floor.CastMap.assign_podium (m : f.CastMap) (id : Nat) (i j : Fin 4) (k l : Fin 6) :
    ((f.uncast id).setPodium i k (some id)).casts[j][l] =
      if j = i ∧ l = k then some id else if f.casts[j][l] = some id then none else f.casts[j][l] := by
  rw [Floor.setPodium_podium, m.uncast_podium]

/-! ## The map kept (R69) -/

/-- A map of the same podiums, or fewer, of which every character goes on to be DEFINED. -/
theorem Floor.CastMap.mono {g : Floor} (m : f.CastMap)
    (hcasts : ∀ (i : Fin 4) (k : Fin 6) (id : Nat), g.casts[i][k] = some id → f.casts[i][k] = some id)
    (hdefined : ∀ (i : Fin 4) (k : Fin 6) (id : Nat), g.casts[i][k] = some id → (f.character id).isSome = true →
      (g.character id).isSome = true) : g.CastMap where
  once i j k l id hi hj := m.once i j k l id (hcasts i k id hi) (hcasts j l id hj)
  defined i k id hi := hdefined i k id hi (m.defined i k id (hcasts i k id hi))

theorem Floor.uncast_character (f : Floor) (id j : Nat) : (f.uncast id).character j = f.character j := by
  rw [f.uncast_eq]; rfl

theorem Floor.CastMap.uncast (m : f.CastMap) (id : Nat) : (f.uncast id).CastMap := by
  refine m.mono (fun i k x h => ?_) fun i k x _ hx => by rwa [Floor.uncast_character]
  rw [m.uncast_podium] at h
  split at h
  · cases h
  · exact h

/-- A DEFINED character that stands nowhere takes a podium. -/
theorem Floor.CastMap.setPodium (m : f.CastMap) {id : Nat} (i : Fin 4) (k : Fin 6)
    (hdefined : (f.character id).isSome = true) (hnowhere : ∀ (j : Fin 4) (l : Fin 6), f.casts[j][l] ≠ some id) :
    (f.setPodium i k (some id)).CastMap := by
  have hcases : ∀ (j : Fin 4) (l : Fin 6) (x : Nat), (f.setPodium i k (some id)).casts[j][l] = some x →
      (x = id ∧ j = i ∧ l = k) ∨ (x ≠ id ∧ f.casts[j][l] = some x) := fun j l x h => by
    rw [Floor.setPodium_podium] at h
    split at h
    · next hplace => exact .inl ⟨(Option.some.inj h).symm, hplace⟩
    · exact .inr ⟨fun hx => hnowhere j l (hx ▸ h), h⟩
  refine ⟨fun a b c d x ha hb => ?_, fun a c x ha => ?_⟩
  · rcases hcases a c x ha with ⟨hx, rfl, rfl⟩ | ⟨hx, ha⟩ <;> rcases hcases b d x hb with ⟨hy, rfl, rfl⟩ | ⟨hy, hb⟩
    · exact ⟨rfl, rfl⟩
    · exact absurd hx hy
    · exact absurd hy hx
    · exact m.once a b c d x ha hb
  · rcases hcases a c x ha with ⟨rfl, -⟩ | ⟨-, ha⟩
    · exact hdefined
    · exact m.defined a c x ha

/-- An assignment first releases the character, so that it stands nowhere when it takes the podium (R71). -/
theorem Floor.CastMap.assign (m : f.CastMap) {id : Nat} (i : Fin 4) (k : Fin 6)
    (hdefined : (f.character id).isSome = true) : ((f.uncast id).setPodium i k (some id)).CastMap := by
  refine (m.uncast id).setPodium i k (by rwa [Floor.uncast_character]) fun j l h => ?_
  rw [m.uncast_podium] at h
  split at h
  · cases h
  · next hne => exact hne h

/-- A character that stands nowhere may be retired (R67). -/
theorem Floor.CastMap.eraseChar (m : f.CastMap) {id : Nat} (h : f.castPlace id = none) :
    ({ f with chars := Table.erase id f.chars } : Floor).CastMap := by
  refine m.mono (fun _ _ _ h => h) fun i k x hx hdefined => ?_
  have hne : x ≠ id := fun hxid => (f.castPlace_eq_none_iff id).1 h i k (hxid ▸ hx)
  simpa only [Floor.character, Table.find_erase_other hne] using hdefined

end Sys2Proof.Machine
end

section
/-! CHAR_DEFINE, CHAR_RETIRE, CAST_ASSIGN and CAST_RELEASE: what each does where its checks pass, and its refusals in
their order (R64 to R67, R70 to R72; log 12, 13, 17). -/

namespace Sys2Proof.Machine

/-! ## Names and characters of a request -/

/-- A name character, its ranges opened (R64). -/
theorem nameCharacter_iff (b : Byte) : nameCharacter b = true ↔
    (0x41 ≤ b.toNat ∧ b.toNat ≤ 0x5A) ∨ (0x30 ≤ b.toNat ∧ b.toNat ≤ 0x39) ∨ b = 0x20 ∨ b = 0x2D := by
  simp [nameCharacter, or_assoc]

/-- A name, its length and its characters opened (R64). -/
theorem nameOk_iff (name : List Byte) : nameOk name = true ↔ (1 ≤ name.length ∧ name.length ≤ 8) ∧
    ∀ b ∈ name, (0x41 ≤ b.toNat ∧ b.toNat ≤ 0x5A) ∨ (0x30 ≤ b.toNat ∧ b.toNat ≤ 0x39) ∨ b = 0x20 ∨ b = 0x2D := by
  simp only [nameOk, Bool.and_eq_true, decide_eq_true_eq, List.all_eq_true, nameCharacter_iff]

/-- An id resolves to the DEFINED character of its slot (R67, R70, R72). -/
theorem Floor.resolveCharacter_eq_ok_iff (f : Floor) (id : Nat) (c : Character) :
    f.resolveCharacter id = .ok c ↔ id < 64 ∧ f.character id = some c := by
  unfold Floor.resolveCharacter
  split
  · next h =>
    have hid : id < 64 := h
    cases f.character id <;> simp [hid]
  · next h =>
    have hid : ¬id < 64 := h
    simp [hid]

theorem Floor.resolveCharacter_unknown {f : Floor} {id : Nat} (h : ¬(id < 64 ∧ (f.character id).isSome = true)) :
    f.resolveCharacter id = .error .unknownCharacter := by
  unfold Floor.resolveCharacter
  split
  · next hid =>
    have hnone : f.character id = none := by simpa using fun hc => h ⟨hid, hc⟩
    rw [hnone, orElse_none]
  · rfl

/-! ## CHAR_DEFINE (R65) -/

section Define

variable {s : State} {q : Request CharDefineFields} {x : CharDefineFields} (hs : s.Receives)
  (hq : readRequest none parseCharDefine q = .ok x)
include hs hq

theorem exec_charDefine_refused (h : ¬(x.character < 64 ∧ nameOk x.name = true)) :
    exec (.charDefine q) s = .next (s.replied Code.charDefine .badRequest []) := by
  have hbad : (decide (x.character < Config.characterCount) && nameOk x.name) = false := by
    rw [← Bool.not_eq_true, Bool.and_eq_true, decide_eq_true_eq]
    exact h
  exact (exec_owned hs rfl hq).trans (by simp [State.ownCharDefine, hbad, hs])

theorem exec_charDefine_created (hid : x.character < 64) (hname : nameOk x.name = true)
    (hfree : s.floor.character x.character = none) : exec (.charDefine q) s = .next (s.carriedOut
      { s.floor with chars := Table.put x.character { name := x.name, useCount := 0 } s.floor.chars }
      Code.charDefine .ok [0]) :=
  (exec_owned hs rfl hq).trans (by simp [State.ownCharDefine, Config.characterCount, hid, hname, hfree, hs])

theorem exec_charDefine_renamed (hid : x.character < 64) (hname : nameOk x.name = true) {c : Character}
    (hc : s.floor.character x.character = some c) : exec (.charDefine q) s = .next (s.carriedOut
      { s.floor with chars := Table.modify x.character (fun c => { c with name := x.name }) s.floor.chars }
      Code.charDefine .ok [1]) :=
  (exec_owned hs rfl hq).trans (by simp [State.ownCharDefine, Config.characterCount, hid, hname, hc, hs])

end Define

/-! ## CHAR_RETIRE (R67) -/

section Retire

variable {s : State} {q : Request Nat} {id : Nat} (hs : s.Receives) (hq : readRequest none parse1 q = .ok id)
include hs hq

theorem exec_charRetire_unknown (h : ¬(id < 64 ∧ (s.floor.character id).isSome = true)) :
    exec (.charRetire q) s = .next (s.replied Code.charRetire .unknownCharacter []) :=
  (exec_owned hs rfl hq).trans (by simp [State.ownCharRetire, Floor.resolveCharacter_unknown h, hs])

theorem exec_charRetire_inUse {c : Character} (hid : id < 64) (hc : s.floor.character id = some c)
    (h : ¬(c.useCount = 0 ∧ s.floor.castPlace id = none)) :
    exec (.charRetire q) s = .next (s.replied Code.charRetire .characterInUse []) := by
  have hfound := (s.floor.resolveCharacter_eq_ok_iff id c).2 ⟨hid, hc⟩
  have hused : (c.useCount == 0 && (s.floor.castPlace id).isNone) = false := by
    rw [← Bool.not_eq_true, Bool.and_eq_true, beq_iff_eq, Option.isNone_iff_eq_none]
    exact h
  exact (exec_owned hs rfl hq).trans (by simp [State.ownCharRetire, hfound, hused, hs])

theorem exec_charRetire_freed {c : Character} (hid : id < 64) (hc : s.floor.character id = some c)
    (huse : c.useCount = 0) (hplace : s.floor.castPlace id = none) : exec (.charRetire q) s = .next (s.carriedOut
      { s.floor with chars := Table.erase id s.floor.chars } Code.charRetire .ok []) := by
  have hfound := (s.floor.resolveCharacter_eq_ok_iff id c).2 ⟨hid, hc⟩
  exact (exec_owned hs rfl hq).trans (by simp [State.ownCharRetire, hfound, huse, hplace, hs])

end Retire

/-- Settles O36: the character table after each request, and the refusals. -/
theorem charactersAreDefinedAndRetired : Obligations.CharactersAreDefinedAndRetired := by
  refine fun s hs => ⟨fun q x hq hid hlo hhi hname => ?_,
    fun q id c hq hid hc => ⟨fun huse hnowhere => ?_, fun hused => ?_⟩, fun q x hq hbad => ?_,
    fun q id hq hunknown => ?_⟩
  · have hok := (nameOk_iff x.name).2 ⟨⟨hlo, hhi⟩, hname⟩
    cases hc : s.floor.character x.character with
    | none =>
      exact ⟨_, exec_charDefine_created hs hq hid hok hc, Table.find_put_self _ _ _,
        fun j hj => Table.find_put_other hj _ _, rfl⟩
    | some c =>
      refine ⟨_, exec_charDefine_renamed hs hq hid hok hc, ?_, fun j hj => ?_, rfl⟩
      · have hfind : Table.find x.character s.floor.chars = some c := hc
        simp [State.carriedOut, Floor.character, Table.find_modify, hfind]
      · simp [State.carriedOut, Floor.character, Table.find_modify, hj]
  · exact ⟨_, exec_charRetire_freed hs hq hid hc huse ((s.floor.castPlace_eq_none_iff id).2 hnowhere),
      Table.find_erase_self _ _, fun j hj => Table.find_erase_other hj _, rfl⟩
  · refine exec_charRetire_inUse hs hq hid hc fun ⟨huse, hplace⟩ => ?_
    rcases hused with hne | ⟨i, k, hcast⟩
    · exact hne huse
    · exact (s.floor.castPlace_eq_none_iff id).1 hplace i k hcast
  · refine exec_charDefine_refused hs hq fun ⟨hid, hok⟩ => ?_
    obtain ⟨⟨hlo, hhi⟩, hname⟩ := (nameOk_iff x.name).1 hok
    rcases hbad with h | h | h | ⟨b, hb, hnot⟩
    · omega
    · omega
    · omega
    · exact hnot (hname b hb)
  · refine exec_charRetire_unknown hs hq fun ⟨hid, hc⟩ => ?_
    rcases hunknown with h | h
    · omega
    · simp [h] at hc

/-! ## CAST_ASSIGN (R70, R71) -/

theorem placeBytes_eq (p : Option (Fin 4 × Fin 6)) : placeBytes p = match p with
    | some (j, l) => [byte j.val, byte l.val]
    | none => [0xFF, 0xFF] := by
  cases p <;> rfl

section Assign

variable {s : State} {q : Request CastAssignFields} {x : CastAssignFields} (hs : s.Receives)
  (hq : readRequest none parseCastAssign q = .ok x)
include hs hq

/-- A stage, a podium or a move flag out of range. -/
theorem exec_castAssign_bad (h : ¬(x.stage ≤ 3 ∧ x.podium ≤ 5 ∧ x.move ≤ 1)) :
    exec (.castAssign q) s = .next (s.replied Code.castAssign .badRequest []) := by
  refine (exec_owned hs rfl hq).trans (congrArg _ ?_)
  by_cases hstage : x.stage ≤ 3
  · have hi : stageOfNat x.stage = some ⟨x.stage, by omega⟩ := dif_pos (by omega)
    by_cases hpodium : x.podium ≤ 5
    · have hk : podiumOfNat x.podium = some ⟨x.podium, by omega⟩ := dif_pos (by omega)
      have hmove : flagOfCode x.move = none := by
        rw [flagOfCode_eq, List.getElem?_eq_none_iff]
        exact Nat.lt_of_not_le fun hm => h ⟨hstage, hpodium, hm⟩
      simp [State.ownCastAssign, hi, hk, hmove, hs]
    · simp [State.ownCastAssign, hi, podiumOfNat_none (Nat.lt_of_not_le hpodium), hs]
  · simp [State.ownCastAssign, stageOfNat_none (Nat.lt_of_not_le hstage), hs]

variable {i : Fin 4} {k : Fin 6} {move : Bool} (hi : x.stage = i.val) (hk : x.podium = k.val)
  (hmove : flagOfCode x.move = some move)
include hi hk hmove

theorem exec_castAssign_unknown (h : ¬(x.character < 64 ∧ (s.floor.character x.character).isSome = true)) :
    exec (.castAssign q) s = .next (s.replied Code.castAssign .unknownCharacter []) :=
  (exec_owned hs rfl hq).trans (by simp [State.ownCastAssign, hi, hk, hmove, stageOfNat_val, podiumOfNat_val,
    Floor.resolveCharacter_unknown h, hs])

variable {c : Character} (hc : s.floor.resolveCharacter x.character = .ok c)
include hc

theorem exec_castAssign_conflict (hplace : (move || (s.floor.castPlace x.character).all fun e => e.1 == i) = false) :
    exec (.castAssign q) s = .next (s.replied Code.castAssign .castConflict []) :=
  (exec_owned hs rfl hq).trans (by simp [State.ownCastAssign, hi, hk, hmove, stageOfNat_val, podiumOfNat_val, hc,
    hplace, hs])

variable (hplace : (move || (s.floor.castPlace x.character).all fun e => e.1 == i) = true)
include hplace

theorem exec_castAssign_taken (htaken : (s.floor.casts[i][k].all fun id => id == x.character) = false) :
    exec (.castAssign q) s = .next (s.replied Code.castAssign .podiumTaken []) :=
  (exec_owned hs rfl hq).trans (by simp [State.ownCastAssign, hi, hk, hmove, stageOfNat_val, podiumOfNat_val, hc,
    hplace, htaken, hs, -Fin.getElem_fin])

theorem exec_castAssign_assigned (htaken : (s.floor.casts[i][k].all fun id => id == x.character) = true) :
    exec (.castAssign q) s = .next (s.carriedOut ((s.floor.uncast x.character).setPodium i k (some x.character))
      Code.castAssign .ok (placeBytes (s.floor.castPlace x.character))) :=
  (exec_owned hs rfl hq).trans (by simp [State.ownCastAssign, hi, hk, hmove, stageOfNat_val, podiumOfNat_val, hc,
    hplace, htaken, hs, -Fin.getElem_fin])

end Assign

/-! ## CAST_RELEASE (R72) -/

section Release

variable {s : State} {q : Request Nat} {id : Nat} (hs : s.Receives) (hq : readRequest none parse1 q = .ok id)
include hs hq

theorem exec_castRelease_released {c : Character} (hc : s.floor.resolveCharacter id = .ok c) :
    exec (.castRelease q) s = .next (s.carriedOut (s.floor.uncast id) Code.castRelease .ok
      (placeBytes (s.floor.castPlace id))) :=
  (exec_owned hs rfl hq).trans (by simp [State.ownCastRelease, hc, hs])

theorem exec_castRelease_unknown (h : ¬(id < 64 ∧ (s.floor.character id).isSome = true)) :
    exec (.castRelease q) s = .next (s.replied Code.castRelease .unknownCharacter []) :=
  (exec_owned hs rfl hq).trans (by simp [State.ownCastRelease, Floor.resolveCharacter_unknown h, hs])

end Release

/-- Settles O37: the checks of R70 in their order, and the one podium that holds the character before and after. -/
theorem castsAreAssignedAndReleased : Obligations.CastsAreAssignedAndReleased := by
  intro s hs m place known elsewhere
  have hbytes : ∀ id, placeBytes (s.floor.castPlace id) = place id := fun id => placeBytes_eq _
  have hfound : ∀ id, known id → ∃ c, s.floor.resolveCharacter id = .ok c := fun id ⟨hid, hsome⟩ => by
    obtain ⟨c, hc⟩ := Option.isSome_iff_exists.1 hsome
    exact ⟨c, (s.floor.resolveCharacter_eq_ok_iff id c).2 ⟨hid, hc⟩⟩
  have hflag : ∀ n, n ≤ 1 → flagOfCode n = some (decide (n = 1)) := fun n hn => by
    obtain rfl | rfl : n = 0 ∨ n = 1 := by omega
    all_goals rfl
  refine ⟨fun q x i k hq hi hk hmove hid hsome hplace hfree => ?_, fun q id hq hid hsome => ?_,
    fun id i k => m.castPlace_eq_some_iff.2, fun id => (s.floor.castPlace_eq_none_iff id).2, fun q x hq => ?_,
    fun q id hq => exec_castRelease_unknown hs hq⟩
  · obtain ⟨c, hc⟩ := hfound _ ⟨hid, hsome⟩
    have hgo : (decide (x.move = 1) || (s.floor.castPlace x.character).all fun e => e.1 == i) = true := by
      rw [Bool.or_eq_true, decide_eq_true_eq, m.castPlace_all_iff]
      by_cases h1 : x.move = 1
      · exact .inl h1
      · exact .inr (hplace (by omega))
    have hpodium : (s.floor.casts[i][k].all fun id => id == x.character) = true := by
      rcases hfree with h | h <;> rw [h]
      · rfl
      · exact beq_self_eq_true _
    refine ⟨_, exec_castAssign_assigned hs hq hi hk (hflag _ hmove) hc hgo hpodium,
      fun j l => m.assign_podium x.character i j k l, ?_⟩
    rw [← hbytes, s.floor.uncast_eq]
    rfl
  · obtain ⟨c, hc⟩ := hfound _ ⟨hid, hsome⟩
    refine ⟨_, exec_castRelease_released hs hq hc, m.uncast_podium id, ?_⟩
    rw [← hbytes, s.floor.uncast_eq]
    rfl
  · intro refused named
    refine ⟨exec_castAssign_bad hs hq, fun ⟨hstage, hpodium, hmove⟩ hunknown => ?_,
      fun ⟨hstage, hpodium, hmove⟩ hknown hstays ⟨j, l, hcast, hne⟩ => ?_,
      fun i k other ⟨_, _, hmove⟩ hi hk hknown hmay hheld hother => ?_⟩
    · exact exec_castAssign_unknown (i := ⟨x.stage, by omega⟩) (k := ⟨x.podium, by omega⟩) hs hq rfl rfl (hflag _ hmove)
        hunknown
    · obtain ⟨c, hc⟩ := hfound _ hknown
      refine exec_castAssign_conflict (i := ⟨x.stage, by omega⟩) (k := ⟨x.podium, by omega⟩) hs hq rfl rfl
        (hflag _ hmove) hc ?_
      rw [← Bool.not_eq_true, Bool.or_eq_true, decide_eq_true_eq, m.castPlace_all_iff]
      rintro (hgo | hgo)
      · omega
      · exact hne (congrArg Fin.val (hgo j l hcast))
    · obtain ⟨c, hc⟩ := hfound _ hknown
      refine exec_castAssign_taken hs hq hi hk (hflag _ hmove) hc ?_ ?_
      · rw [Bool.or_eq_true, decide_eq_true_eq, m.castPlace_all_iff]
        refine hmay.imp_right fun hnot j l hcast => Fin.ext ?_
        rw [← hi]
        exact not_not.1 fun hne => hnot ⟨j, l, hcast, hne⟩
      · rw [hheld]
        exact beq_false_of_ne hother

end Sys2Proof.Machine
end

section
/-! What a step can do to the cast map and to which characters are DEFINED: the operations that leave both (R69). -/

namespace Sys2Proof.Machine

/-- From f to g the cast map stands, and every DEFINED character stays DEFINED. -/
structure Floor.KeepsCasts (f g : Floor) : Prop where
  casts : g.casts = f.casts
  defined : ∀ id, (f.character id).isSome = true → (g.character id).isSome = true

theorem Floor.KeepsCasts.castMap {f g : Floor} (h : f.KeepsCasts g) (m : f.CastMap) : g.CastMap :=
  m.mono (fun i k id hi => by rwa [h.casts] at hi) fun _ _ id _ => h.defined id

theorem Floor.KeepsCasts.of_eq {f g : Floor} (hcasts : g.casts = f.casts) (hchars : g.chars = f.chars) :
    f.KeepsCasts g := ⟨hcasts, fun id hid => by rwa [Floor.character, hchars]⟩

theorem Floor.KeepsCasts.refl (f : Floor) : f.KeepsCasts f := .of_eq rfl rfl

theorem Floor.KeepsCasts.trans {f g h : Floor} (a : f.KeepsCasts g) (b : g.KeepsCasts h) : f.KeepsCasts h :=
  ⟨b.casts.trans a.casts, fun id hid => b.defined id (a.defined id hid)⟩

/-- A change that comes after one of what neither the cast map nor the character table holds. -/
theorem Floor.KeepsCasts.after {f g h : Floor} (b : g.KeepsCasts h) (hcasts : g.casts = f.casts)
    (hchars : g.chars = f.chars) : f.KeepsCasts h := (Floor.KeepsCasts.of_eq hcasts hchars).trans b

/-! ## The stages -/

theorem Floor.StageEvent.keepsCasts {f g : Floor} {i : Fin 4} (e : Floor.StageEvent i f g) : f.KeepsCasts g :=
  .of_eq e.casts e.chars

theorem Floor.PathOnly.keepsCasts {f g : Floor} {i : Fin 4} (e : Floor.PathOnly i f g) : f.KeepsCasts g :=
  e.stageEvent.keepsCasts

variable (f : Floor) (i : Fin 4)

theorem Floor.setNotice_keepsCasts (n : Notice) : f.KeepsCasts (f.setNotice n) := .of_eq rfl rfl

theorem Floor.forEachOpen_keepsCasts {op : Fin 4 → Floor → Floor} (hop : ∀ j g, Floor.StageEvent j g (op j g))
    (l : List (Fin 4)) : f.KeepsCasts (f.forEachOpen l op) :=
  .of_eq (Floor.forEachOpen_keeps Floor.casts (fun j g => (hop j g).casts) (fun _ _ => rfl) f l)
    (Floor.forEachOpen_keeps Floor.chars (fun j g => (hop j g).chars) (fun _ _ => rfl) f l)

/-- An event of a stage at the count it falls due, or none. -/
theorem Floor.keepsCasts_of_due {f g : Floor} {i : Fin 4}
    (h : ∃ d, Floor.StageEvent i (f.atCount d) g ∨ g = f) : f.KeepsCasts g := by
  obtain ⟨d, hevent | rfl⟩ := h
  · exact hevent.keepsCasts.after rfl rfl
  · exact .refl g

theorem Floor.wordArrives_keepsCasts (pin : Fin 6) (w : TimecodeWord) : f.KeepsCasts (f.wordArrives pin w) :=
  .after (Floor.forEachOpen_keepsCasts _ (fun j g => g.trackerWord_stageEvent j w) _) rfl rfl

theorem Floor.gapExpires_keepsCasts : f.KeepsCasts (f.gapExpires i) := by
  unfold Floor.gapExpires
  split
  · exact .refl f
  · next e _ =>
    refine Floor.KeepsCasts.after (g := f.atCount e) ?_ rfl rfl
    obtain ⟨g, hg, hend | hend⟩ := (f.atCount e).endGap_pathOnly i <;> rw [hend]
    · exact hg.keepsCasts
    · exact hg.keepsCasts.trans (g.setNotice_keepsCasts _)

theorem Floor.packetEnds_keepsCasts : f.KeepsCasts (f.packetEnds i) := by
  unfold Floor.packetEnds
  split
  · exact .refl f
  · exact .of_eq rfl rfl

theorem Floor.enable_stageEvent : Floor.StageEvent i f (f.enable i) :=
  (Floor.StageEvent.modTracker f i _).trans ((Floor.StageEvent.modRunner _ i _).trans
    (Floor.trackerChanged_stageEvent _ i))

theorem Floor.resetStage_stageEvent : Floor.StageEvent i f (f.resetStage i) := f.quit_stageEvent i true

theorem Floor.setRecordMode_stageEvent (m : RecordMode) : Floor.StageEvent i f (f.setRecordMode i m) := by
  unfold Floor.setRecordMode
  split
  · exact .refl f i
  · cases m with
    | rehearse =>
      exact (Floor.StageEvent.foldl f i _ _ fun g r => g.reportRun_stageEvent i r _ _).trans
        ((Floor.StageEvent.modRunner _ i _).trans (Floor.settlePath_stageEvent _ i))
    | record => exact (Floor.StageEvent.modRunner f i _).trans (Floor.settlePath_stageEvent _ i)

theorem Floor.clearNotices_keepsCasts (named : List Notice) : f.KeepsCasts (named.foldl Floor.clearNotice f) := by
  induction named generalizing f with
  | nil => exact .refl f
  | cons n named ih => exact .after (ih (f.clearNotice n)) rfl rfl

/-! ## The stores -/

/-- A change of a character in its place. -/
theorem Floor.modifyChars_keepsCasts (id : Nat) (g : Character → Character) :
    f.KeepsCasts { f with chars := Table.modify id g f.chars } := by
  refine ⟨rfl, fun j hj => ?_⟩
  rw [Floor.character, Table.find_modify]
  split
  · rwa [Option.isSome_map]
  · exact hj

theorem Floor.putChar_keepsCasts (id : Nat) (c : Character) :
    f.KeepsCasts { f with chars := Table.put id c f.chars } := by
  refine ⟨rfl, fun j hj => ?_⟩
  by_cases h : j = id
  · simp [Floor.character, h]
  · rwa [Floor.character, Table.find_put_other h]

theorem Floor.raiseUse_keepsCasts (ids : List Nat) : f.KeepsCasts (f.raiseUse ids) :=
  ⟨rfl, fun id hid => by rwa [Floor.raiseUse_character, Option.isSome_map]⟩

theorem Floor.lowerUse_keepsCasts (ids : List Nat) : f.KeepsCasts (f.lowerUse ids) :=
  ⟨rfl, fun id hid => by rwa [Floor.lowerUse_character, Option.isSome_map]⟩

theorem Floor.makeLive_keepsCasts (handle slot : Nat) (fields : CueFields) :
    f.KeepsCasts (f.makeLive handle slot fields) :=
  .after (Floor.raiseUse_keepsCasts _ _) rfl rfl

theorem Floor.writeEdit_keepsCasts (handle : Nat) (fields : CueFields) : f.KeepsCasts (f.writeEdit handle fields) := by
  unfold Floor.writeEdit
  split
  · exact .refl f
  · next c _ =>
    have huse : ∀ low high, f.KeepsCasts (((f.modCue handle fun c =>
        { c with fields := fields, lock := .unlocked }).lowerUse low).raiseUse high) := fun low high =>
      .after ((Floor.lowerUse_keepsCasts _ low).trans (Floor.raiseUse_keepsCasts _ high)) rfl rfl
    dsimp only
    split
    · exact huse _ _
    · exact (huse _ _).trans (.of_eq rfl rfl)

theorem Floor.freeCue_keepsCasts (handle : Nat) : f.KeepsCasts (f.freeCue handle) := by
  unfold Floor.freeCue
  split
  · exact .refl f
  · exact (f.lowerUse_keepsCasts _).trans (.of_eq rfl rfl)

theorem Floor.retireCue_keepsCasts (handle : Nat) : f.KeepsCasts (f.retireCue handle) := by
  unfold Floor.retireCue
  split
  · exact .refl f
  · exact .after (Floor.freeCue_keepsCasts _ handle) rfl rfl

theorem Floor.freeLast_keepsCasts (slot handle : Nat) : f.KeepsCasts (f.freeLast slot handle) :=
  .after (Floor.freeCue_keepsCasts _ handle) rfl rfl

theorem Floor.beginRetire_keepsCasts (handle : Nat) (force : Bool) : f.KeepsCasts (f.beginRetire handle force) := by
  unfold Floor.beginRetire
  split
  · exact .after (Floor.forEachOpen_keepsCasts _ (Floor.abortCueOn_stageEvent handle) _) rfl rfl
  · exact .of_eq rfl rfl

theorem Floor.beginClosure_keepsCasts (slot : Nat) : f.KeepsCasts (f.beginClosure slot) :=
  .after (Floor.forEachOpen_keepsCasts _ Floor.stopOn_stageEvent _) rfl rfl

/-- Where a closure ends, it ends with the cast map as it was (R61). -/
theorem State.closeIfEmpty_keepsCasts {f : Floor} {s : State} (h : f.KeepsCasts s.floor) (slot : Nat) :
    f.KeepsCasts (s.closeIfEmpty slot).floor := by
  unfold State.closeIfEmpty
  split
  · split
    · exact h.trans (.of_eq rfl rfl)
    · exact h
  · exact h

end Sys2Proof.Machine
end

section
/-! The cast map under every command: what a step can do to it, and that it goes on to name each character once, and
only DEFINED ones (R67, R69 to R72). -/

namespace Sys2Proof.Machine

/-- What one step can do to the cast map and to which characters are DEFINED. -/
inductive Floor.CastStep (f : Floor) : Floor → Prop
  | keeps {g : Floor} (h : f.KeepsCasts g) : CastStep f g
  /-- A reset empties every podium (R199, R200). -/
  | cleared {g : Floor} (h : g.casts = Floor.reset.casts) : CastStep f g
  /-- A character is retired that stands nowhere (R67). -/
  | retires {id : Nat} (h : f.castPlace id = none) : CastStep f { f with chars := Table.erase id f.chars }
  /-- A DEFINED character takes a podium and leaves the one it stood at (R70, R71). -/
  | assigns {id : Nat} {i : Fin 4} {k : Fin 6} (h : (f.character id).isSome = true) :
      CastStep f ((f.uncast id).setPodium i k (some id))
  /-- A character leaves its podium (R72). -/
  | releases (id : Nat) : CastStep f (f.uncast id)

theorem Floor.CastStep.refl (f : Floor) : f.CastStep f := .keeps (.refl f)

theorem Floor.reset_podium (i : Fin 4) (k : Fin 6) : Floor.reset.casts[i][k] = none := by
  simp [Floor.reset, Podiums.none]

/-- Each of the changes keeps the map. -/
theorem Floor.CastStep.castMap {f g : Floor} (h : f.CastStep g) (m : f.CastMap) : g.CastMap := by
  cases h with
  | keeps h => exact h.castMap m
  | cleared h =>
    have hempty : ∀ (i : Fin 4) (k : Fin 6) (id : Nat), g.casts[i][k] ≠ some id := fun i k id hi => by
      rw [h, Floor.reset_podium] at hi
      cases hi
    exact ⟨fun i _ k _ id hi => absurd hi (hempty i k id), fun i k id hi => absurd hi (hempty i k id)⟩
  | retires h => exact m.eraseChar h
  | assigns h => exact m.assign _ _ h
  | releases id => exact m.uncast id

/-! ## A request -/

variable {s : State}

/-- A request that is taken does what its owner does; any other changes the notices at most (R194 to R196). -/
theorem State.request_castStep {α : Type} {code : Byte} {fieldCount : Option Nat} {parse : List Byte → Option α}
    {q : Request α} {owner : α → State → State} (howner : ∀ (x : α) (u : State), u.floor.CastStep (owner x u).floor) :
    s.floor.CastStep (s.request code fieldCount parse q owner).floor := by
  have hfirst : (if s.link.window = .noWindow then s.firstByte code else s).floor = s.floor := by
    split
    · rw [State.firstByte_link_only]
    · rfl
  unfold State.request
  rw [← hfirst]
  generalize (if s.link.window = .noWindow then s.firstByte code else s) = u
  dsimp only
  split
  · split
    · next x _ => exact howner x (u.fillSlot code (laterBytes q)).closeWindow
    · exact .refl _
  · exact .keeps (u.floor.setNotice_keepsCasts _)
  · exact .refl _
  · exact .refl _
  · exact .refl _

/-- An owner that answers, refusing or carrying out. -/
theorem State.answer_castStep {code : Byte} {r : Except Status (State × Status × List Byte)}
    (h : Yields (fun b => s.floor.CastStep b.1.floor) r) : s.floor.CastStep (s.answer code r).floor := by
  match r, h with
  | .error _, _ => exact .refl _
  | .ok (t, st, p), h => exact h _ rfl

/-- An owner that answers with the state as it is. -/
theorem Yields.sameCasts {st : Status} {p : List Byte} :
    Yields (fun b : State × Status × List Byte => s.floor.CastStep b.1.floor) (.ok (s, st, p)) := .ok (.refl _)

/-- An owner that answers with a state in which the cast map stands. -/
theorem Yields.keepsCasts {t : State} {st : Status} {p : List Byte} (h : s.floor.KeepsCasts t.floor) :
    Yields (fun b : State × Status × List Byte => s.floor.CastStep b.1.floor) (.ok (t, st, p)) := .ok (.keeps h)

/-- An owner that answers with an event of a stage. -/
theorem Yields.stageEvent {i : Fin 4} {g : Floor → Floor} {st : Status} {p : List Byte}
    (h : Floor.StageEvent i s.floor (g s.floor)) :
    Yields (fun b : State × Status × List Byte => s.floor.CastStep b.1.floor) (.ok (s.modFloor g, st, p)) :=
  .keepsCasts h.keepsCasts

/-! ## The cue store, reels -/

theorem State.ownCreate_castStep (x : CueCreateFields) : s.floor.CastStep (s.ownCreate x).floor := by
  unfold State.ownCreate
  split <;> exact .refl _

theorem State.ownEdit_castStep (x : CueEditFields) : s.floor.CastStep (s.ownEdit x).floor := by
  unfold State.ownEdit
  split
  · exact .refl _
  · exact .keeps (.of_eq rfl rfl)

theorem State.ownRetire_castStep (x : RetireFields) : s.floor.CastStep (s.ownRetire x).floor := by
  unfold State.ownRetire
  split
  · exact .refl _
  · next force _ => exact .keeps (s.floor.beginRetire_keepsCasts x.handle force)

theorem State.ownCueMark_castStep (x : CueMarkFields) : s.floor.CastStep (s.ownCueMark x).floor :=
  State.answer_castStep (.bind fun _ _ => .bind fun _ _ => .bind fun _ _ => .bind fun _ _ => .bind fun _ _ =>
    .keepsCasts (.of_eq rfl rfl))

theorem State.ownReelOpen_castStep (x : ReelRateFields) : s.floor.CastStep (s.ownReelOpen x).floor :=
  State.answer_castStep (.bind fun _ _ => .bind fun _ _ => .bind fun _ _ => .bind fun _ _ => .bind fun _ _ =>
    .keepsCasts (.of_eq rfl rfl))

theorem State.ownReelSetDefaults_castStep (x : ReelDefaultsFields) :
    s.floor.CastStep (s.ownReelSetDefaults x).floor :=
  State.answer_castStep (.bind fun _ _ => .bind fun _ _ => .keepsCasts (.of_eq rfl rfl))

theorem State.ownReelSetRate_castStep (x : ReelRateFields) : s.floor.CastStep (s.ownReelSetRate x).floor :=
  State.answer_castStep (.bind fun _ _ => .bind fun _ _ => .bind fun _ _ => .keepsCasts (.of_eq rfl rfl))

theorem State.ownReelClose_castStep (n : Nat) : s.floor.CastStep (s.ownReelClose n).floor :=
  State.answer_castStep (.bind fun e _ => .bind fun _ _ =>
    .keepsCasts (State.closeIfEmpty_keepsCasts (s.floor.beginClosure_keepsCasts e.1) e.1))

theorem State.ownCueFind_castStep (x : CueFindFields) : s.floor.CastStep (s.ownCueFind x).floor :=
  State.answer_castStep (.bind fun _ _ => .bind fun _ _ => .bind fun _ _ => .sameCasts)

theorem State.ownCueNext_castStep (x : CueNextFields) : s.floor.CastStep (s.ownCueNext x).floor :=
  State.answer_castStep (.bind fun _ _ => .bind fun _ _ => .sameCasts)

theorem State.ownCueList_castStep (x : CueListFields) : s.floor.CastStep (s.ownCueList x).floor :=
  State.answer_castStep (.bind fun _ _ => .bind fun _ _ => .sameCasts)

/-! ## Characters and casts -/

theorem State.ownCharDefine_castStep (x : CharDefineFields) : s.floor.CastStep (s.ownCharDefine x).floor := by
  refine State.answer_castStep (.bind fun _ _ => ?_)
  split
  · exact .keepsCasts (s.floor.putChar_keepsCasts _ _)
  · exact .keepsCasts (s.floor.modifyChars_keepsCasts _ _)

theorem State.ownCharRetire_castStep (id : Nat) : s.floor.CastStep (s.ownCharRetire id).floor := by
  refine State.answer_castStep (.bind fun c _ => .bind fun _ hunused => .ok (.retires ?_))
  exact Option.isNone_iff_eq_none.1 (Bool.and_eq_true_iff.1 (require_eq_ok hunused)).2

theorem State.ownCharRead_castStep (id : Nat) : s.floor.CastStep (s.ownCharRead id).floor := by
  refine State.answer_castStep (.bind fun _ _ => ?_)
  split <;> exact .sameCasts

theorem State.ownCastAssign_castStep (x : CastAssignFields) : s.floor.CastStep (s.ownCastAssign x).floor := by
  refine State.answer_castStep (.bind fun i _ => .bind fun k _ => .bind fun _ _ => .bind fun c hc => .bind fun _ _ =>
    .bind fun _ _ => .ok (.assigns ?_))
  rw [((s.floor.resolveCharacter_eq_ok_iff _ c).1 hc).2]
  rfl

theorem State.ownCastRelease_castStep (id : Nat) : s.floor.CastStep (s.ownCastRelease id).floor :=
  State.answer_castStep (.bind fun _ _ => .ok (.releases id))

/-! ## Trackers, stages, faults -/

theorem State.ownTrackerSet_castStep (x : TrackerSetFields) : s.floor.CastStep (s.ownTrackerSet x).floor :=
  State.answer_castStep (.bind fun i _ => .bind fun _ _ => .bind fun _ _ => .bind fun _ _ =>
    .stageEvent (s.floor.setTracker_stageEvent i _))

theorem State.ownStageEnable_castStep (n : Nat) : s.floor.CastStep (s.ownStageEnable n).floor :=
  State.answer_castStep (.bind fun i _ => .bind fun _ _ => .stageEvent (s.floor.enable_stageEvent i))

theorem State.ownStageDisable_castStep (n : Nat) : s.floor.CastStep (s.ownStageDisable n).floor :=
  State.answer_castStep (.bind fun i _ => .stageEvent (s.floor.disable_stageEvent i))

theorem State.ownStageReset_castStep (n : Nat) : s.floor.CastStep (s.ownStageReset n).floor :=
  State.answer_castStep (.bind fun i _ => .stageEvent (s.floor.resetStage_stageEvent i))

theorem State.ownStageSelectReel_castStep (x : SelectReelFields) :
    s.floor.CastStep (s.ownStageSelectReel x).floor := by
  refine State.answer_castStep (.bind fun i _ => ?_)
  split
  · exact .bind fun _ _ => .bind fun _ _ => .stageEvent (s.floor.select_stageEvent i _ _ _)
  · exact .stageEvent (s.floor.select_stageEvent i _ _ _)
  · exact .stageEvent (s.floor.select_stageEvent i _ _ _)
  · exact .error

theorem State.ownStageSet_castStep (x : StageSetFields) : s.floor.CastStep (s.ownStageSet x).floor :=
  State.answer_castStep (.bind fun i _ => .bind fun _ _ => .bind fun _ _ => .bind fun _ _ =>
    .stageEvent ((Floor.StageEvent.modRunner s.floor i _).trans (Floor.setRecordMode_stageEvent _ i _)))

theorem State.ownTalkback_castStep (x : StageValueFields) : s.floor.CastStep (s.ownTalkback x).floor := by
  refine State.answer_castStep (.bind fun i _ => .bind fun on _ => .keepsCasts ?_)
  cases on with
  | true => exact (s.floor.talkbackOn_pathOnly i).keepsCasts
  | false => exact (s.floor.talkbackOff_pathOnly i).keepsCasts

theorem State.ownPathSet_castStep (x : StageValueFields) : s.floor.CastStep (s.ownPathSet x).floor :=
  State.answer_castStep (.bind fun i _ =>
    .stageEvent ((Floor.StageEvent.modStage s.floor i _).trans (Floor.settlePath_stageEvent _ i)))

theorem State.ownFaultClear_castStep (n : Nat) : s.floor.CastStep (s.ownFaultClear n).floor :=
  State.answer_castStep (.bind fun i _ => .bind fun _ _ => .stageEvent (Floor.StageEvent.modRunner s.floor i _))

theorem State.ownFaultSet_castStep (x : FaultSetFields) : s.floor.CastStep (s.ownFaultSet x).floor :=
  State.answer_castStep (.bind fun _ _ => .bind fun _ _ => .bind fun _ _ => .bind fun _ _ => .bind fun _ _ =>
    .bind fun _ _ => .keepsCasts (.of_eq rfl rfl))

/-! ## Notices, lines, the overlay feed and the monitor unit -/

theorem State.ownNoticeMask_castStep (x : NoticeMaskFields) : s.floor.CastStep (s.ownNoticeMask x).floor :=
  State.answer_castStep (.bind fun _ _ => .bind fun _ _ => .keepsCasts (.of_eq rfl rfl))

theorem State.ownNoticeClear_castStep (l : List NoticeName) : s.floor.CastStep (s.ownNoticeClear l).floor :=
  State.answer_castStep (.bind fun named _ => .keepsCasts (s.floor.clearNotices_keepsCasts named))

theorem State.ownOverlaySet_castStep (x : StageValueFields) : s.floor.CastStep (s.ownOverlaySet x).floor :=
  State.answer_castStep (.bind fun i _ => .stageEvent (Floor.StageEvent.modOverlay s.floor i _))

theorem State.ownLineBankSet_castStep (x : BankSetFields) : s.floor.CastStep (s.ownLineBankSet x).floor :=
  State.answer_castStep (.bind fun _ _ => .bind fun _ _ => .bind fun _ _ => .keepsCasts (.of_eq rfl rfl))

theorem State.ownLineSet_castStep (x : LineSetFields) : s.floor.CastStep (s.ownLineSet x).floor := by
  refine State.answer_castStep (.bind fun _ _ => .bind fun _ _ => .bind fun _ _ => .bind fun _ _ => ?_)
  split <;> exact .bind fun _ _ => .bind fun _ _ => .keepsCasts (.of_eq rfl rfl)

theorem State.ownMonConfig_castStep (x : MonConfigFields) : s.floor.CastStep (s.ownMonConfig x).floor :=
  State.answer_castStep (.bind fun _ _ => .bind fun _ _ => .bind fun _ _ => .bind fun _ _ => .bind fun _ _ =>
    .bind fun _ _ => .bind fun _ _ => .bind fun _ _ => .keepsCasts (.of_eq rfl rfl))

theorem State.ownMonClear_castStep (l : List Nat) : s.floor.CastStep (s.ownMonClear l).floor :=
  State.answer_castStep (.bind fun _ _ => .bind fun _ _ => .keepsCasts (.of_eq rfl rfl))

theorem State.ownMonFreeze_castStep (v : Nat) : s.floor.CastStep (s.ownMonFreeze v).floor :=
  State.answer_castStep (.bind fun _ _ => .keepsCasts (.of_eq rfl rfl))

theorem State.ownMonSetBands_castStep (l : List (Nat × Nat)) : s.floor.CastStep (s.ownMonSetBands l).floor :=
  State.answer_castStep (.bind fun _ _ => .bind fun _ _ => .keepsCasts (.of_eq rfl rfl))

/-! ## Resets, events, one step -/

theorem State.resetBlocks_castStep (s : State) (level : Fin 4) : s.floor.CastStep (s.resetBlocks level).floor :=
  .cleared rfl

theorem State.idle_castStep : s.floor.CastStep s.idle.floor := by
  unfold State.idle
  split
  · exact .keeps (.of_eq rfl rfl)
  · obtain ⟨n, hn⟩ := s.floor.drawn_eq s.floor.due
    exact .keeps (hn ▸ .of_eq rfl rfl)

theorem execClosureStep_castStep {t : State} (h : execClosureStep s = .next t) : s.floor.CastStep t.floor := by
  unfold execClosureStep at h
  split at h
  · cases h; exact .refl _
  · next slot _ =>
    split at h
    · cases h; exact .keeps (State.closeIfEmpty_keepsCasts (.refl _) slot)
    · next handle _ =>
      cases h
      exact .keeps (State.closeIfEmpty_keepsCasts (s.floor.freeLast_keepsCasts slot handle) slot)

theorem execDroppedRequest_castStep {t : State} (h : execDroppedRequest s = .next t) : s.floor.CastStep t.floor := by
  have hdrop : s.floor.CastStep s.dropWindow.floor := .keeps (s.floor.setNotice_keepsCasts _)
  unfold execDroppedRequest at h
  split at h
  · cases h; exact hdrop
  · split at h
    · cases h; exact .refl _
    · cases h; exact hdrop
  · cases h; exact .refl _

/-- A read of a stage checks its number and answers from the state as it is. -/
theorem State.answer_stageRead {code : Byte} {stage : Nat} {p : Fin 4 → List Byte} :
    s.floor.CastStep (s.answer code do
      let i ← orElse (stageOfNat stage) .badRequest
      pure (s, .ok, p i)).floor := State.answer_castStep (.bind fun _ _ => .sameCasts)

/-- Every command, by what it can do to the cast map. -/
theorem exec_castStep {c : Instr} {t : State} (h : exec c s = .next t) : s.floor.CastStep t.floor := by
  cases c with
  | cueCreate q => cases h; exact State.request_castStep fun x _ => State.ownCreate_castStep x
  | cueEdit q => cases h; exact State.request_castStep fun x _ => State.ownEdit_castStep x
  | cueRetire q => cases h; exact State.request_castStep fun x _ => State.ownRetire_castStep x
  | forcedRetire q => cases h; exact State.request_castStep fun x _ => State.ownRetire_castStep x
  | cueCreateCompletion =>
    simp only [exec, execCueCreateCompletion] at h
    split at h
    · cases h; exact .keeps (s.floor.makeLive_keepsCasts _ _ _)
    · cases h; exact .refl _
  | cueEditCompletion =>
    simp only [exec, execCueEditCompletion] at h
    split at h
    · cases h; exact .keeps (s.floor.writeEdit_keepsCasts _ _)
    · cases h; exact .refl _
  | cueRetireCompletion =>
    simp only [exec, execCueRetireCompletion] at h
    split at h
    · cases h; exact .keeps (s.floor.retireCue_keepsCasts _)
    · cases h; exact .refl _
  | cueRead q => cases h; exact State.request_castStep fun _ _ => State.answer_castStep (.bind fun _ _ => .sameCasts)
  | cueMark q => cases h; exact State.request_castStep fun x _ => State.ownCueMark_castStep x
  | reelOpen q => cases h; exact State.request_castStep fun x _ => State.ownReelOpen_castStep x
  | reelSetDefaults q => cases h; exact State.request_castStep fun x _ => State.ownReelSetDefaults_castStep x
  | reelSetRate q => cases h; exact State.request_castStep fun x _ => State.ownReelSetRate_castStep x
  | reelRead q => cases h; exact State.request_castStep fun _ _ => State.answer_castStep (.bind fun _ _ => .sameCasts)
  | reelClose q => cases h; exact State.request_castStep fun x _ => State.ownReelClose_castStep x
  | cueFind q => cases h; exact State.request_castStep fun x _ => State.ownCueFind_castStep x
  | cueNext q => cases h; exact State.request_castStep fun x _ => State.ownCueNext_castStep x
  | cueList q => cases h; exact State.request_castStep fun x _ => State.ownCueList_castStep x
  | charDefine q => cases h; exact State.request_castStep fun x _ => State.ownCharDefine_castStep x
  | charRetire q => cases h; exact State.request_castStep fun x _ => State.ownCharRetire_castStep x
  | charRead q => cases h; exact State.request_castStep fun x _ => State.ownCharRead_castStep x
  | castAssign q => cases h; exact State.request_castStep fun x _ => State.ownCastAssign_castStep x
  | castRelease q => cases h; exact State.request_castStep fun x _ => State.ownCastRelease_castStep x
  | castRead q => cases h; exact State.request_castStep fun _ _ => State.answer_stageRead
  | trackerSet q => cases h; exact State.request_castStep fun x _ => State.ownTrackerSet_castStep x
  | trackerRead q => cases h; exact State.request_castStep fun _ _ => State.answer_stageRead
  | stageEnable q => cases h; exact State.request_castStep fun x _ => State.ownStageEnable_castStep x
  | stageDisable q => cases h; exact State.request_castStep fun x _ => State.ownStageDisable_castStep x
  | stageReset q => cases h; exact State.request_castStep fun x _ => State.ownStageReset_castStep x
  | stageSelectReel q => cases h; exact State.request_castStep fun x _ => State.ownStageSelectReel_castStep x
  | stageSet q => cases h; exact State.request_castStep fun x _ => State.ownStageSet_castStep x
  | stageRead q => cases h; exact State.request_castStep fun _ _ => State.answer_stageRead
  | talkback q => cases h; exact State.request_castStep fun x _ => State.ownTalkback_castStep x
  | pathSet q => cases h; exact State.request_castStep fun x _ => State.ownPathSet_castStep x
  | pathRead q => cases h; exact State.request_castStep fun _ _ => State.answer_stageRead
  | faultClear q => cases h; exact State.request_castStep fun x _ => State.ownFaultClear_castStep x
  | faultSet q => cases h; exact State.request_castStep fun x _ => State.ownFaultSet_castStep x
  | faultRead q => cases h; exact State.request_castStep fun _ _ => State.answer_stageRead
  | noticeRead q => cases h; exact State.request_castStep fun _ _ => .refl _
  | noticeMask q => cases h; exact State.request_castStep fun x _ => State.ownNoticeMask_castStep x
  | noticeClear q => cases h; exact State.request_castStep fun x _ => State.ownNoticeClear_castStep x
  | lineBankSet q => cases h; exact State.request_castStep fun x _ => State.ownLineBankSet_castStep x
  | lineSet q => cases h; exact State.request_castStep fun x _ => State.ownLineSet_castStep x
  | lineRead q => cases h; exact State.request_castStep fun _ _ => .refl _
  | overlaySet q => cases h; exact State.request_castStep fun x _ => State.ownOverlaySet_castStep x
  | overlayRead q => cases h; exact State.request_castStep fun _ _ => State.answer_stageRead
  | monConfig q => cases h; exact State.request_castStep fun x _ => State.ownMonConfig_castStep x
  | monClear q => cases h; exact State.request_castStep fun x _ => State.ownMonClear_castStep x
  | monFreeze q => cases h; exact State.request_castStep fun x _ => State.ownMonFreeze_castStep x
  | monSetBands q => cases h; exact State.request_castStep fun x _ => State.ownMonSetBands_castStep x
  | monRead q => cases h; exact State.request_castStep fun _ _ => .refl _
  | deviceReset q => cases h; exact State.request_castStep fun _ u => u.resetBlocks_castStep u.strap
  | unknownRequest code bytes =>
    simp only [exec, execUnknownRequest] at h
    split at h
    · cases h; exact .refl _
    · cases h; exact State.request_castStep fun _ _ => .refl _
  | droppedRequest => exact execDroppedRequest_castStep h
  | fetch w =>
    cases h
    rw [State.fetchWindow_link_only]
    exact .refl _
  | pinReset => cases h; exact s.resetBlocks_castStep s.strap
  | resetRelease level =>
    simp only [exec, execResetRelease] at h
    split at h
    · cases h; exact s.resetBlocks_castStep level
    · cases h; exact .refl _
  | wordArrival pin w => cases h; exact .keeps (s.floor.wordArrives_keepsCasts pin w)
  | subframeAdvance i => cases h; exact .keeps (Floor.keepsCasts_of_due (s.floor.subframeIncreases_stageEvent i))
  | acquisitionDeadlineExpiry i =>
    cases h; exact .keeps (Floor.keepsCasts_of_due (s.floor.acquisitionExpires_stageEvent i))
  | lockedDeadlineExpiry i => cases h; exact .keeps (Floor.keepsCasts_of_due (s.floor.lockedExpires_stageEvent i))
  | syntheticBoundaryDue i => cases h; exact .keeps (Floor.keepsCasts_of_due (s.floor.syntheticFallsDue_stageEvent i))
  | gapExpiry i => cases h; exact .keeps (s.floor.gapExpires_keepsCasts i)
  | closureStep => exact execClosureStep_castStep h
  | packetEnd i => cases h; exact .keeps (s.floor.packetEnds_keepsCasts i)
  | windowFirstByte w =>
    simp only [exec, execWindowFirstByte] at h
    cases h
    split
    · exact .refl _
    · split
      · exact .refl _
      · rw [State.firstByte_link_only]
        exact .refl _

theorem step_castStep {t : State} (h : step s = .next t) : s.floor.CastStep t.floor := by
  unfold step at h
  split at h
  · next c rest _ => exact exec_castStep (s := { s with pending := rest }) h
  · cases h; exact State.idle_castStep

/-- Settles O11, by what every step does to the cast map. -/
theorem castMapKept : Obligations.CastMapKept := fun _ _ m hstep => (step_castStep hstep).castMap m

end Sys2Proof.Machine
end

section
/-! What the state of a runner says of its run list and of its counts, and the changes of a runner that keep it so (R102,
R103, R116, R128, R145). -/

namespace Sys2Proof.Machine

/-- What the state of a runner says of its run list and of its counts. -/
structure Runner.Coherent (r : Runner) : Prop where
  runs : r.runs ≠ [] → r.state.working = true
  contexts : r.runs.length ≤ Config.runContextCount
  blanking : r.blankingCount ≠ 0 → r.state = .blanked
  holdOff : r.holdOff ≠ 0 → r.state = .hold

theorem Stage.agrees_iff (st : Stage) :
    st.Agrees ↔ (st.tracker.state = .idle ↔ st.runner.state = .offline) ∧ st.runner.Coherent :=
  ⟨fun ⟨hidle, hruns, hcontexts, hblanking, hhold⟩ => ⟨hidle, hruns, hcontexts, hblanking, hhold⟩,
    fun ⟨hidle, hruns, hcontexts, hblanking, hhold⟩ => ⟨hidle, hruns, hcontexts, hblanking, hhold⟩⟩

/-- What an event may do to a runner: it is OFFLINE after it exactly where it was before, and coherent if it was before. -/
structure Runner.Follows (r r' : Runner) : Prop where
  offline : r'.state = .offline ↔ r.state = .offline
  coherent : r.Coherent → r'.Coherent

/-- A runner with its state and its counts as they were, and with no more runs than it had. -/
structure Runner.Thinned (r r' : Runner) : Prop where
  state : r'.state = r.state
  blankingCount : r'.blankingCount = r.blankingCount
  holdOff : r'.holdOff = r.holdOff
  runs : r'.runs.length ≤ r.runs.length

section Runner

variable {r r' r'' : Runner}

theorem Runner.Follows.refl (r : Runner) : r.Follows r := ⟨.rfl, id⟩

theorem Runner.Follows.trans (a : r.Follows r') (b : r'.Follows r'') : r.Follows r'' :=
  ⟨b.offline.trans a.offline, fun h => b.coherent (a.coherent h)⟩

theorem Runner.Thinned.refl (r : Runner) : r.Thinned r := ⟨rfl, rfl, rfl, le_rfl⟩

theorem Runner.Thinned.trans (a : r.Thinned r') (b : r'.Thinned r'') : r.Thinned r'' :=
  ⟨b.state.trans a.state, b.blankingCount.trans a.blankingCount, b.holdOff.trans a.holdOff, b.runs.trans a.runs⟩

theorem Runner.Thinned.follows (a : r.Thinned r') : r.Follows r' where
  offline := by rw [a.state]
  coherent h :=
    { runs := fun hne => by
        rw [a.state]
        refine h.runs (List.length_pos_iff.1 ?_)
        exact (List.length_pos_iff.2 hne).trans_le a.runs
      contexts := a.runs.trans h.contexts
      blanking := by rw [a.state, a.blankingCount]; exact h.blanking
      holdOff := by rw [a.state, a.holdOff]; exact h.holdOff }

theorem Runner.Coherent.runs_nil (h : r.Coherent) (hw : r.state.working = false) : r.runs = [] :=
  not_not.1 (mt h.runs (Bool.eq_false_iff.1 hw))

theorem Runner.Coherent.blankingCount_zero (h : r.Coherent) (hs : r.state ≠ .blanked) : r.blankingCount = 0 :=
  not_not.1 (mt h.blanking hs)

theorem Runner.Coherent.holdOff_zero (h : r.Coherent) (hs : r.state ≠ .hold) : r.holdOff = 0 :=
  not_not.1 (mt h.holdOff hs)

theorem RunnerState.ne_blanked_of_idle {n : RunnerState} (h : n.working = false) : n ≠ .blanked := by
  rintro rfl
  cases h

theorem RunnerState.ne_hold_of_working {n : RunnerState} (h : n.working = true) : n ≠ .hold := by
  rintro rfl
  cases h

/-- A runner that leaves its work for a state other than OFFLINE, with its runs gone; a hold-off count only with HOLD
(R122, R128, R147, R148). -/
theorem Runner.Follows.leaves {n : RunnerState} {hold : Nat} (hw : r.state.working = true) (hn : n ≠ .offline)
    (hhold : hold ≠ 0 → n = .hold ∨ hold = r.holdOff) :
    r.Follows { r with runs := [], state := n, blankingCount := 0, holdOff := hold } where
  offline := iff_of_false hn (RunnerState.ne_offline_of_working hw)
  coherent h :=
    { runs := fun hne => absurd rfl hne
      contexts := Nat.zero_le _
      blanking := fun hne => absurd rfl hne
      holdOff := fun hne => (hhold hne).resolve_right fun heq =>
        hne (heq.trans (h.holdOff_zero (RunnerState.ne_hold_of_working hw))) }

/-- A runner without work that goes to a state other than OFFLINE and BLANKED; a hold-off count only with HOLD (R103, R146 to
R149, R151). -/
theorem Runner.Follows.rests {n : RunnerState} {hold : Nat} (hw : r.state.working = false) (hr : r.state ≠ .offline)
    (hn : n ≠ .offline) (hhold : hold ≠ 0 → n = .hold) : r.Follows { r with state := n, holdOff := hold } where
  offline := iff_of_false hn hr
  coherent h :=
    { runs := fun hne => absurd (h.runs_nil hw) hne
      contexts := h.contexts
      blanking := fun hne => absurd (h.blankingCount_zero (RunnerState.ne_blanked_of_idle hw)) hne
      holdOff := hhold }

/-- A working runner that goes on in its work, with a blanking count only in BLANKED (R103, R128). -/
theorem Runner.Follows.works {n : RunnerState} {blanking : Nat} (hw : r.state.working = true) (hn : n.working = true)
    (hblanking : blanking ≠ 0 → n = .blanked) : r.Follows { r with state := n, blankingCount := blanking } where
  offline := iff_of_false (RunnerState.ne_offline_of_working hn) (RunnerState.ne_offline_of_working hw)
  coherent h :=
    { runs := fun _ => hn
      contexts := h.contexts
      blanking := hblanking
      holdOff := fun hne => absurd (h.holdOff_zero (RunnerState.ne_hold_of_working hw)) hne }

/-- A runner in STANDBY begins to chase (R103). -/
theorem Runner.Follows.chases (hs : r.state = .standby) : r.Follows { r with state := .chasing } where
  offline := by rw [hs]; exact iff_of_false nofun nofun
  coherent h :=
    { runs := fun _ => rfl
      contexts := h.contexts
      blanking := fun hne => absurd (h.blankingCount_zero (by rw [hs]; nofun)) hne
      holdOff := fun hne => absurd (h.holdOff_zero (by rw [hs]; nofun)) hne }

/-- A working runner with other runs, no more than it has contexts for (R116). -/
theorem Runner.Follows.arms {runs : List Run} (hw : r.state.working = true)
    (hlength : r.runs.length ≤ Config.runContextCount → runs.length ≤ Config.runContextCount) :
    r.Follows { r with runs := runs } where
  offline := .rfl
  coherent h := { h with runs := fun _ => hw, contexts := hlength h.contexts }

/-- A stage whose tracker is IDLE as before and whose runner follows goes on to agree. -/
theorem Stage.Agrees.of_follows {st st' : Stage} (h : st.Agrees)
    (hidle : st'.tracker.state = .idle ↔ st.tracker.state = .idle) (hrunner : st.runner.Follows st'.runner) :
    st'.Agrees := by
  rw [Stage.agrees_iff] at h ⊢
  exact ⟨hidle.trans (h.1.trans hrunner.offline.symm), hrunner.coherent h.2⟩

end Runner

end Sys2Proof.Machine
end

section
/-! The runner and the tracker of a stage under the events of the stage: what each operation of the runner, the fault logic,
the interlock and the tracker makes of the state, the run list and the counts of the runner (R82 to R93, R98 to R129, R144 to
R149). -/

namespace Sys2Proof.Machine

variable (f : Floor) (i : Fin 4)

/-! ## Runs that end, points, moves: the runner is thinned at most -/

theorem Floor.PathOnly.thinned {f g : Floor} {i : Fin 4} (a : Floor.PathOnly i f g) :
    (f.runner i).Thinned (g.runner i) := by
  obtain ⟨p, c, -, rfl⟩ := a
  rw [Floor.runner, Floor.runner, Floor.modStage_stage]
  exact ⟨rfl, rfl, rfl, (List.length_map c).le⟩

theorem Floor.settlePath_thinned : (f.runner i).Thinned ((f.settlePath i).runner i) := (f.settlePath_pathOnly i).thinned

/-- Changes of a stage for some items one after another thin its runner where each does. -/
theorem Floor.foldl_thinned {α : Type} {op : Floor → α → Floor} {i : Fin 4}
    (hop : ∀ (g : Floor) x, (g.runner i).Thinned ((op g x).runner i)) (l : List α) (f : Floor) :
    (f.runner i).Thinned ((l.foldl op f).runner i) := by
  induction l generalizing f with
  | nil => exact .refl _
  | cons x l ih => exact (hop f x).trans (ih (op f x))

theorem Floor.abortRun_thinned (r : Run) (e : Nat) : (f.runner i).Thinned ((f.abortRun i r e).runner i) := by
  rw [Floor.runner, Floor.runner, Floor.abortRun_stage]
  exact ⟨rfl, rfl, rfl, List.length_filter_le ..⟩

theorem Floor.abortRuns_thinned (which : Run → Bool) (e : Nat) :
    (f.runner i).Thinned ((f.abortRuns i which e).runner i) :=
  (Floor.foldl_thinned (fun g r => g.abortRun_thinned i r e) _ f).trans (Floor.settlePath_thinned _ i)

theorem Floor.runAtPoint_thinned (t : Nat) (r : Run) : (f.runner i).Thinned ((f.runAtPoint i t r).runner i) := by
  rw [Floor.runner, Floor.runner, Floor.runAtPoint_stage]
  exact ⟨rfl, rfl, rfl, (List.length_map _).le.trans (List.length_filter_le ..)⟩

theorem Floor.runsAtPoint_thinned (t : Nat) : (f.runner i).Thinned ((f.runsAtPoint i t).runner i) :=
  (Floor.foldl_thinned (fun g r => g.runAtPoint_thinned i t r) _ f).trans (Floor.settlePath_thinned _ i)

theorem Floor.packetPoint_thinned (t : Nat) : (f.runner i).Thinned ((f.packetPoint i t).runner i) := by
  rw [(f.packetPoint_frame i t).2.1]
  exact .refl _

theorem Floor.place_thinned (p : Nat) : (f.runner i).Thinned ((f.place i p).runner i) := by
  rw [Floor.place_runner]
  exact ⟨rfl, rfl, rfl, le_rfl⟩

theorem Floor.reach_thinned (t : Nat) : (f.runner i).Thinned ((f.reach i t).runner i) := by
  obtain ⟨F, a, -, -, h⟩ := f.reach_cases i t
  have hplaced : (f.runner i).Thinned (F.runner i) := a.runner ▸ ⟨rfl, rfl, rfl, le_rfl⟩
  refine hplaced.trans ?_
  obtain h | ⟨-, h⟩ := h <;> rw [h]
  · exact (F.runsAtPoint_thinned i t).trans (Floor.packetPoint_thinned _ i t)
  · exact (F.packetPoint_thinned i t).trans (Floor.runsAtPoint_thinned _ i t)

theorem Floor.reachThrough_thinned (old n : Nat) : (f.runner i).Thinned ((f.reachThrough i old n).runner i) := by
  induction n with
  | zero => exact .refl _
  | succ n ih => exact ih.trans (Floor.reach_thinned _ i _)

/-- A forward move thins the run list at most (R98, R119 to R123). -/
theorem Floor.forwardMove_thinned (new : Nat) : (f.runner i).Thinned ((f.forwardMove i new).runner i) := by
  unfold Floor.forwardMove
  dsimp only
  split
  · exact (f.reachThrough_thinned i _ _).trans ((Floor.abortRuns_thinned _ i _ _).trans
      ((Floor.reach_thinned _ i _).trans (Floor.place_thinned _ i _)))
  · exact (f.reachThrough_thinned i _ _).trans (Floor.place_thinned _ i _)

theorem Floor.runAtJump_thinned (p : Nat) (r : Run) : (f.runner i).Thinned ((f.runAtJump i p r).runner i) := by
  unfold Floor.runAtJump
  dsimp only
  split_ifs
  · rw [Floor.dropMark, Floor.modOverlay_runner, Floor.modRunner_runner]
    exact ⟨rfl, rfl, rfl, (List.length_map _).le⟩
  · exact f.abortRun_thinned i r _

/-! ## The fault logic, and a runner that stops -/

theorem Floor.stopChase_follows : (f.runner i).Follows ((f.stopChase i).runner i) := by
  unfold Floor.stopChase
  split
  · next hw =>
    rw [Floor.leaveWork_runner]
    exact .leaves hw nofun fun _ => .inr rfl
  · exact .refl _

theorem Floor.enterHalted_follows (e : Nat) (h : (f.runner i).state ≠ .offline) :
    (f.runner i).Follows ((f.enterHalted i e).runner i) := by
  rw [Floor.enterHalted_runner]
  split
  · next hw => exact .leaves hw nofun fun hne => absurd rfl hne
  · next hw => exact .rests (Bool.eq_false_iff.2 hw) h nofun fun hne => absurd rfl hne

theorem Floor.enterHold_follows (hold e : Nat) (h : (f.runner i).state ≠ .offline) :
    (f.runner i).Follows ((f.enterHold i hold e).runner i) := by
  obtain ⟨hstandby, hheld, hhalted, hworking⟩ := f.enterHold_runner (i := i) hold e
  cases hs : (f.runner i).state with
  | offline => exact absurd hs h
  | halted => rw [hhalted hs]; exact .refl _
  | standby => rw [hstandby hs]; exact .rests (by rw [hs]; rfl) h nofun fun _ => rfl
  | hold =>
    have hrests : (f.runner i).Follows { f.runner i with state := .hold, holdOff := max (f.runner i).holdOff hold } :=
      .rests (by rw [hs]; rfl) h nofun fun _ => rfl
    rw [hheld hs]
    rw [← hs] at hrests
    exact hrests
  | chasing => rw [hworking (by rw [hs]; rfl)]; exact .leaves (by rw [hs]; rfl) nofun fun _ => .inl rfl
  | blanked => rw [hworking (by rw [hs]; rfl)]; exact .leaves (by rw [hs]; rfl) nofun fun _ => .inl rfl

/-- The fault logic takes an occurrence of a runner that is not OFFLINE (R144, R146). -/
theorem Floor.occurrence_follows (c : Condition) : (f.runner i).Follows ((f.occurrence i c).runner i) := by
  by_cases h : (f.runner i).state = .offline
  · rw [Floor.occurrence, if_pos h]
    exact .refl _
  · have hnoticed := f.noticed_runner (i := i) c
    cases hm : (f.faults i).mode c with
    | halt =>
      rw [Floor.occurrence_halt c h hm, ← hnoticed]
      exact Floor.enterHalted_follows _ i _ (hnoticed ▸ h)
    | resumeSlow =>
      rw [Floor.occurrence_resume c h (.inl ⟨hm, rfl⟩), ← hnoticed]
      exact Floor.enterHold_follows _ i _ _ (hnoticed ▸ h)
    | resumeFast =>
      rw [Floor.occurrence_resume c h (.inr ⟨hm, rfl⟩), ← hnoticed]
      exact Floor.enterHold_follows _ i _ _ (hnoticed ▸ h)
    | report =>
      rw [Floor.occurrence_eq c h, hm, ← hnoticed]
      exact .refl _
    | ignore =>
      rw [Floor.runner, Floor.runner, Floor.stage, Floor.stage, (Floor.occurrence_ignored h hm).1]
      exact .refl _

/-- A change of tracker state at the runner (R108). -/
theorem Floor.trackerChanged_follows : (f.runner i).Follows ((f.trackerChanged i).runner i) := by
  have hlast : (f.runner i).Follows
      ((f.modRunner i fun r => { r with lastPosition := (f.tracker i).position }).runner i) := by
    rw [Floor.modRunner_runner]
    exact Runner.Thinned.follows ⟨rfl, rfl, rfl, le_rfl⟩
  unfold Floor.trackerChanged
  dsimp only
  refine hlast.trans ?_
  split
  · exact .refl _
  · split
    · exact Floor.occurrence_follows _ i _
    · exact .refl _
  · have hforget : ∀ g : Floor, (g.forgetFrame i).runner i = g.runner i := fun g => g.modOverlay_runner i _
    rw [← hforget]
    exact Floor.stopChase_follows _ i

/-! ## A boundary -/

theorem Floor.takeCast_follows : (f.runner i).Follows ((f.takeCast i).runner i) := by
  rw [Floor.takeCast, Floor.modRunner_runner]
  exact Runner.Thinned.follows ⟨rfl, rfl, rfl, le_rfl⟩

theorem Floor.selectAuto_follows : (f.runner i).Follows ((f.selectAuto i).runner i) := by
  unfold Floor.selectAuto
  split
  · refine .trans (r' := { f.runner i with selected := f.autoReel i }) ?_ ?_
    · exact Runner.Thinned.follows ⟨rfl, rfl, rfl, le_rfl⟩
    · rw [← f.modRunner_runner i fun r => { r with selected := f.autoReel i }]
      exact Floor.stopChase_follows _ i
  · exact .refl _

theorem Floor.chaseTest_follows (wasStandby : Bool) : (f.runner i).Follows ((f.chaseTest i wasStandby).runner i) := by
  unfold Floor.chaseTest
  split
  · split
    · next h =>
      rw [Floor.modRunner_runner]
      exact .chases (of_decide_eq_true (Bool.and_eq_true_iff.1 h).1)
    · exact .refl _
  · split
    · exact f.stopChase_follows i
    · exact .refl _

theorem Floor.countBlanking_follows : (f.runner i).Follows ((f.countBlanking i).runner i) := by
  unfold Floor.countBlanking
  split
  · next h =>
    rw [Floor.modRunner_runner]
    refine .works (by rw [h]; rfl) (by split <;> rfl) fun hne => if_neg ?_
    omega
  · exact .refl _

theorem Floor.countHold_follows : (f.runner i).Follows ((f.countHold i).runner i) := by
  unfold Floor.countHold
  split
  · next h =>
    have hs : (f.runner i).state = .hold := of_decide_eq_true (Bool.and_eq_true_iff.1 h).1
    rw [Floor.modRunner_runner]
    refine .rests (by rw [hs]; rfl) (by rw [hs]; nofun) (by split <;> nofun) fun hne => if_neg ?_
    omega
  · exact .refl _

/-- One cue at a boundary: it takes a context only where one is free (R116, R117). -/
theorem armOne_follows {i : Fin 4} (p : Nat) (acc : Floor × Bool) (h : Nat)
    (hw : (acc.1.runner i).state.working = true) :
    (acc.1.runner i).Follows ((armOne i p acc h).1.runner i) := by
  unfold armOne
  split
  · exact .refl _
  · split
    · split
      · next c _ _ hroom =>
        have hlength : ((acc.1.armCue i p h c).runner i).runs.length = (acc.1.runner i).runs.length + 1 := by
          have hhandles := congrArg List.length (acc.1.armCue_handles i p h c)
          simpa [Floor.handles] using hhandles
        rw [Floor.armCue_runner]
        exact .arms hw fun _ => hlength ▸ hroom
      · exact .refl _
    · exact .refl _

/-- Arming at a boundary of a working runner (R115 to R117). -/
theorem Floor.arm_follows (hw : (f.runner i).state.working = true) : (f.runner i).Follows ((f.arm i).1.runner i) := by
  have hfold : ∀ (l : List Nat) (p : Nat) (acc : Floor × Bool), (acc.1.runner i).state.working = true →
      (acc.1.runner i).Follows ((l.foldl (armOne i p) acc).1.runner i) := fun l p => by
    induction l with
    | nil => exact fun _ _ => .refl _
    | cons h l ih =>
      intro acc hw
      exact (armOne_follows p acc h hw).trans (ih _ (by rw [(armOne_runner i p acc h).1]; exact hw))
  unfold Floor.arm
  split
  · exact .refl _
  · next reel _ =>
    dsimp only
    have hsettled := (hfold reel.order (f.tracker i).position (f, false) hw).trans
      (Floor.settlePath_thinned _ i).follows
    split
    · exact hsettled
    · exact hsettled

theorem Floor.boundaryOccurrences_follows : (f.runner i).Follows ((f.boundaryOccurrences i).runner i) := by
  unfold Floor.boundaryOccurrences
  split
  · have hrate : (f.runner i).Follows
        ((if f.ratesDisagree i then f.occurrence i .rateMismatch else f).runner i) := by
      split
      · exact f.occurrence_follows i _
      · exact .refl _
    refine hrate.trans ?_
    dsimp only
    generalize (if f.ratesDisagree i then f.occurrence i .rateMismatch else f) = g
    split
    · exact .refl _
    · exact g.occurrence_follows i _
  · exact .refl _

/-- A boundary at the runner, step by step (R107). -/
theorem Floor.boundary_follows : (f.runner i).Follows ((f.boundary i).runner i) := by
  unfold Floor.boundary
  dsimp only
  refine .trans ?_ (Floor.boundaryOccurrences_follows _ i)
  have hpresent : ∀ (g : Floor) (b : Bool), (g.presentBoundary i b).runner i = g.runner i := fun _ _ => rfl
  rw [hpresent]
  refine .trans ?_ (Floor.countHold_follows _ i)
  have htest : (f.runner i).Follows
      ((((f.takeCast i).selectAuto i).chaseTest i ((f.runner i).state == .standby)).runner i) :=
    .trans (.trans (f.takeCast_follows i) (Floor.selectAuto_follows _ i)) (Floor.chaseTest_follows _ i _)
  generalize ((f.takeCast i).selectAuto i).chaseTest i ((f.runner i).state == .standby) = g at htest ⊢
  refine htest.trans ?_
  split
  · next harms =>
    have hchasing : (g.runner i).state = .chasing := eq_of_beq harms
    rw [g.countBlanking_state i hchasing]
    exact g.arm_follows i (by rw [hchasing]; rfl)
  · exact g.countBlanking_follows i

/-! ## A jump -/

theorem Floor.blank_follows (hw : (f.runner i).state.working = true) : (f.runner i).Follows ((f.blank i).runner i) := by
  rw [Floor.blank, Floor.modRunner_runner]
  exact .works hw (by split <;> rfl) fun hne => if_neg hne

/-- An accepted jump at the runner (R127 to R129). -/
theorem Floor.jump_follows (p : Nat) : (f.runner i).Follows ((f.jump i p).runner i) := by
  have hforget : ((f.countOccurrence i .jumps).forgetFrame i).runner i = f.runner i := by
    rw [Floor.forgetFrame, Floor.modOverlay_runner]
    rfl
  have hlast : ∀ g : Floor, (g.runner i).Thinned ((g.modRunner i fun r => { r with lastPosition := p }).runner i) :=
    fun g => by rw [Floor.modRunner_runner]; exact ⟨rfl, rfl, rfl, le_rfl⟩
  unfold Floor.jump
  dsimp only
  rw [← hforget]
  generalize (f.countOccurrence i .jumps).forgetFrame i = g
  split
  · next hw =>
    have hruns := (Floor.foldl_thinned (fun g r => g.runAtJump_thinned i p r) (g.runner i).runs g).trans
      ((hlast _).trans (Floor.settlePath_thinned _ i))
    have hblank := hruns.follows.trans (Floor.blank_follows _ i (by rw [hruns.state]; exact hw))
    split
    · exact hblank.trans (Floor.occurrence_follows _ i _)
    · exact hblank
  · exact (hlast g).follows

end Sys2Proof.Machine
end

section
/-! The counts at which the timed events of a tracker are due (R86, R91, R92, R97). -/

namespace Sys2Proof.Machine

theorem Tracker.acquisitionDeadline_eq_some_iff (t : Tracker) (d : Nat) : t.acquisitionDeadline = some d ↔
    t.state = .acquiring ∧ ∃ a, t.acquisition = some a ∧ d = a.arrival + 2 * t.rate.nominal := by
  unfold Tracker.acquisitionDeadline
  split
  · next h => simp [h, eq_comm]
  · next h => simp [h]

theorem Tracker.lockedDeadline_eq_some_iff (t : Tracker) (d : Nat) : t.lockedDeadline = some d ↔
    t.state = .locked ∧ ∃ b, t.lastBoundary = some b ∧ d = b + 5 * (t.e8 / 8) / 4 := by
  unfold Tracker.lockedDeadline
  split
  · next h => simp [h, eq_comm, Tracker.estimate]
  · next h => simp [h]

theorem Tracker.syntheticDue_eq_some_iff (t : Tracker) (d : Nat) : t.syntheticDue = some d ↔
    t.state = .freewheel ∧ ∃ b, t.lastBoundary = some b ∧ d = b + t.e8 / 8 := by
  unfold Tracker.syntheticDue
  split
  · next h => simp [h, eq_comm, Tracker.estimate]
  · next h => simp [h]

theorem Tracker.subframeDue_eq_some_iff (t : Tracker) (d : Nat) : t.subframeDue = some d ↔
    (t.state = .locked ∨ t.state = .freewheel) ∧ t.direction = .forward ∧ t.position % 64 < 63 ∧
      ∃ b, t.lastBoundary = some b ∧ d = b + ((t.position % 64 + 1) * (t.e8 / 8) + 63) / 64 := by
  unfold Tracker.subframeDue
  split
  · next h =>
    obtain ⟨hstate, hforward, hbelow⟩ := h
    simp only [hstate, hforward, hbelow, true_and, Option.map_eq_some_iff, Tracker.estimate]
    exact exists_congr fun b => and_congr .rfl eq_comm
  · next h =>
    refine iff_of_false nofun ?_
    rintro ⟨hstate, hforward, hbelow, -⟩
    exact h ⟨hstate, hforward, hbelow⟩

/-- The subframe k is passed at the first count at which floor(elapsed x 64 / E) is above it (R97). -/
theorem subframe_lt_iff {e b n : Nat} (k : Nat) (he : 0 < e) (hb : b ≤ n) :
    k < (n - b) * 64 / e ↔ b + ((k + 1) * e + 63) / 64 ≤ n := by
  have hcount : k + 1 ≤ (n - b) * 64 / e ↔ (k + 1) * e ≤ (n - b) * 64 := Nat.le_div_iff_mul_le he
  rw [← Nat.succ_le_iff, Nat.succ_eq_add_one, hcount]
  generalize (k + 1) * e = m
  omega

end Sys2Proof.Machine
end

section
/-! The tracker under moves, jumps and marked boundaries, and a stage under every event of its tracker: it goes on to agree
(R82 to R93, R98, R99). -/

namespace Sys2Proof.Machine

variable (f : Floor) (i : Fin 4)

/-! ## What moves, jumps and boundaries leave of the tracker -/

/-- A forward move sets the position, and leaves the rest of the tracker (R98). -/
@[simp] theorem Floor.forwardMove_tracker (new : Nat) :
    (f.forwardMove i new).tracker i = { f.tracker i with position := new } := by
  have hthrough := fun n => f.reachThrough_tracker i rfl n
  unfold Floor.forwardMove
  dsimp only
  split
  · rw [Floor.place_tracker, (Floor.reach_placed _ i 0).1, Floor.abortAll_tracker, hthrough]
  · rw [Floor.place_tracker, hthrough]

theorem Floor.runAtJump_tracker (p : Nat) (r : Run) : (f.runAtJump i p r).tracker i = f.tracker i := by
  unfold Floor.runAtJump
  dsimp only
  split_ifs
  · rw [Floor.dropMark, Floor.modOverlay_tracker, Floor.modRunner_tracker]
  · exact f.abortRun_tracker i r _

/-- The runner takes a jump, and leaves the tracker (R127). -/
@[simp] theorem Floor.jump_tracker (p : Nat) : (f.jump i p).tracker i = f.tracker i := by
  have hforget : ((f.countOccurrence i .jumps).forgetFrame i).tracker i = f.tracker i :=
    (f.countOccurrence i .jumps).modOverlay_tracker i _
  unfold Floor.jump
  dsimp only
  rw [← hforget]
  generalize (f.countOccurrence i .jumps).forgetFrame i = g
  have hruns := g.foldl_tracker i (fun f r => f.runAtJump i p r) (fun g r => g.runAtJump_tracker i p r) (g.runner i).runs
  split
  · split <;> simp only [Floor.occurrence_tracker, Floor.blank, Floor.modRunner_tracker, Floor.settlePath_tracker, hruns]
  · exact g.modRunner_tracker i _

/-- What is handed on at a marked boundary, by the direction of the tracker: in forward the move first (R98, R99). -/
theorem Floor.markBoundary_eq (new : Nat) : f.markBoundary i new =
    ((if (f.tracker i).direction = .forward then f.forwardMove i new else f.place i new) : Floor).boundary i := by
  unfold Floor.markBoundary
  cases (f.tracker i).direction <;> rfl

/-- A marked boundary sets the position, and leaves the rest of the tracker. -/
@[simp] theorem Floor.markBoundary_tracker (new : Nat) :
    (f.markBoundary i new).tracker i = { f.tracker i with position := new } := by
  rw [Floor.markBoundary_eq, Floor.boundary_tracker]
  split
  · exact f.forwardMove_tracker i new
  · exact f.place_tracker i new

/-! ## A stage that goes on to agree -/

/-- What an event may do to a stage: its tracker is IDLE after it exactly where it was before, and its runner follows. -/
structure Stage.Follows (st st' : Stage) : Prop where
  idle : st'.tracker.state = .idle ↔ st.tracker.state = .idle
  runner : st.runner.Follows st'.runner

theorem Stage.Follows.refl (st : Stage) : st.Follows st := ⟨.rfl, .refl _⟩

theorem Stage.Follows.trans {a b c : Stage} (h : a.Follows b) (k : b.Follows c) : a.Follows c :=
  ⟨k.idle.trans h.idle, h.runner.trans k.runner⟩

theorem Stage.Follows.agrees {st st' : Stage} (h : st.Follows st') (a : st.Agrees) : st'.Agrees :=
  a.of_follows h.idle h.runner

/-- An event that leaves the state of the tracker. -/
theorem Floor.stageFollows_of_state {f g : Floor} {i : Fin 4} (ht : (g.tracker i).state = (f.tracker i).state)
    (hr : (f.runner i).Follows (g.runner i)) : (f.stage i).Follows (g.stage i) := by
  refine ⟨?_, hr⟩
  have hstate : (g.stage i).tracker.state = (f.stage i).tracker.state := ht
  rw [hstate]

/-- A change of the tracker alone. -/
theorem Floor.modTracker_stageFollows (g : Tracker → Tracker)
    (h : (g (f.tracker i)).state = .idle ↔ (f.tracker i).state = .idle) :
    (f.stage i).Follows ((f.modTracker i g).stage i) := by
  rw [Floor.modTracker_stage]
  exact ⟨h, .refl _⟩

theorem Floor.boundary_stageFollows : (f.stage i).Follows ((f.boundary i).stage i) :=
  Floor.stageFollows_of_state (by rw [Floor.boundary_tracker]) (f.boundary_follows i)

theorem Floor.trackerChanged_stageFollows : (f.stage i).Follows ((f.trackerChanged i).stage i) :=
  Floor.stageFollows_of_state (by rw [Floor.trackerChanged_tracker]) (f.trackerChanged_follows i)

theorem Floor.place_stageFollows (p : Nat) : (f.stage i).Follows ((f.place i p).stage i) :=
  Floor.stageFollows_of_state (by rw [Floor.place_tracker]) (f.place_thinned i p).follows

theorem Floor.forwardMove_stageFollows (new : Nat) : (f.stage i).Follows ((f.forwardMove i new).stage i) :=
  Floor.stageFollows_of_state (by rw [Floor.forwardMove_tracker]) (f.forwardMove_thinned i new).follows

theorem Floor.markBoundary_stageFollows (new : Nat) : (f.stage i).Follows ((f.markBoundary i new).stage i) := by
  rw [Floor.markBoundary_eq]
  refine .trans ?_ (Floor.boundary_stageFollows _ i)
  split
  · exact f.forwardMove_stageFollows i new
  · exact f.place_stageFollows i new

/-- A change of the tracker handed on to the runner, from a state other than IDLE to one (R99, R108). -/
theorem Floor.changed_stageFollows (g : Tracker → Tracker)
    (h : (g (f.tracker i)).state = .idle ↔ (f.tracker i).state = .idle) :
    (f.stage i).Follows (((f.modTracker i g).trackerChanged i).stage i) :=
  (f.modTracker_stageFollows i g h).trans (Floor.trackerChanged_stageFollows _ i)

/-! ## A word at one tracker -/

theorem Floor.wordBoundary_stageFollows (a : Nat) : (f.stage i).Follows ((f.wordBoundary i a).stage i) :=
  (f.modTracker_stageFollows i _ .rfl).trans (Floor.markBoundary_stageFollows _ i _)

theorem Floor.acceptJump_stageFollows (w : TimecodeWord) : (f.stage i).Follows ((f.acceptJump i w).stage i) :=
  (f.modTracker_stageFollows i _ .rfl).trans ((Floor.stageFollows_of_state (by rw [Floor.jump_tracker])
    (Floor.jump_follows _ i _)).trans (Floor.boundary_stageFollows _ i))

theorem Floor.holdCandidate_stageFollows (w : TimecodeWord) (n : Nat) :
    (f.stage i).Follows ((f.holdCandidate i w n).stage i) := by
  unfold Floor.holdCandidate
  split
  · exact f.acceptJump_stageFollows i w
  · exact (f.modTracker_stageFollows i _ .rfl).trans (Floor.wordBoundary_stageFollows _ i _)

section Word

variable {f i} {w : TimecodeWord} (h : (f.tracker i).state ≠ .idle)
include h

theorem Floor.lock_stageFollows : (f.stage i).Follows ((f.lock i w).stage i) :=
  (f.changed_stageFollows i _ (iff_of_false (show ¬TrackerState.locked = .idle by decide) h)).trans
    ((Floor.place_stageFollows _ i _).trans (Floor.boundary_stageFollows _ i))

theorem Floor.wordAcquiring_stageFollows : (f.stage i).Follows ((f.wordAcquiring i w).stage i) := by
  have hrestart := f.modTracker_stageFollows i (fun t => t.startAcquisition w) (iff_of_false nofun h)
  unfold Floor.wordAcquiring
  dsimp only
  split
  · exact hrestart
  · next a _ =>
    have hcount := f.modTracker_stageFollows i (fun t => t.countWord a w) .rfl
    split
    · split
      · exact hcount.trans (Floor.lock_stageFollows (by rw [Floor.modTracker_tracker]; exact h))
      · exact hcount
    · exact hrestart

theorem Floor.wordLocked_stageFollows : (f.stage i).Follows ((f.wordLocked i w).stage i) := by
  unfold Floor.wordLocked
  dsimp only
  split
  · exact f.changed_stageFollows i _ (iff_of_false nofun h)
  · split
    · have hcount : (if (f.tracker i).candidate.isSome then f.countOccurrence i .glitches else f).stage i = f.stage i := by
        split <;> rfl
      rw [← hcount]
      exact (Floor.modTracker_stageFollows _ i _ .rfl).trans (Floor.wordBoundary_stageFollows _ i _)
    · split
      · split <;> exact f.holdCandidate_stageFollows i w _
      · exact f.holdCandidate_stageFollows i w _

theorem Floor.wordFreewheel_stageFollows : (f.stage i).Follows ((f.wordFreewheel i w).stage i) := by
  unfold Floor.wordFreewheel
  dsimp only
  split
  · exact (f.changed_stageFollows i _ (iff_of_false (show ¬TrackerState.locked = .idle by decide) h)).trans
      (Floor.markBoundary_stageFollows _ i _)
  · exact f.changed_stageFollows i _ (iff_of_false nofun h)

end Word

/-- A word at one tracker, by its class and the state it meets (R79 to R93). -/
theorem Floor.trackerWord_stageFollows (w : TimecodeWord) : (f.stage i).Follows ((f.trackerWord i w).stage i) := by
  unfold Floor.trackerWord
  dsimp only
  split
  · exact .refl _
  · next h =>
    split
    · exact .refl _
    · exact Floor.stageFollows_of_state (by rw [Floor.occurrence_tracker]) (f.occurrence_follows i _)
    · split
      · exact .refl _
      · exact f.changed_stageFollows i _ (iff_of_false nofun h)
      · exact Floor.wordAcquiring_stageFollows h
      · exact Floor.wordLocked_stageFollows h
      · exact Floor.wordFreewheel_stageFollows h

/-! ## Deadlines: the tracker is in the state that the deadline belongs to -/

theorem Floor.acquisitionExpires_stageFollows : (f.stage i).Follows ((f.acquisitionExpires i).stage i) := by
  unfold Floor.acquisitionExpires
  split
  · exact .refl _
  · next d hd =>
    have hstate := ((Tracker.acquisitionDeadline_eq_some_iff _ _).1 hd).1
    exact (f.atCount d).changed_stageFollows i _ (iff_of_false nofun (ne_of_eq_of_ne hstate nofun))

theorem Floor.lockedExpires_stageFollows : (f.stage i).Follows ((f.lockedExpires i).stage i) := by
  unfold Floor.lockedExpires
  split
  · exact .refl _
  · next d hd =>
    have hstate : (f.tracker i).state ≠ .idle := ne_of_eq_of_ne ((Tracker.lockedDeadline_eq_some_iff _ _).1 hd).1 nofun
    dsimp only
    split
    · exact (f.atCount d).changed_stageFollows i _ (iff_of_false nofun hstate)
    · exact ((f.atCount d).changed_stageFollows i _
        (iff_of_false (show ¬TrackerState.freewheel = .idle by decide) hstate)).trans
        (Floor.markBoundary_stageFollows _ i _)

theorem Floor.syntheticFallsDue_stageFollows : (f.stage i).Follows ((f.syntheticFallsDue i).stage i) := by
  unfold Floor.syntheticFallsDue
  split
  · exact .refl _
  · next d hd =>
    have hstate : (f.tracker i).state ≠ .idle := ne_of_eq_of_ne ((Tracker.syntheticDue_eq_some_iff _ _).1 hd).1 nofun
    dsimp only
    split
    · exact ((f.atCount d).modTracker_stageFollows i _ .rfl).trans (Floor.markBoundary_stageFollows _ i _)
    · exact (f.atCount d).changed_stageFollows i _ (iff_of_false nofun hstate)

theorem Floor.subframeIncreases_stageFollows : (f.stage i).Follows ((f.subframeIncreases i).stage i) := by
  unfold Floor.subframeIncreases
  split
  · exact .refl _
  · next d _ => exact (f.atCount d).forwardMove_stageFollows i _

end Sys2Proof.Machine
end

section
/-! What a step can do to the stages, said once for every command: it leaves them, resets them, or is one of the operations of
the stages. -/

namespace Sys2Proof.Machine

/-- What one step can do to the stages. -/
inductive Floor.StagesStep (f : Floor) : Floor → Prop
  | stand {g : Floor} (h : g.stages = f.stages) : StagesStep f g
  /-- A reset (R199, R200). -/
  | cleared {g : Floor} (h : g.stages = Floor.reset.stages) : StagesStep f g
  | word (pin : Fin 6) (w : TimecodeWord) : StagesStep f (f.wordArrives pin w)
  | subframe (i : Fin 4) : StagesStep f (f.subframeIncreases i)
  | acquisition (i : Fin 4) : StagesStep f (f.acquisitionExpires i)
  | locked (i : Fin 4) : StagesStep f (f.lockedExpires i)
  | synthetic (i : Fin 4) : StagesStep f (f.syntheticFallsDue i)
  | gap (i : Fin 4) : StagesStep f (f.gapExpires i)
  | packet (i : Fin 4) : StagesStep f (f.packetEnds i)
  | trackerSet (i : Fin 4) (x : TrackerSettings) : StagesStep f (f.setTracker i x)
  | enable {i : Fin 4} (h : (f.runner i).state = .offline) : StagesStep f (f.enable i)
  /-- A STAGE_DISABLE or a STAGE_RESET. -/
  | quit (i : Fin 4) (reset : Bool) : StagesStep f (f.quit i reset)
  | select (i : Fin 4) (mode : SelectionMode) (manual selected : Option Nat) :
      StagesStep f (f.select i mode manual selected)
  | stageSet (i : Fin 4) (skip : Bool) (length : Nat) (mode : RecordMode) : StagesStep f
      ((f.modRunner i fun r => { r with skipPrinted := skip, blankingLength := length }).setRecordMode i mode)
  | talkbackOn (i : Fin 4) : StagesStep f (f.talkbackOn i)
  | talkbackOff (i : Fin 4) : StagesStep f (f.talkbackOff i)
  | pathSet (i : Fin 4) (gap : Nat) : StagesStep f ((f.modPath i fun p => { p with guardGap := gap }).settlePath i)
  | faultClear {i : Fin 4} (h : (f.runner i).state = .hold ∨ (f.runner i).state = .halted) :
      StagesStep f (f.modRunner i fun r => { r with state := .standby, holdOff := 0 })
  | faultSet (i : Fin 4) (modes : FaultModes) : StagesStep f (f.modFaults i fun _ => modes)
  | overlaySet (i : Fin 4) (phase : Nat) : StagesStep f (f.modOverlay i fun o => { o with phase := phase })
  /-- A retire is accepted (R37, R38). -/
  | retire (handle : Nat) (force : Bool) : StagesStep f (f.beginRetire handle force)
  /-- A closure begins (R59). -/
  | close {g : Floor} (slot : Nat) (h : g.stages = (f.beginClosure slot).stages) : StagesStep f g
  /-- A closure ends, in the step that began it or in a later one (R61). -/
  | closed {g h : Floor} (slot : Nat) (a : StagesStep f g) (b : h.stages = g.stages.map (Stage.clearSelection slot)) :
      StagesStep f h

/-! ## A request -/

variable {s : State}

theorem Floor.StagesStep.refl (f : Floor) : f.StagesStep f := .stand rfl

/-- A request that is taken does what its owner does; any other leaves the stages (R194 to R196). -/
theorem State.request_stagesStep {α : Type} {code : Byte} {fieldCount : Option Nat} {parse : List Byte → Option α}
    {q : Request α} {owner : α → State → State} (howner : ∀ (x : α) (u : State), u.floor.StagesStep (owner x u).floor) :
    s.floor.StagesStep (s.request code fieldCount parse q owner).floor := by
  have hfirst : (if s.link.window = .noWindow then s.firstByte code else s).floor = s.floor := by
    split
    · rw [State.firstByte_link_only]
    · rfl
  unfold State.request
  rw [← hfirst]
  generalize (if s.link.window = .noWindow then s.firstByte code else s) = u
  dsimp only
  split
  · split
    · next x _ => exact howner x (u.fillSlot code (laterBytes q)).closeWindow
    · exact .refl _
  · exact .stand rfl
  · exact .refl _
  · exact .refl _
  · exact .refl _

/-- An owner that answers, refusing or carrying out. -/
theorem State.answer_stagesStep {code : Byte} {r : Except Status (State × Status × List Byte)}
    (h : Yields (fun b => s.floor.StagesStep b.1.floor) r) : s.floor.StagesStep (s.answer code r).floor := by
  match r, h with
  | .error _, _ => exact .refl _
  | .ok (t, st, p), h => exact h _ rfl

/-- An owner that answers with a state in which the stages stand. -/
theorem Yields.stagesStand {t : State} {st : Status} {p : List Byte} (h : t.floor.stages = s.floor.stages) :
    Yields (fun b : State × Status × List Byte => s.floor.StagesStep b.1.floor) (.ok (t, st, p)) := .ok (.stand h)

/-! ## The cue store, reels, characters, casts -/

theorem State.ownCreate_stagesStep (x : CueCreateFields) : s.floor.StagesStep (s.ownCreate x).floor := by
  unfold State.ownCreate
  split <;> exact .refl _

theorem State.ownEdit_stagesStep (x : CueEditFields) : s.floor.StagesStep (s.ownEdit x).floor := by
  unfold State.ownEdit
  split
  · exact .refl _
  · exact .stand rfl

theorem State.ownRetire_stagesStep (x : RetireFields) : s.floor.StagesStep (s.ownRetire x).floor := by
  unfold State.ownRetire
  split
  · exact .refl _
  · next force _ => exact .retire x.handle force

theorem State.ownCueMark_stagesStep (x : CueMarkFields) : s.floor.StagesStep (s.ownCueMark x).floor :=
  State.answer_stagesStep (.bind fun _ _ => .bind fun _ _ => .bind fun _ _ => .bind fun _ _ => .bind fun _ _ =>
    .stagesStand rfl)

theorem State.ownReelOpen_stagesStep (x : ReelRateFields) : s.floor.StagesStep (s.ownReelOpen x).floor :=
  State.answer_stagesStep (.bind fun _ _ => .bind fun _ _ => .bind fun _ _ => .bind fun _ _ => .bind fun _ _ =>
    .stagesStand rfl)

theorem State.ownReelSetDefaults_stagesStep (x : ReelDefaultsFields) :
    s.floor.StagesStep (s.ownReelSetDefaults x).floor :=
  State.answer_stagesStep (.bind fun _ _ => .bind fun _ _ => .stagesStand rfl)

theorem State.ownReelSetRate_stagesStep (x : ReelRateFields) : s.floor.StagesStep (s.ownReelSetRate x).floor :=
  State.answer_stagesStep (.bind fun _ _ => .bind fun _ _ => .bind fun _ _ => .stagesStand rfl)

/-- Where a closure ends, it clears the selections of the reel (R61). -/
theorem State.closeIfEmpty_stagesStep {f : Floor} {u : State} (h : f.StagesStep u.floor)
    (hsame : ∀ {g : Floor}, g.stages = u.floor.stages → f.StagesStep g) (slot : Nat) :
    f.StagesStep (u.closeIfEmpty slot).floor := by
  unfold State.closeIfEmpty
  split
  · split
    · exact .closed slot h rfl
    · exact hsame rfl
  · exact hsame rfl

theorem State.ownReelClose_stagesStep (n : Nat) : s.floor.StagesStep (s.ownReelClose n).floor :=
  State.answer_stagesStep (.bind fun e _ => .bind fun _ _ =>
    .ok (State.closeIfEmpty_stagesStep (.close e.1 rfl) (.close e.1) e.1))

theorem State.ownCueFind_stagesStep (x : CueFindFields) : s.floor.StagesStep (s.ownCueFind x).floor :=
  State.answer_stagesStep (.bind fun _ _ => .bind fun _ _ => .bind fun _ _ => .stagesStand rfl)

theorem State.ownCueNext_stagesStep (x : CueNextFields) : s.floor.StagesStep (s.ownCueNext x).floor :=
  State.answer_stagesStep (.bind fun _ _ => .bind fun _ _ => .stagesStand rfl)

theorem State.ownCueList_stagesStep (x : CueListFields) : s.floor.StagesStep (s.ownCueList x).floor :=
  State.answer_stagesStep (.bind fun _ _ => .bind fun _ _ => .stagesStand rfl)

theorem State.ownCharDefine_stagesStep (x : CharDefineFields) : s.floor.StagesStep (s.ownCharDefine x).floor := by
  refine State.answer_stagesStep (.bind fun _ _ => ?_)
  split <;> exact .stagesStand rfl

theorem State.ownCharRetire_stagesStep (id : Nat) : s.floor.StagesStep (s.ownCharRetire id).floor :=
  State.answer_stagesStep (.bind fun _ _ => .bind fun _ _ => .stagesStand rfl)

theorem State.ownCharRead_stagesStep (id : Nat) : s.floor.StagesStep (s.ownCharRead id).floor := by
  refine State.answer_stagesStep (.bind fun _ _ => ?_)
  split <;> exact .stagesStand rfl

theorem Floor.uncast_stages (f : Floor) (id : Nat) : (f.uncast id).stages = f.stages := by
  unfold Floor.uncast
  split <;> rfl

theorem State.ownCastAssign_stagesStep (x : CastAssignFields) : s.floor.StagesStep (s.ownCastAssign x).floor :=
  State.answer_stagesStep (.bind fun _ _ => .bind fun _ _ => .bind fun _ _ => .bind fun _ _ => .bind fun _ _ =>
    .bind fun _ _ => .stagesStand (s.floor.uncast_stages x.character))

theorem State.ownCastRelease_stagesStep (id : Nat) : s.floor.StagesStep (s.ownCastRelease id).floor :=
  State.answer_stagesStep (.bind fun _ _ => .stagesStand (s.floor.uncast_stages id))

/-! ## Trackers, stages, faults -/

theorem State.ownTrackerSet_stagesStep (x : TrackerSetFields) : s.floor.StagesStep (s.ownTrackerSet x).floor :=
  State.answer_stagesStep (.bind fun i _ => .bind fun _ _ => .bind fun _ _ => .bind fun _ _ =>
    .ok (.trackerSet i _))

theorem State.ownStageEnable_stagesStep (n : Nat) : s.floor.StagesStep (s.ownStageEnable n).floor :=
  State.answer_stagesStep (.bind fun _ _ => .bind fun _ hoffline => .ok (.enable (eq_of_beq (require_eq_ok hoffline))))

theorem State.ownStageDisable_stagesStep (n : Nat) : s.floor.StagesStep (s.ownStageDisable n).floor :=
  State.answer_stagesStep (.bind fun i _ => .ok (.quit i false))

theorem State.ownStageReset_stagesStep (n : Nat) : s.floor.StagesStep (s.ownStageReset n).floor :=
  State.answer_stagesStep (.bind fun i _ => .ok (.quit i true))

theorem State.ownStageSelectReel_stagesStep (x : SelectReelFields) :
    s.floor.StagesStep (s.ownStageSelectReel x).floor := by
  refine State.answer_stagesStep (.bind fun i _ => ?_)
  split
  · exact .bind fun _ _ => .bind fun _ _ => .ok (.select i _ _ _)
  · exact .ok (.select i _ _ _)
  · exact .ok (.select i _ _ _)
  · exact .error

theorem State.ownStageSet_stagesStep (x : StageSetFields) : s.floor.StagesStep (s.ownStageSet x).floor :=
  State.answer_stagesStep (.bind fun i _ => .bind fun _ _ => .bind fun _ _ => .bind fun _ _ => .ok (.stageSet i _ _ _))

theorem State.ownTalkback_stagesStep (x : StageValueFields) : s.floor.StagesStep (s.ownTalkback x).floor := by
  refine State.answer_stagesStep (.bind fun i _ => .bind fun on _ => .ok ?_)
  cases on with
  | true => exact .talkbackOn i
  | false => exact .talkbackOff i

theorem State.ownPathSet_stagesStep (x : StageValueFields) : s.floor.StagesStep (s.ownPathSet x).floor :=
  State.answer_stagesStep (.bind fun i _ => .ok (.pathSet i _))

theorem State.ownFaultClear_stagesStep (n : Nat) : s.floor.StagesStep (s.ownFaultClear n).floor :=
  State.answer_stagesStep (.bind fun _ _ => .bind fun _ hstate => .ok (.faultClear (by
    have h := require_eq_ok hstate
    rwa [Bool.or_eq_true, beq_iff_eq, beq_iff_eq] at h)))

theorem State.ownFaultSet_stagesStep (x : FaultSetFields) : s.floor.StagesStep (s.ownFaultSet x).floor :=
  State.answer_stagesStep (.bind fun i _ => .bind fun _ _ => .bind fun _ _ => .bind fun _ _ => .bind fun _ _ =>
    .bind fun _ _ => .ok (.faultSet i _))

/-! ## Notices, lines, the overlay feed and the monitor unit -/

theorem State.ownNoticeMask_stagesStep (x : NoticeMaskFields) : s.floor.StagesStep (s.ownNoticeMask x).floor :=
  State.answer_stagesStep (.bind fun _ _ => .bind fun _ _ => .stagesStand rfl)

theorem Floor.foldl_clearNotice_stages (l : List Notice) (f : Floor) : (l.foldl Floor.clearNotice f).stages = f.stages := by
  induction l generalizing f with
  | nil => rfl
  | cons n l ih => exact ih (f.clearNotice n)

theorem State.ownNoticeClear_stagesStep (l : List NoticeName) : s.floor.StagesStep (s.ownNoticeClear l).floor :=
  State.answer_stagesStep (.bind fun named _ => .stagesStand (Floor.foldl_clearNotice_stages named s.floor))

theorem State.ownOverlaySet_stagesStep (x : StageValueFields) : s.floor.StagesStep (s.ownOverlaySet x).floor :=
  State.answer_stagesStep (.bind fun i _ => .ok (.overlaySet i _))

theorem State.ownLineBankSet_stagesStep (x : BankSetFields) : s.floor.StagesStep (s.ownLineBankSet x).floor :=
  State.answer_stagesStep (.bind fun _ _ => .bind fun _ _ => .bind fun _ _ => .stagesStand rfl)

theorem State.ownLineSet_stagesStep (x : LineSetFields) : s.floor.StagesStep (s.ownLineSet x).floor := by
  refine State.answer_stagesStep (.bind fun _ _ => .bind fun _ _ => .bind fun _ _ => .bind fun _ _ => ?_)
  split <;> exact .bind fun _ _ => .bind fun _ _ => .stagesStand rfl

theorem State.ownMonConfig_stagesStep (x : MonConfigFields) : s.floor.StagesStep (s.ownMonConfig x).floor :=
  State.answer_stagesStep (.bind fun _ _ => .bind fun _ _ => .bind fun _ _ => .bind fun _ _ => .bind fun _ _ =>
    .bind fun _ _ => .bind fun _ _ => .bind fun _ _ => .stagesStand rfl)

theorem State.ownMonClear_stagesStep (l : List Nat) : s.floor.StagesStep (s.ownMonClear l).floor :=
  State.answer_stagesStep (.bind fun _ _ => .bind fun _ _ => .stagesStand rfl)

theorem State.ownMonFreeze_stagesStep (v : Nat) : s.floor.StagesStep (s.ownMonFreeze v).floor :=
  State.answer_stagesStep (.bind fun _ _ => .stagesStand rfl)

theorem State.ownMonSetBands_stagesStep (l : List (Nat × Nat)) : s.floor.StagesStep (s.ownMonSetBands l).floor :=
  State.answer_stagesStep (.bind fun _ _ => .bind fun _ _ => .stagesStand rfl)

/-! ## Completions of the stores -/

theorem Floor.writeEdit_stages (f : Floor) (handle : Nat) (fields : CueFields) :
    (f.writeEdit handle fields).stages = f.stages := by
  unfold Floor.writeEdit
  split
  · rfl
  · dsimp only
    split <;> rfl

theorem Floor.freeCue_stages (f : Floor) (handle : Nat) : (f.freeCue handle).stages = f.stages := by
  unfold Floor.freeCue
  split <;> rfl

theorem Floor.retireCue_stages (f : Floor) (handle : Nat) : (f.retireCue handle).stages = f.stages := by
  unfold Floor.retireCue
  split
  · rfl
  · exact Floor.freeCue_stages _ handle

/-! ## Resets, events, one step -/

theorem State.resetBlocks_stagesStep (s : State) (level : Fin 4) : s.floor.StagesStep (s.resetBlocks level).floor :=
  .cleared rfl

theorem State.idle_stagesStep : s.floor.StagesStep s.idle.floor := by
  unfold State.idle
  split
  · exact .stand rfl
  · exact .stand (s.floor.drawn_stages _)

theorem execClosureStep_stagesStep {t : State} (h : execClosureStep s = .next t) : s.floor.StagesStep t.floor := by
  unfold execClosureStep at h
  split at h
  · cases h; exact .refl _
  · next slot _ =>
    split at h
    · cases h; exact State.closeIfEmpty_stagesStep (.refl _) .stand slot
    · next handle _ =>
      cases h
      have hfree : (s.floor.freeLast slot handle).stages = s.floor.stages := Floor.freeCue_stages _ handle
      exact State.closeIfEmpty_stagesStep (u := s.modFloor fun f => f.freeLast slot handle) (.stand hfree)
        (fun hsame => .stand (hsame.trans hfree)) slot

theorem execDroppedRequest_stagesStep {t : State} (h : execDroppedRequest s = .next t) :
    s.floor.StagesStep t.floor := by
  unfold execDroppedRequest at h
  split at h
  · cases h; exact .stand rfl
  · split at h
    · cases h; exact .refl _
    · cases h; exact .stand rfl
  · cases h; exact .refl _

/-- A read of a stage checks its number and answers from the state as it is. -/
theorem State.answer_stageRead_stagesStep {code : Byte} {stage : Nat} {p : Fin 4 → List Byte} :
    s.floor.StagesStep (s.answer code do
      let i ← orElse (stageOfNat stage) .badRequest
      pure (s, .ok, p i)).floor := State.answer_stagesStep (.bind fun _ _ => .stagesStand rfl)

/-- Every command, by what it can do to the stages. -/
theorem exec_stagesStep {c : Instr} {t : State} (h : exec c s = .next t) : s.floor.StagesStep t.floor := by
  cases c with
  | cueCreate q => cases h; exact State.request_stagesStep fun x _ => State.ownCreate_stagesStep x
  | cueEdit q => cases h; exact State.request_stagesStep fun x _ => State.ownEdit_stagesStep x
  | cueRetire q => cases h; exact State.request_stagesStep fun x _ => State.ownRetire_stagesStep x
  | forcedRetire q => cases h; exact State.request_stagesStep fun x _ => State.ownRetire_stagesStep x
  | cueCreateCompletion =>
    simp only [exec, execCueCreateCompletion] at h
    split at h <;> cases h <;> exact .stand rfl
  | cueEditCompletion =>
    simp only [exec, execCueEditCompletion] at h
    split at h
    · cases h; exact .stand (s.floor.writeEdit_stages _ _)
    · cases h; exact .refl _
  | cueRetireCompletion =>
    simp only [exec, execCueRetireCompletion] at h
    split at h
    · cases h; exact .stand (s.floor.retireCue_stages _)
    · cases h; exact .refl _
  | cueRead q =>
    cases h; exact State.request_stagesStep fun _ _ => State.answer_stagesStep (.bind fun _ _ => .stagesStand rfl)
  | cueMark q => cases h; exact State.request_stagesStep fun x _ => State.ownCueMark_stagesStep x
  | reelOpen q => cases h; exact State.request_stagesStep fun x _ => State.ownReelOpen_stagesStep x
  | reelSetDefaults q => cases h; exact State.request_stagesStep fun x _ => State.ownReelSetDefaults_stagesStep x
  | reelSetRate q => cases h; exact State.request_stagesStep fun x _ => State.ownReelSetRate_stagesStep x
  | reelRead q =>
    cases h; exact State.request_stagesStep fun _ _ => State.answer_stagesStep (.bind fun _ _ => .stagesStand rfl)
  | reelClose q => cases h; exact State.request_stagesStep fun x _ => State.ownReelClose_stagesStep x
  | cueFind q => cases h; exact State.request_stagesStep fun x _ => State.ownCueFind_stagesStep x
  | cueNext q => cases h; exact State.request_stagesStep fun x _ => State.ownCueNext_stagesStep x
  | cueList q => cases h; exact State.request_stagesStep fun x _ => State.ownCueList_stagesStep x
  | charDefine q => cases h; exact State.request_stagesStep fun x _ => State.ownCharDefine_stagesStep x
  | charRetire q => cases h; exact State.request_stagesStep fun x _ => State.ownCharRetire_stagesStep x
  | charRead q => cases h; exact State.request_stagesStep fun x _ => State.ownCharRead_stagesStep x
  | castAssign q => cases h; exact State.request_stagesStep fun x _ => State.ownCastAssign_stagesStep x
  | castRelease q => cases h; exact State.request_stagesStep fun x _ => State.ownCastRelease_stagesStep x
  | castRead q => cases h; exact State.request_stagesStep fun _ _ => State.answer_stageRead_stagesStep
  | trackerSet q => cases h; exact State.request_stagesStep fun x _ => State.ownTrackerSet_stagesStep x
  | trackerRead q => cases h; exact State.request_stagesStep fun _ _ => State.answer_stageRead_stagesStep
  | stageEnable q => cases h; exact State.request_stagesStep fun x _ => State.ownStageEnable_stagesStep x
  | stageDisable q => cases h; exact State.request_stagesStep fun x _ => State.ownStageDisable_stagesStep x
  | stageReset q => cases h; exact State.request_stagesStep fun x _ => State.ownStageReset_stagesStep x
  | stageSelectReel q => cases h; exact State.request_stagesStep fun x _ => State.ownStageSelectReel_stagesStep x
  | stageSet q => cases h; exact State.request_stagesStep fun x _ => State.ownStageSet_stagesStep x
  | stageRead q => cases h; exact State.request_stagesStep fun _ _ => State.answer_stageRead_stagesStep
  | talkback q => cases h; exact State.request_stagesStep fun x _ => State.ownTalkback_stagesStep x
  | pathSet q => cases h; exact State.request_stagesStep fun x _ => State.ownPathSet_stagesStep x
  | pathRead q => cases h; exact State.request_stagesStep fun _ _ => State.answer_stageRead_stagesStep
  | faultClear q => cases h; exact State.request_stagesStep fun x _ => State.ownFaultClear_stagesStep x
  | faultSet q => cases h; exact State.request_stagesStep fun x _ => State.ownFaultSet_stagesStep x
  | faultRead q => cases h; exact State.request_stagesStep fun _ _ => State.answer_stageRead_stagesStep
  | noticeRead q => cases h; exact State.request_stagesStep fun _ _ => .refl _
  | noticeMask q => cases h; exact State.request_stagesStep fun x _ => State.ownNoticeMask_stagesStep x
  | noticeClear q => cases h; exact State.request_stagesStep fun x _ => State.ownNoticeClear_stagesStep x
  | lineBankSet q => cases h; exact State.request_stagesStep fun x _ => State.ownLineBankSet_stagesStep x
  | lineSet q => cases h; exact State.request_stagesStep fun x _ => State.ownLineSet_stagesStep x
  | lineRead q => cases h; exact State.request_stagesStep fun _ _ => .refl _
  | overlaySet q => cases h; exact State.request_stagesStep fun x _ => State.ownOverlaySet_stagesStep x
  | overlayRead q => cases h; exact State.request_stagesStep fun _ _ => State.answer_stageRead_stagesStep
  | monConfig q => cases h; exact State.request_stagesStep fun x _ => State.ownMonConfig_stagesStep x
  | monClear q => cases h; exact State.request_stagesStep fun x _ => State.ownMonClear_stagesStep x
  | monFreeze q => cases h; exact State.request_stagesStep fun x _ => State.ownMonFreeze_stagesStep x
  | monSetBands q => cases h; exact State.request_stagesStep fun x _ => State.ownMonSetBands_stagesStep x
  | monRead q => cases h; exact State.request_stagesStep fun _ _ => .refl _
  | deviceReset q => cases h; exact State.request_stagesStep fun _ u => u.resetBlocks_stagesStep u.strap
  | unknownRequest code bytes =>
    simp only [exec, execUnknownRequest] at h
    split at h
    · cases h; exact .refl _
    · cases h; exact State.request_stagesStep fun _ _ => .refl _
  | droppedRequest => exact execDroppedRequest_stagesStep h
  | fetch w =>
    cases h
    rw [State.fetchWindow_link_only]
    exact .refl _
  | pinReset => cases h; exact s.resetBlocks_stagesStep s.strap
  | resetRelease level =>
    simp only [exec, execResetRelease] at h
    split at h
    · cases h; exact s.resetBlocks_stagesStep level
    · cases h; exact .refl _
  | wordArrival pin w => cases h; exact .word pin w
  | subframeAdvance i => cases h; exact .subframe i
  | acquisitionDeadlineExpiry i => cases h; exact .acquisition i
  | lockedDeadlineExpiry i => cases h; exact .locked i
  | syntheticBoundaryDue i => cases h; exact .synthetic i
  | gapExpiry i => cases h; exact .gap i
  | closureStep => exact execClosureStep_stagesStep h
  | packetEnd i => cases h; exact .packet i
  | windowFirstByte w =>
    simp only [exec, execWindowFirstByte] at h
    cases h
    split
    · exact .refl _
    · split
      · exact .refl _
      · rw [State.firstByte_link_only]
        exact .refl _

theorem step_stagesStep {t : State} (h : step s = .next t) : s.floor.StagesStep t.floor := by
  unfold step at h
  split at h
  · next c rest _ => exact exec_stagesStep (s := { s with pending := rest }) h
  · cases h; exact State.idle_stagesStep

end Sys2Proof.Machine
end

section
/-! Every step keeps what the runner state of each stage says of its tracker, its run list and its counts (R82, R102 to R105,
R116, R122, R128, R147, R148). -/

namespace Sys2Proof.Machine

variable {f g : Floor} {i : Fin 4}

/-- Every stage agrees. -/
def Floor.StagesAgree (f : Floor) : Prop := ∀ i, (f.stage i).Agrees

theorem Floor.StagesAgree.of_stages (a : f.StagesAgree) (h : g.stages = f.stages) : g.StagesAgree := fun i => by
  rw [Floor.stage, h]
  exact a i

/-- An event of a stage that goes on to agree. -/
theorem Floor.StageEvent.stagesAgree (e : Floor.StageEvent i f g) (h : (f.stage i).Agrees → (g.stage i).Agrees)
    (a : f.StagesAgree) : g.StagesAgree := fun j => by
  by_cases hj : j = i
  · rw [hj]
    exact h (a i)
  · rw [e.stages j hj]
    exact a j

/-- An event of a stage at the count it falls due, or none. -/
theorem Floor.StagesAgree.due (h : ∃ d, Floor.StageEvent i (f.atCount d) g ∨ g = f)
    (hfollows : (f.stage i).Follows (g.stage i)) (a : f.StagesAgree) : g.StagesAgree := by
  obtain ⟨d, hevent | rfl⟩ := h
  · exact hevent.stagesAgree hfollows.agrees a
  · exact a

/-- Events of several stages in an open order, each of its own. -/
theorem Floor.StagesAgree.forEachOpen {op : Fin 4 → Floor → Floor} (hop : ∀ j g, Floor.StageEvent j g (op j g))
    (hfollows : ∀ (j : Fin 4) (g : Floor), (g.stage j).Follows ((op j g).stage j)) (l : List (Fin 4)) (a : f.StagesAgree) :
    (f.forEachOpen l op).StagesAgree := by
  have hfold : ∀ (l : List (Fin 4)) (g : Floor), g.StagesAgree → (l.foldl (fun f j => op j f) g).StagesAgree := fun l => by
    induction l with
    | nil => exact fun _ a => a
    | cons j l ih => exact fun g a => ih _ ((hop j g).stagesAgree (hfollows j g).agrees a)
  exact hfold _ _ (a.of_stages (f.drawn_stages l))

/-! ## Requests at a stage -/

theorem Floor.stopChase_stageFollows (f : Floor) (i : Fin 4) : (f.stage i).Follows ((f.stopChase i).stage i) :=
  Floor.stageFollows_of_state (by rw [Floor.stopChase_tracker]) (f.stopChase_follows i)

/-- A change of the runner alone. -/
theorem Floor.modRunner_stageFollows (u : Runner → Runner) (h : (f.runner i).Follows (u (f.runner i))) :
    (f.stage i).Follows ((f.modRunner i u).stage i) := by
  rw [Floor.modRunner_stage]
  exact ⟨.rfl, h⟩

theorem Floor.PathOnly.stageFollows (h : Floor.PathOnly i f g) : (f.stage i).Follows (g.stage i) :=
  Floor.stageFollows_of_state (by rw [h.frame.1]) h.thinned.follows

/-- An enable: the tracker leaves IDLE and the runner OFFLINE, with no runs (R104). -/
theorem Floor.enable_agrees (hoffline : (f.runner i).state = .offline) (a : (f.stage i).Agrees) :
    ((f.enable i).stage i).Agrees := by
  refine (Floor.trackerChanged_stageFollows _ i).agrees ?_
  obtain ⟨-, hcoherent⟩ := (Stage.agrees_iff _).1 a
  rw [Floor.modRunner_stage, Floor.modTracker_stage, Stage.agrees_iff]
  refine ⟨iff_of_false nofun nofun, ?_, hcoherent.contexts, fun hne => ?_, fun hne => ?_⟩
  · exact fun hne => absurd (hcoherent.runs_nil (hoffline ▸ rfl)) hne
  · exact absurd (hcoherent.blankingCount_zero (ne_of_eq_of_ne hoffline nofun)) hne
  · exact absurd (hcoherent.holdOff_zero (ne_of_eq_of_ne hoffline nofun)) hne

/-- A disable or a reset of the stage: the tracker IDLE, the runner OFFLINE, no runs and no counts (R105, R106). -/
theorem Floor.quit_agrees (reset : Bool) : ((f.quit i reset).stage i).Agrees := by
  rw [Floor.quit_stage]
  exact ⟨iff_of_true rfl rfl, fun hne => absurd rfl hne, Nat.zero_le _, fun hne => absurd rfl hne,
    fun hne => absurd rfl hne⟩

theorem Tracker.takeSettings_idle (x : TrackerSettings) (t : Tracker) :
    (t.takeSettings x).state = .idle ↔ t.state = .idle := by
  rw [Tracker.takeSettings_eq]
  split
  · next h => exact iff_of_false nofun ((t.restarts_iff x).1 h).2
  · rw [Tracker.adjusted_eq]

theorem Floor.setTracker_stageFollows (f : Floor) (i : Fin 4) (x : TrackerSettings) :
    (f.stage i).Follows ((f.setTracker i x).stage i) := by
  have htake := Tracker.takeSettings_idle x (f.tracker i)
  unfold Floor.setTracker
  dsimp only
  split
  · exact f.changed_stageFollows i _ htake
  · exact f.modTracker_stageFollows i _ htake

theorem Floor.select_stageFollows (f : Floor) (i : Fin 4) (mode : SelectionMode) (manual selected : Option Nat) :
    (f.stage i).Follows ((f.select i mode manual selected).stage i) := by
  unfold Floor.select
  dsimp only
  split
  · exact .refl _
  · exact (Floor.modRunner_stageFollows _ (Runner.Thinned.follows ⟨rfl, rfl, rfl, le_rfl⟩)).trans
      (Floor.stopChase_stageFollows _ i)

theorem Floor.setRecordMode_stageFollows (f : Floor) (i : Fin 4) (m : RecordMode) :
    (f.stage i).Follows ((f.setRecordMode i m).stage i) := by
  unfold Floor.setRecordMode
  split
  · exact .refl _
  · cases m with
    | rehearse =>
      have hreports : ∀ (l : List Run) (g : Floor) (p : Nat),
          (l.foldl (fun f r => f.reportRun i r p .aborted) g).stage i = g.stage i := fun l => by
        induction l with
        | nil => exact fun _ _ => rfl
        | cons r l ih =>
          intro g p
          refine (ih (g.reportRun i r p .aborted) p).trans ?_
          unfold Floor.reportRun
          split <;> rfl
      rw [← hreports (f.runner i).runs f (f.tracker i).position]
      exact (Floor.modRunner_stageFollows _
        (Runner.Thinned.follows ⟨rfl, rfl, rfl, (List.length_map _).le⟩)).trans
        (Floor.settlePath_pathOnly _ i).stageFollows
    | record =>
      exact (Floor.modRunner_stageFollows _ (Runner.Thinned.follows ⟨rfl, rfl, rfl, le_rfl⟩)).trans
        (Floor.settlePath_pathOnly _ i).stageFollows

theorem Floor.gapExpires_stageFollows (f : Floor) (i : Fin 4) : (f.stage i).Follows ((f.gapExpires i).stage i) := by
  unfold Floor.gapExpires
  split
  · exact .refl _
  · next e _ =>
    obtain ⟨g, hg, hend | hend⟩ := (f.atCount e).endGap_pathOnly i <;> rw [hend]
    · exact hg.stageFollows
    · exact hg.stageFollows

theorem Floor.gapExpires_due (f : Floor) (i : Fin 4) :
    ∃ d, Floor.StageEvent i (f.atCount d) (f.gapExpires i) ∨ f.gapExpires i = f := by
  unfold Floor.gapExpires
  split
  · exact ⟨0, .inr rfl⟩
  · next e _ =>
    refine ⟨e, .inl ?_⟩
    obtain ⟨g, hg, hend | hend⟩ := (f.atCount e).endGap_pathOnly i <;> rw [hend]
    · exact hg.stageEvent
    · exact hg.stageEvent.trans (.setNotice g i _)

theorem Floor.packetEnds_due (f : Floor) (i : Fin 4) :
    ∃ d, Floor.StageEvent i (f.atCount d) (f.packetEnds i) ∨ f.packetEnds i = f := by
  unfold Floor.packetEnds
  split
  · exact ⟨0, .inr rfl⟩
  · exact ⟨_, .inl (.modOverlay _ i _)⟩

/-- A change of a stage that leaves its tracker and its runner. -/
theorem Floor.modStage_stageFollows (u : Stage → Stage) (ht : (u (f.stage i)).tracker = (f.stage i).tracker)
    (hr : (u (f.stage i)).runner = (f.stage i).runner) : (f.stage i).Follows ((f.modStage i u).stage i) := by
  rw [Floor.modStage_stage]
  exact ⟨by rw [ht], by rw [hr]; exact .refl _⟩

theorem Floor.packetEnds_stageFollows (f : Floor) (i : Fin 4) : (f.stage i).Follows ((f.packetEnds i).stage i) := by
  unfold Floor.packetEnds
  split
  · exact .refl _
  · next p _ => exact Floor.modStage_stageFollows (f := f.atCount p.endCount) _ rfl rfl

/-! ## One step -/

/-- A selection that is cleared leaves the state, the run list and the counts (R61). -/
theorem Stage.clearSelection_follows (slot : Nat) (st : Stage) : st.Follows (st.clearSelection slot) := by
  rw [Stage.clearSelection_eq]
  exact ⟨.rfl, Runner.Thinned.follows ⟨rfl, rfl, rfl, le_rfl⟩⟩

theorem Floor.reset_stagesAgree : Floor.reset.StagesAgree := fun i => by
  have hstage : Floor.reset.stage i = Stage.reset := by simp [Floor.stage, Floor.reset]
  rw [hstage]
  exact ⟨iff_of_true rfl rfl, fun hne => absurd rfl hne, Nat.zero_le _, fun hne => absurd rfl hne,
    fun hne => absurd rfl hne⟩

/-- Each of the operations of the stages keeps them in agreement. -/
theorem Floor.StagesStep.stagesAgree (h : f.StagesStep g) (a : f.StagesAgree) : g.StagesAgree := by
  induction h with
  | stand h => exact a.of_stages h
  | cleared h => exact Floor.reset_stagesAgree.of_stages h
  | word pin w =>
    exact (a.of_stages (f.atCount_stages w.arrival)).forEachOpen (fun j g => g.trackerWord_stageEvent j w)
      (fun j g => g.trackerWord_stageFollows j w) _
  | subframe i => exact .due (f.subframeIncreases_stageEvent i) (f.subframeIncreases_stageFollows i) a
  | acquisition i => exact .due (f.acquisitionExpires_stageEvent i) (f.acquisitionExpires_stageFollows i) a
  | locked i => exact .due (f.lockedExpires_stageEvent i) (f.lockedExpires_stageFollows i) a
  | synthetic i => exact .due (f.syntheticFallsDue_stageEvent i) (f.syntheticFallsDue_stageFollows i) a
  | gap i => exact .due (f.gapExpires_due i) (f.gapExpires_stageFollows i) a
  | packet i => exact .due (f.packetEnds_due i) (f.packetEnds_stageFollows i) a
  | trackerSet i x => exact (f.setTracker_stageEvent i x).stagesAgree (f.setTracker_stageFollows i x).agrees a
  | @enable i h => exact (f.enable_stageEvent i).stagesAgree (Floor.enable_agrees h) a
  | quit i reset => exact (f.quit_stageEvent i reset).stagesAgree (fun _ => Floor.quit_agrees reset) a
  | select i mode manual selected =>
    exact (f.select_stageEvent i mode manual selected).stagesAgree (f.select_stageFollows i mode manual selected).agrees a
  | stageSet i skip length mode =>
    refine ((Floor.StageEvent.modRunner f i _).trans (Floor.setRecordMode_stageEvent _ i mode)).stagesAgree
      (Stage.Follows.agrees ?_) a
    exact (Floor.modRunner_stageFollows _ (Runner.Thinned.follows ⟨rfl, rfl, rfl, le_rfl⟩)).trans
      (Floor.setRecordMode_stageFollows _ i mode)
  | talkbackOn i =>
    exact (f.talkbackOn_pathOnly i).stageEvent.stagesAgree (f.talkbackOn_pathOnly i).stageFollows.agrees a
  | talkbackOff i =>
    exact (f.talkbackOff_pathOnly i).stageEvent.stagesAgree (f.talkbackOff_pathOnly i).stageFollows.agrees a
  | pathSet i gap =>
    have hpath := (Floor.PathOnly.modPath f i fun p => { p with guardGap := gap }).trans (Floor.settlePath_pathOnly _ i)
    exact hpath.stageEvent.stagesAgree hpath.stageFollows.agrees a
  | @faultClear i h =>
    refine (Floor.StageEvent.modRunner f i _).stagesAgree (Floor.modRunner_stageFollows _ ?_).agrees a
    obtain h | h := h <;> exact .rests (by rw [h]; rfl) (by rw [h]; nofun) nofun fun hne => absurd rfl hne
  | faultSet i modes =>
    exact (Floor.StageEvent.modStage f i _).stagesAgree (Floor.modStage_stageFollows _ rfl rfl).agrees a
  | overlaySet i phase =>
    exact (Floor.StageEvent.modStage f i _).stagesAgree (Floor.modStage_stageFollows _ rfl rfl).agrees a
  | retire handle force =>
    cases force with
    | false => exact a.of_stages rfl
    | true =>
      have hlock : (f.lockRetiring handle).StagesAgree := a.of_stages rfl
      exact hlock.forEachOpen (Floor.abortCueOn_stageEvent handle) (fun j g => Floor.stageFollows_of_state
        (congrArg Tracker.state (g.abortRuns_tracker j _ _)) (g.abortRuns_thinned j _ _).follows) _
  | close slot h =>
    have hmark : (f.markClosing slot).StagesAgree := a.of_stages rfl
    exact (hmark.forEachOpen Floor.stopOn_stageEvent (fun j g => g.stopChase_stageFollows j) _).of_stages h
  | @closed g h slot _ b ih =>
    intro i
    have hstage : h.stage i = (g.stage i).clearSelection slot := by simp [Floor.stage, b]
    rw [hstage]
    exact ((g.stage i).clearSelection_follows slot).agrees (ih i)

/-- Settles O7, by what every step does to the stages. -/
theorem stageAgreesKept : Obligations.StageAgreesKept := fun _ _ a hstep => (step_stagesStep hstep).stagesAgree a

end Sys2Proof.Machine
end

section
/-! The timed events of the reference clock, and the step with no command waiting (R78, R86, R91, R92, R97, R133, R138, R177;
log 2, 5). -/

namespace Sys2Proof.Machine

/-! ## The timed events -/

theorem mem_dueAt {due : Option Nat} {event c : Instr} {d : Nat} :
    (d, c) ∈ dueAt due event ↔ c = event ∧ due = some d := by
  cases due with
  | none => simp [dueAt]
  | some e => simp only [dueAt, List.mem_singleton, Prod.mk.injEq, Option.some.injEq]; tauto

/-- The timed events of a stage, each with its count. -/
theorem Floor.mem_stageTimed (f : Floor) (i : Fin 4) (d : Nat) (c : Instr) : (d, c) ∈ f.stageTimed i ↔
    (c = .gapExpiry i ∧ (f.path i).gapExpiry = some d) ∨
    (c = .acquisitionDeadlineExpiry i ∧ (f.tracker i).acquisitionDeadline = some d) ∨
    (c = .lockedDeadlineExpiry i ∧ (f.tracker i).lockedDeadline = some d) ∨
    (c = .syntheticBoundaryDue i ∧ (f.tracker i).syntheticDue = some d) ∨
    (c = .subframeAdvance i ∧ (f.tracker i).subframeDue = some d) ∨
    (c = .packetEnd i ∧ ((f.overlay i).inProgress.map Sending.endCount) = some d) := by
  simp only [Floor.stageTimed, List.mem_append, mem_dueAt, or_assoc]

theorem Floor.mem_timed (f : Floor) (d : Nat) (c : Instr) : (d, c) ∈ f.timed ↔ ∃ i, (d, c) ∈ f.stageTimed i := by
  simp [Floor.timed]

/-! ## The events that are due -/

/-- The events due at the present count are the earliest ones, at or before it. -/
theorem Floor.mem_due (f : Floor) (c : Instr) :
    c ∈ f.due ↔ ∃ d, d ≤ f.now ∧ (d, c) ∈ f.timed ∧ ∀ e ∈ f.timed, d ≤ e.1 := by
  unfold Floor.due
  cases hmin : (f.timed.map (·.1)).min? with
  | none =>
    have hnil : f.timed = [] := by simpa using hmin
    simp [hnil]
  | some d =>
    obtain ⟨hmem, hleast⟩ := List.min?_eq_some_iff.1 hmin
    have hearliest : ∀ k, (k, c) ∈ f.timed ∧ (∀ e ∈ f.timed, k ≤ e.1) ↔ k = d ∧ (d, c) ∈ f.timed := fun k => by
      constructor
      · rintro ⟨hk, hle⟩
        obtain ⟨e, he, rfl⟩ := List.mem_map.1 hmem
        have hkd : k = e.1 := Nat.le_antisymm (hle e he) (hleast k (List.mem_map_of_mem hk))
        exact ⟨hkd, hkd ▸ hk⟩
      · rintro ⟨rfl, hk⟩
        exact ⟨hk, fun e he => hleast e.1 (List.mem_map_of_mem he)⟩
    simp only [hearliest]
    split
    · next hnow => simp [hnow]
    · next hnow =>
      refine iff_of_false List.not_mem_nil ?_
      rintro ⟨k, hk, rfl, -⟩
      exact hnow hk

/-- With nothing due one reference count passes; else the due events enter the queue in an open order (log 2, 5). -/
theorem State.idle_of_due_eq_nil {s : State} (h : s.floor.due = []) :
    s.idle = { s with floor := { s.floor with now := s.floor.now + 1 } } := by
  rw [State.idle, h]

theorem State.idle_of_due_ne_nil {s : State} (h : s.floor.due ≠ []) :
    s.idle = { s with floor := s.floor.drawn s.floor.due, pending := s.floor.openOrder s.floor.due } := by
  unfold State.idle
  split
  · next hnil => exact absurd hnil h
  · rfl

/-- Settles O2: the counts of the timed events one by one, and the two cases of an idle step. -/
theorem idleStepPassesTime : Obligations.IdleStepPassesTime := by
  intro s hpending
  have hstep : step s = .next s.idle := by rw [step, hpending]
  refine ⟨s.idle, hstep, s.floor.mem_due, fun d c => ?_, State.idle_of_due_eq_nil, fun hdue => ?_⟩
  · rw [Floor.mem_timed]
    refine exists_congr fun i => ?_
    dsimp only
    rw [Floor.mem_stageTimed, Tracker.acquisitionDeadline_eq_some_iff, Tracker.lockedDeadline_eq_some_iff,
      Tracker.syntheticDue_eq_some_iff, Tracker.subframeDue_eq_some_iff, Option.map_eq_some_iff]
    refine or_congr .rfl (or_congr .rfl (or_congr .rfl (or_congr .rfl (or_congr ?_ ?_))))
    · refine and_congr .rfl (and_congr .rfl (and_congr .rfl (and_congr .rfl (exists_congr fun b => ?_))))
      refine and_congr .rfl (iff_self_and.2 ?_)
      rintro rfl he n hb
      exact subframe_lt_iff _ he hb
    · exact and_congr .rfl (exists_congr fun p => and_congr .rfl eq_comm)
  · rw [State.idle_of_due_ne_nil hdue]
    obtain ⟨n, hn⟩ := s.floor.drawn_eq s.floor.due
    refine ⟨s.floor.openOrder_perm _, ?_⟩
    simp only [hn]

end Sys2Proof.Machine
end

section
/-! A tracker that loses its lock: the change of its state handed on, the chase stopped and the runs lost (R86, R88, R91 to
R93, R99, R108, R122, R172). -/

namespace Sys2Proof.Machine

/-- What a stage becomes where its tracker goes to a state without a lock: the transmitter forgets the last frame, a working
runner has lost its runs and stands by, any other takes the position. -/
structure Stage.LosesLock (st st' : Stage) (new : Tracker) : Prop where
  tracker : st'.tracker = new
  lastFrame : st'.overlay.lastFrame = none
  working : st.runner.state.working = true → st'.runner.state = .standby ∧ st'.runner.runs = []
  idle : st.runner.state.working = false → st'.runner = { st.runner with lastPosition := new.position }

section Lost

variable (f : Floor) (i : Fin 4) (new : Tracker)

/-- The change to a tracker without a lock, handed on to the transmitter and to the runner. -/
def Floor.lostTo : Floor := (f.changedTo i new).stopChase i

theorem Floor.lostTo_of_idle (hw : (f.runner i).state.working = false) : f.lostTo i new = f.changedTo i new := by
  rw [Floor.lostTo, Floor.stopChase, Floor.changedTo_runner]
  exact if_neg (Bool.eq_false_iff.1 hw)

theorem Floor.lostTo_of_working (hw : (f.runner i).state.working = true) :
    f.lostTo i new = (f.changedTo i new).leaveWork i .standby new.position := by
  have hposition : ((f.changedTo i new).tracker i).position = new.position := by rw [Floor.tracker, Floor.changedTo_stage]
  rw [Floor.lostTo, Floor.stopChase_working _ (by rw [Floor.changedTo_runner]; exact hw), hposition]

theorem Floor.lostTo_losesLock : (f.stage i).LosesLock ((f.lostTo i new).stage i) new where
  tracker := by
    have htracker : (f.lostTo i new).tracker i = new := by
      rw [Floor.lostTo, Floor.stopChase_tracker, Floor.tracker, Floor.changedTo_stage]
    exact htracker
  lastFrame := by
    have hframe : ((f.lostTo i new).overlay i).lastFrame = none := by
      rw [Floor.lostTo, Floor.stopChase_lastFrame, Floor.overlay, Floor.changedTo_stage]
    exact hframe
  working hw := by
    have hrunner : (f.lostTo i new).runner i = _ := congrArg (Floor.runner · i) (f.lostTo_of_working i new hw)
    rw [Floor.leaveWork_runner] at hrunner
    exact ⟨congrArg Runner.state hrunner, congrArg Runner.runs hrunner⟩
  idle hw := by
    have hrunner : (f.lostTo i new).runner i = _ := congrArg (Floor.runner · i) (f.lostTo_of_idle i new hw)
    rw [Floor.changedTo_runner] at hrunner
    exact hrunner

/-- A working runner loses its runs at the position of the tracker (R122). -/
theorem Floor.lostTo_losesRuns (hrate : new.rate = (f.tracker i).rate) (hw : (f.runner i).state.working = true) :
    f.LosesRuns (f.lostTo i new) i new.position := by
  rw [f.lostTo_of_working i new hw]
  refine (Floor.leaveWork_losesRuns _ i _ _).of_agree rfl rfl rfl (fun j => ?_) ?_ ?_ ?_ ?_
  · by_cases hj : j = i
    · rw [hj, Floor.changedTo_runner]
    · rw [Floor.runner, Floor.runner, Floor.changedTo, Floor.modStage_stage_ne _ _ _ _ hj]
  · rw [Floor.changedTo_runner]
  · rw [Floor.path, Floor.changedTo_stage]; rfl
  · rw [Floor.overlay, Floor.changedTo_stage]
  · rw [Floor.tracker, Floor.changedTo_stage]
    exact hrate

theorem Floor.lostTo_stageEvent : Floor.StageEvent i f (f.lostTo i new) :=
  (Floor.StageEvent.modStage f i _).trans (Floor.stopChase_stageEvent _ i)

/-- The new acquisition of a tracker (R88, R93). -/
theorem Floor.startAcquisition_lost (w : TimecodeWord) :
    (f.modTracker i fun t => t.startAcquisition w).trackerChanged i = f.lostTo i ((f.tracker i).startAcquisition w) :=
  f.trackerChanged_lost i (g := fun t => t.startAcquisition w) nofun nofun

/-- A code stop (R91, R92), or the expiry of an acquisition (R86). -/
theorem Floor.codeStop_eq : f.codeStop i = f.lostTo i (f.tracker i).enterSearching :=
  f.trackerChanged_lost i (g := Tracker.enterSearching) nofun nofun

end Lost

end Sys2Proof.Machine
end

section
/-! A valid word in LOCKED: the reversed, the expected and the unexpected word, and an accepted jump (R87 to R90, R94 to R99;
log 29). -/

namespace Sys2Proof.Machine

/-! ## The tracker at a boundary of a word -/

/-- A tracker that takes a boundary at a word: the period measured, the speed computed, and a candidate or none (R87, R89,
R94 to R96). -/
def Tracker.marked (arrival : Nat) (candidate : Option Candidate) (t : Tracker) : Tracker :=
  { ({ t.measure arrival with lastBoundary := some arrival } : Tracker).computeSpeed with candidate := candidate }

/-- The estimate after a measured period (R94, R95). -/
theorem Tracker.measure_e8 (t : Tracker) (arrival : Nat) : (t.measure arrival).e8 =
    match t.timingRef with
    | none => t.e8
    | some ref => t.e8 - t.e8 / 8 + min (max (arrival - ref) (t.rate.nominal / 2)) (2 * t.rate.nominal) := by
  unfold Tracker.measure
  cases t.timingRef <;> rfl

/-- A marked tracker field by field. -/
theorem Tracker.marked_eq (arrival : Nat) (candidate : Option Candidate) (t : Tracker) {e8 v : Nat}
    (he8 : (t.measure arrival).e8 = e8) (hv : v = (t.rate.nominal * 10000 + e8 / 8 / 2) / (e8 / 8)) :
    t.marked arrival candidate = { t with
      lastBoundary := some arrival, timingRef := some arrival, e8 := e8, speed := v
      inSpeed := decide (8750 ≤ v ∧ v ≤ 11250), candidate := candidate } := by
  subst he8 hv
  rw [Bool.decide_and]
  rfl

section Word

variable {f : Floor} {i : Fin 4} {w : TimecodeWord}

/-- A boundary on the expected track, from the tracker as it was (R87, R89). -/
theorem Floor.wordBoundary_eq (candidate : Option Candidate) (arrival : Nat) :
    (f.modTracker i fun t => { t with candidate := candidate }).wordBoundary i arrival =
      (f.modTracker i fun _ => (f.tracker i).marked arrival candidate).markBoundary i ((f.tracker i).stepped 0) := by
  have hmark : ((f.modTracker i fun t => { t with candidate := candidate }).modTracker i fun t =>
      ({ t.measure arrival with lastBoundary := some arrival } : Tracker).computeSpeed) =
      f.modTracker i fun _ => (f.tracker i).marked arrival candidate := by
    simp only [Floor.modTracker, Floor.modStage_modStage]
    exact Floor.modStage_congr _ _ _ _ rfl
  simp only [Floor.wordBoundary, hmark, Floor.modTracker_tracker]
  rfl

/-- The confirm count of an unexpected word: one more than that of the candidate it continues, else 1 (R89). -/
def Tracker.confirmAt (w : TimecodeWord) (t : Tracker) : Nat :=
  match t.candidate with
  | some c => if continuesWord t.rate t.direction c.label w then c.confirm + 1 else 1
  | none => 1

/-- A candidate below the jump confirm count is held, and the position steps on the expected track (R89). -/
theorem Floor.holdCandidate_waits {n : Nat} (h : n < (f.tracker i).jumpConfirm) : f.holdCandidate i w n =
    (f.modTracker i fun _ => (f.tracker i).marked w.arrival (some ⟨wordLabel w, n⟩)).markBoundary i
      ((f.tracker i).stepped 0) := by
  rw [Floor.holdCandidate, if_neg (Nat.not_le.2 h), Floor.wordBoundary_eq]

/-- At the jump confirm count the jump is accepted, at the position that the word sets (R90). -/
theorem Floor.holdCandidate_accepts {n : Nat} (h : (f.tracker i).jumpConfirm ≤ n) : f.holdCandidate i w n =
    ((f.modTracker i fun _ => { (f.tracker i).marked w.arrival none with
      position := wordFrame (f.tracker i).rate w * 64 }).jump i (wordFrame (f.tracker i).rate w * 64)).boundary i := by
  rw [Floor.holdCandidate, if_pos h, Floor.acceptJump]
  rfl

/-- A word of the other direction starts an acquisition (R88). -/
theorem Floor.wordLocked_reversed (h : w.direction ≠ (f.tracker i).direction) :
    f.wordLocked i w = f.lostTo i ((f.tracker i).startAcquisition w) := by
  rw [← Floor.startAcquisition_lost]
  exact if_pos (bne_iff_ne.2 h)

/-- The expected word: a candidate is discarded with a glitch, and the position steps (R87, R89). -/
theorem Floor.wordLocked_expected (hd : w.direction = (f.tracker i).direction)
    (hl : wordLabel w = (f.tracker i).expectedLabel) : f.wordLocked i w =
    ((if (f.tracker i).candidate = none then f else f.countOccurrence i .glitches).modTracker i fun _ =>
      (f.tracker i).marked w.arrival none).markBoundary i ((f.tracker i).stepped 0) := by
  have hsame : (w.direction != (f.tracker i).direction) = false := bne_eq_false_iff_eq.2 hd
  unfold Floor.wordLocked
  cases hc : (f.tracker i).candidate with
  | none =>
    simp only [hsame, hl, hc, Bool.false_eq_true, ↓reduceIte, Option.isSome_none, Floor.wordBoundary_eq]
  | some c =>
    simp only [hsame, hl, hc, Bool.false_eq_true, ↓reduceIte, Option.isSome_some, reduceCtorEq, Floor.wordBoundary_eq,
      Floor.countOccurrence_tracker]

/-- A word of the lock's direction that is not the expected one (R89). -/
theorem Floor.wordLocked_unexpected (hd : w.direction = (f.tracker i).direction)
    (hl : wordLabel w ≠ (f.tracker i).expectedLabel) :
    f.wordLocked i w = f.holdCandidate i w ((f.tracker i).confirmAt w) := by
  have hsame : (w.direction != (f.tracker i).direction) = false := bne_eq_false_iff_eq.2 hd
  unfold Floor.wordLocked Tracker.confirmAt
  simp only [hsame, hl, Bool.false_eq_true, ↓reduceIte]
  cases (f.tracker i).candidate with
  | none => rfl
  | some c => exact (apply_ite (f.holdCandidate i w) _ _ _).symm

theorem Floor.trackerWord_locked (hstate : (f.tracker i).state = .locked)
    (hc : classify (f.tracker i).rate w = .valid) : f.trackerWord i w = f.wordLocked i w := by
  simp [Floor.trackerWord, hstate, hc]

theorem Floor.trackerWord_freewheel (hstate : (f.tracker i).state = .freewheel)
    (hc : classify (f.tracker i).rate w = .valid) : f.trackerWord i w = f.wordFreewheel i w := by
  simp [Floor.trackerWord, hstate, hc]

/-- The tracker of a marked boundary (R87, R98). -/
theorem Floor.marked_tracker (t : Tracker) (new : Nat) :
    ((f.modTracker i fun _ => t).markBoundary i new).tracker i = { t with position := new } := by
  rw [Floor.markBoundary_tracker, Floor.modTracker_tracker]

/-- What is handed on at a marked boundary of a tracker, by its direction (R98, R99). -/
theorem Floor.modTracker_markBoundary (t : Tracker) (new : Nat) :
    (f.modTracker i fun _ => t).markBoundary i new =
      ((if t.direction = .forward then (f.modTracker i fun _ => t).forwardMove i new
        else (f.modTracker i fun _ => t).place i new) : Floor).boundary i := by
  rw [Floor.markBoundary_eq, Floor.modTracker_tracker]

end Word

/-- A word that a tracker takes leaves the loss of its lock, whatever the other trackers do with it (R42, R88, R93). -/
theorem Floor.wordArrives_losesLock {f : Floor} {pin : Fin 6} {w : TimecodeWord} {i : Fin 4} {new : Tracker}
    (h : selectedPin i (f.tracker i).source = pin ∧ (f.tracker i).state ≠ .idle)
    (hword : ∀ g : Floor, g.tracker i = f.tracker i → g.trackerWord i w = g.lostTo i new) :
    (f.stage i).LosesLock ((f.wordArrives pin w).stage i) new := by
  obtain ⟨g, hg, hstage⟩ := f.wordArrives_stage_of_listener pin w i h
  rw [hstage, hword g (congrArg Stage.tracker hg), ← hg]
  exact g.lostTo_losesLock i new

/-- Settles O40: the reversed word, the expected word, and an unexpected one below and at the jump confirm count. -/
theorem lockedTrackerTakesWord : Obligations.LockedTrackerTakesWord := by
  intro pin w s i t r f word e8 v marked next handedOn confirm landing hpin hlocked _ hlabel hdrop
  have hvalid : classify t.rate w = .valid := (classify_eq_valid_iff t.rate w).2 ⟨hlabel, hdrop⟩
  have hstate : t.state ≠ .idle := ne_of_eq_of_ne hlocked nofun
  have hword : ∀ g : Floor, g.tracker i = t → g.trackerWord i w = g.wordLocked i w := fun g hg =>
    Floor.trackerWord_locked (hg ▸ hlocked) (hg ▸ hvalid)
  have hsole : s.floor.SoleListener pin i → s.floor.wordArrives pin w = f.wordLocked i w := fun h =>
    (Floor.wordArrives_of_sole _ _ _ _ h).trans (hword f rfl)
  have htracker : ∀ {new : Tracker}, (∀ g : Floor, g.tracker i = t → (g.wordLocked i w).tracker i = new) →
      (s.floor.wordArrives pin w).tracker i = new := fun hnew =>
    s.floor.wordArrives_tracker pin w i hpin hstate fun g hg => by rw [hword g hg, hnew g hg]
  have hmarked : ∀ candidate, t.marked w.arrival candidate = marked candidate := fun candidate =>
    t.marked_eq w.arrival candidate (t.measure_e8 w.arrival) rfl
  have hconfirm : w.direction = t.direction → t.confirmAt w = confirm := fun hd => by
    unfold Tracker.confirmAt
    cases hc : t.candidate with
    | none => simp only [confirm, hc]
    | some c =>
      have hcontinues := continuesWord_iff t.rate t.direction c.label w
      simp only [hd, true_and] at hcontinues
      simp only [confirm, hc, hcontinues]
      rfl
  have hhanded : ∀ (g : Floor) (candidate : Option Candidate),
      (g.modTracker i fun _ => marked candidate).markBoundary i (t.stepped 0) =
        handedOn (g.modTracker i fun _ => marked candidate) := fun g candidate => Floor.modTracker_markBoundary _ _
  have hf : f.tracker i = t := rfl
  refine ⟨s.modFloor fun f => f.wordArrives pin w, rfl, rfl, s.floor.wordArrives_now pin w, fun hd => ?_,
    fun hd hl => ⟨htracker fun g hg => ?_, fun h => ?_⟩, fun hd hl hn => ⟨htracker fun g hg => ?_, fun h => ?_⟩,
    fun hd hl hn => ⟨htracker fun g hg => ?_, fun h => ?_⟩⟩
  · obtain ⟨hnew, -, hworking, hidle⟩ := Floor.wordArrives_losesLock ⟨hpin, hstate⟩ fun g (hg : g.tracker i = t) =>
      (hword g hg).trans ((Floor.wordLocked_reversed (hg ▸ hd)).trans (by rw [hg]))
    refine ⟨hnew, hworking, fun h hw => ?_, hidle⟩
    rw [State.modFloor_floor, hsole h, Floor.wordLocked_reversed (f := f) hd]
    exact f.lostTo_losesRuns i _ rfl hw
  · rw [Floor.wordLocked_expected (hg ▸ hd) (hg ▸ hl), Floor.marked_tracker, hg, hmarked]
    rfl
  · rw [State.modFloor_floor, hsole h, Floor.wordLocked_expected (f := f) hd hl, hf, hmarked, hhanded]
  · rw [Floor.wordLocked_unexpected (hg ▸ hd) (hg ▸ hl), hg, hconfirm hd, Floor.holdCandidate_waits (hg ▸ hn),
      Floor.marked_tracker, hg, hmarked]
    rfl
  · rw [State.modFloor_floor, hsole h, Floor.wordLocked_unexpected (f := f) hd hl, hf, hconfirm hd,
      Floor.holdCandidate_waits (f := f) hn, hf, hmarked, hhanded]
    rfl
  · rw [Floor.wordLocked_unexpected (hg ▸ hd) (hg ▸ hl), hg, hconfirm hd, Floor.holdCandidate_accepts (hg ▸ hn),
      Floor.boundary_tracker, Floor.jump_tracker, Floor.modTracker_tracker, hg, hmarked, wordFrame, hd]
    rfl
  · rw [State.modFloor_floor, hsole h, Floor.wordLocked_unexpected (f := f) hd hl, hf, hconfirm hd,
      Floor.holdCandidate_accepts (f := f) hn, hf, hmarked, wordFrame, hd]
    rfl

end Sys2Proof.Machine
end

section
/-! The events of the reference clock at a tracker: subframe advances, the acquisition deadline, the LOCKED deadline, synthetic
boundaries and code stops, and the words of FREEWHEEL (R86, R91 to R93, R96 to R99, R108, R122, R149). -/

namespace Sys2Proof.Machine

section Due

variable {f : Floor} {i : Fin 4} {d : Nat}

/-! ## Subframe advances and the acquisition deadline -/

theorem Floor.subframeIncreases_of_due (h : (f.tracker i).subframeDue = some d) :
    f.subframeIncreases i = (f.atCount d).forwardMove i ((f.tracker i).position + 1) := by
  rw [Floor.subframeIncreases, h]

theorem Floor.acquisitionExpires_of_due (h : (f.tracker i).acquisitionDeadline = some d) :
    f.acquisitionExpires i = (f.atCount d).lostTo i (f.tracker i).enterSearching := by
  rw [Floor.acquisitionExpires, h]
  exact (f.atCount d).codeStop_eq i

/-! ## The LOCKED deadline (R91) -/

/-- A LOCKED tracker that goes to FREEWHEEL, with its first boundary back-dated to E after the last (R91). -/
def Tracker.freewheeling (t : Tracker) : Tracker :=
  { t with state := .freewheel, lastBoundary := t.lastBoundary.map (· + t.estimate), synthetic := 1, candidate := none,
           timingRef := none }

theorem Floor.lockedExpires_stops (h : (f.tracker i).lockedDeadline = some d)
    (hlimit : (f.tracker i).freewheelLimit = 0) :
    f.lockedExpires i = (f.atCount d).lostTo i (f.tracker i).enterSearching := by
  rw [Floor.lockedExpires, h]
  exact (if_pos hlimit).trans ((f.atCount d).codeStop_eq i)

/-- A change of the tracker noted by the runner: it takes the position (R99, R108). -/
def Floor.noted (f : Floor) (i : Fin 4) (new : Tracker) : Floor :=
  (f.modTracker i fun _ => new).modRunner i fun r => { r with lastPosition := new.position }

theorem Floor.noted_tracker (f : Floor) (i : Fin 4) (new : Tracker) : (f.noted i new).tracker i = new := by
  rw [Floor.noted, Floor.modRunner_tracker, Floor.modTracker_tracker]

theorem Floor.noted_runner (f : Floor) (i : Fin 4) (new : Tracker) :
    (f.noted i new).runner i = { f.runner i with lastPosition := new.position } := by
  rw [Floor.noted, Floor.modRunner_runner, Floor.modTracker_runner]

/-- A change to FREEWHEEL handed on: a PUNCHED run of a working runner hands a DROPOUT (R108, R149). -/
def Floor.freewheelTo (f : Floor) (i : Fin 4) (new : Tracker) : Floor :=
  if (f.runner i).state.working = true ∧ ∃ x ∈ (f.runner i).runs, x.punch = .punched
  then (f.noted i new).occurrence i .dropout else f.noted i new

theorem Floor.freewheelTo_tracker (f : Floor) (i : Fin 4) (new : Tracker) : (f.freewheelTo i new).tracker i = new := by
  unfold Floor.freewheelTo
  split
  · rw [Floor.occurrence_tracker, Floor.noted_tracker]
  · rw [Floor.noted_tracker]

/-- A change to LOCKED or FREEWHEEL, handed on (R99, R108). -/
theorem Floor.trackerChanged_held (f : Floor) (i : Fin 4) (g : Tracker → Tracker) :
    ((g (f.tracker i)).state = .locked → (f.modTracker i g).trackerChanged i = f.noted i (g (f.tracker i))) ∧
    ((g (f.tracker i)).state = .freewheel →
      (f.modTracker i g).trackerChanged i = f.freewheelTo i (g (f.tracker i))) := by
  have hnoted : ((f.modTracker i g).modRunner i fun r =>
      { r with lastPosition := ((f.modTracker i g).tracker i).position }) = f.noted i (g (f.tracker i)) := by
    simp only [Floor.noted, Floor.modTracker_tracker]
    simp only [Floor.modTracker, Floor.modRunner, Floor.modStage_modStage]
    exact Floor.modStage_congr _ _ _ _ rfl
  unfold Floor.trackerChanged
  dsimp only
  rw [hnoted, Floor.noted_tracker]
  refine ⟨fun h => ?_, fun h => ?_⟩
  · rw [h]
  · simp only [h, Floor.freewheelTo, Floor.punchedRun, Floor.noted_runner, Bool.and_eq_true, List.any_eq_true, beq_iff_eq]

theorem Floor.lockedExpires_freewheels (h : (f.tracker i).lockedDeadline = some d)
    (hlimit : (f.tracker i).freewheelLimit ≠ 0) : f.lockedExpires i =
    ((f.atCount d).freewheelTo i (f.tracker i).freewheeling).markBoundary i ((f.tracker i).stepped
      (if (f.tracker i).direction = .forward then firstStepSubframe (f.tracker i).estimate else 0)) := by
  obtain ⟨g, hg⟩ : ∃ g, g = ((f.atCount d).modTracker i Tracker.freewheeling).trackerChanged i := ⟨_, rfl⟩
  have hchanged : g = (f.atCount d).freewheelTo i (f.tracker i).freewheeling :=
    hg.trans (((f.atCount d).trackerChanged_held i Tracker.freewheeling).2 rfl)
  have hexpires : f.lockedExpires i = g.markBoundary i ((g.tracker i).stepped
      (if (g.tracker i).direction = .forward then firstStepSubframe (g.tracker i).estimate else 0)) := by
    rw [Floor.lockedExpires, h, hg]
    exact if_neg hlimit
  rw [hexpires, hchanged, Floor.freewheelTo_tracker]
  rfl

theorem Floor.lockedExpires_event (h : (f.tracker i).lockedDeadline = some d) :
    Floor.StageEvent i (f.atCount d) (f.lockedExpires i) := by
  rw [Floor.lockedExpires, h]
  dsimp only
  split
  · exact Floor.changed_stageEvent _ i _
  · exact (Floor.changed_stageEvent _ i _).trans (Floor.markBoundary_stageEvent _ i _)

/-! ## Synthetic boundaries (R92) -/

theorem Floor.syntheticFallsDue_event (h : (f.tracker i).syntheticDue = some d) :
    Floor.StageEvent i (f.atCount d) (f.syntheticFallsDue i) := by
  rw [Floor.syntheticFallsDue, h]
  dsimp only
  split
  · exact (Floor.StageEvent.modStage _ i _).trans (Floor.markBoundary_stageEvent _ i _)
  · exact Floor.changed_stageEvent _ i _

theorem Floor.syntheticFallsDue_marks (h : (f.tracker i).syntheticDue = some d)
    (hlimit : (f.tracker i).synthetic < (f.tracker i).freewheelLimit) : f.syntheticFallsDue i =
    ((f.atCount d).modTracker i fun _ =>
      { f.tracker i with lastBoundary := some d, synthetic := (f.tracker i).synthetic + 1 }).markBoundary i
      ((f.tracker i).stepped 0) := by
  rw [Floor.syntheticFallsDue, h]
  refine (if_pos hlimit).trans ?_
  simp only [Floor.modTracker_tracker]
  rfl

theorem Floor.syntheticFallsDue_stops (h : (f.tracker i).syntheticDue = some d)
    (hlimit : (f.tracker i).freewheelLimit ≤ (f.tracker i).synthetic) :
    f.syntheticFallsDue i = (f.atCount d).lostTo i (f.tracker i).enterSearching := by
  rw [Floor.syntheticFallsDue, h]
  exact (if_neg (Nat.not_lt.2 hlimit)).trans ((f.atCount d).codeStop_eq i)

end Due

/-! ## Words in FREEWHEEL (R93) -/

section Word

variable {f : Floor} {i : Fin 4} {w : TimecodeWord}

/-- A tracker that a word anchors again: LOCKED with its estimate unchanged (R93, R96). -/
def Tracker.anchored (arrival : Nat) (t : Tracker) : Tracker :=
  ({ t with state := .locked, lastBoundary := some arrival, timingRef := some arrival, synthetic := 0 } :
    Tracker).computeSpeed

theorem Floor.wordFreewheel_expected (hd : w.direction = (f.tracker i).direction)
    (hl : wordLabel w = (f.tracker i).expectedLabel) : f.wordFreewheel i w =
    (f.noted i ((f.tracker i).anchored w.arrival)).markBoundary i ((f.tracker i).stepped 0) := by
  have hchanged := (f.trackerChanged_held i (Tracker.anchored w.arrival)).1 rfl
  have hexpected : (w.direction == (f.tracker i).direction && wordLabel w == (f.tracker i).expectedLabel) = true := by
    simp [hd, hl]
  have hword : f.wordFreewheel i w = ((f.modTracker i (Tracker.anchored w.arrival)).trackerChanged i).markBoundary i
      ((((f.modTracker i (Tracker.anchored w.arrival)).trackerChanged i).tracker i).stepped 0) := if_pos hexpected
  rw [hword, hchanged, Floor.noted_tracker]
  rfl

theorem Floor.wordFreewheel_unexpected
    (h : ¬(w.direction = (f.tracker i).direction ∧ wordLabel w = (f.tracker i).expectedLabel)) :
    f.wordFreewheel i w = f.lostTo i ((f.tracker i).startAcquisition w) := by
  rw [← Floor.startAcquisition_lost]
  refine if_neg fun hexpected => h ?_
  simpa only [Bool.and_eq_true, beq_iff_eq] using hexpected

end Word

/-- Settles O41: a forward move by one subframe, and the loss of the acquisition, at their counts. -/
theorem subframeAndAcquisitionEvents : Obligations.SubframeAndAcquisitionEvents := by
  intro s i t
  refine ⟨fun b hstate hforward hbelow hb he => ?_, fun a hstate ha => ?_⟩
  · have hdue := (t.subframeDue_eq_some_iff _).2 ⟨hstate, hforward, hbelow, b, hb, rfl⟩
    have hmove := Floor.subframeIncreases_of_due hdue
    have hevent := (s.floor.atCount (b + ((t.position % 64 + 1) * (t.e8 / 8) + 63) / 64)).forwardMove_stageEvent i
      (t.position + 1)
    refine ⟨s.modFloor fun f => f.subframeIncreases i, _, rfl, rfl, ?_, ?_, hmove, fun n hn => subframe_lt_iff _ he hn, ?_⟩
    · rw [State.modFloor_floor, hmove, Floor.forwardMove_tracker]
      rfl
    · rw [State.modFloor_floor, hmove]
      exact hevent.now
    · rw [State.modFloor_floor, hmove]
      exact hevent.stages
  · intro r f stopped
    have hdue := (t.acquisitionDeadline_eq_some_iff _).2 ⟨hstate, a, ha, rfl⟩
    have hlost : s.floor.acquisitionExpires i = f.lostTo i stopped := Floor.acquisitionExpires_of_due hdue
    have hevent := f.lostTo_stageEvent i stopped
    obtain ⟨htracker, -, hworking, -⟩ := f.lostTo_losesLock i stopped
    refine ⟨s.modFloor fun f => f.acquisitionExpires i, rfl, rfl, ?_⟩
    rw [State.modFloor_floor, hlost]
    exact ⟨hevent.now, htracker, f.lostTo_of_idle i stopped,
      fun hw => ⟨(hworking hw).1, f.lostTo_losesRuns i stopped rfl hw⟩, hevent.stages⟩

/-- Settles O42: the LOCKED deadline and the synthetic boundary below and at the limit, and the expected and any other word in
FREEWHEEL. -/
theorem freewheelEvents : Obligations.FreewheelEvents := by
  intro s i b t r e frame stopped lost aborts handedOn noted hb _
  have hlost : ∀ (new : Tracker) (u : State), new.position = t.position →
      (s.floor.stage i).LosesLock (u.floor.stage i) new → u.floor.tracker i = new ∧ lost u := fun new u hnew h =>
    ⟨h.tracker, h.working, fun hw => (h.idle hw).trans (by rw [hnew]; rfl), h.lastFrame⟩
  have hstops : ∀ (f : Floor) (g : Floor), g = f.lostTo i stopped → f.stage i = s.floor.stage i →
      g.tracker i = stopped ∧ lost (s.modFloor fun _ => g) ∧ aborts f (s.modFloor fun _ => g) := fun f g hg hf => by
    have hlock := f.lostTo_losesLock i stopped
    rw [← hg, hf] at hlock
    obtain ⟨htracker, hloses⟩ := hlost stopped (s.modFloor fun _ => g) rfl hlock
    refine ⟨htracker, hloses, fun hw => ?_⟩
    have hrunner : f.runner i = r := congrArg Stage.runner hf
    have hrate : (f.tracker i).rate = t.rate := congrArg (fun st => st.tracker.rate) hf
    rw [State.modFloor_floor, hg]
    exact f.lostTo_losesRuns i stopped hrate.symm (hrunner ▸ hw)
  have hhanded : ∀ (g : Floor) (new : Nat), (g.tracker i).direction = t.direction →
      g.markBoundary i new = handedOn g new := fun g new hg => by rw [Floor.markBoundary_eq, hg]
  refine ⟨fun hlocked => ?_, fun hfreewheel => ?_, fun pin w hfreewheel hpin => ?_⟩
  · intro f free new
    have hdue := (t.lockedDeadline_eq_some_iff _).2 ⟨hlocked, b, hb, rfl⟩
    have hfree : t.freewheeling = free := by
      rw [Tracker.freewheeling, hb]
      rfl
    refine ⟨s.modFloor fun f => f.lockedExpires i, rfl, rfl, (Floor.lockedExpires_event hdue).now, fun hlimit => ?_,
      fun hlimit => ?_⟩
    · exact hstops f _ (Floor.lockedExpires_stops hdue hlimit) rfl
    · have hexpires : s.floor.lockedExpires i = (f.freewheelTo i free).markBoundary i new := by
        rw [Floor.lockedExpires_freewheels hdue hlimit, ← hfree]
        rfl
      have htracker := f.freewheelTo_tracker i free
      rw [State.modFloor_floor, hexpires]
      exact ⟨by rw [Floor.markBoundary_tracker, htracker], hhanded _ new (by rw [htracker])⟩
  · intro f on
    have hdue := (t.syntheticDue_eq_some_iff _).2 ⟨hfreewheel, b, hb, rfl⟩
    refine ⟨s.modFloor fun f => f.syntheticFallsDue i, rfl, rfl, (Floor.syntheticFallsDue_event hdue).now,
      fun hlimit => ?_, fun hlimit => ?_⟩
    · have hmarks : s.floor.syntheticFallsDue i = (f.modTracker i fun _ => on).markBoundary i frame :=
        Floor.syntheticFallsDue_marks hdue hlimit
      rw [State.modFloor_floor, hmarks]
      exact ⟨Floor.marked_tracker on frame, hhanded _ _ (by rw [Floor.modTracker_tracker])⟩
    · exact hstops f _ (Floor.syntheticFallsDue_stops hdue hlimit) rfl
  · intro f word expected v back hlabel hdrop
    have hvalid : classify t.rate w = .valid := (classify_eq_valid_iff t.rate w).2 ⟨hlabel, hdrop⟩
    have hstate : t.state ≠ .idle := ne_of_eq_of_ne hfreewheel nofun
    have hword : ∀ g : Floor, g.tracker i = t → g.trackerWord i w = g.wordFreewheel i w := fun g hg =>
      Floor.trackerWord_freewheel (hg ▸ hfreewheel) (hg ▸ hvalid)
    have hsole : s.floor.SoleListener pin i → s.floor.wordArrives pin w = f.wordFreewheel i w := fun h =>
      (Floor.wordArrives_of_sole _ _ _ _ h).trans (hword f rfl)
    have hback : t.anchored w.arrival = back := by
      simp only [back, Bool.decide_and]
      rfl
    have hexpected : expected → ∀ g : Floor, g.tracker i = t →
        g.wordFreewheel i w = (g.noted i back).markBoundary i frame := fun h g hg => by
      rw [Floor.wordFreewheel_expected (hg ▸ h.1) (hg ▸ h.2), hg, hback]
      rfl
    refine ⟨s.modFloor fun f => f.wordArrives pin w, rfl, rfl, s.floor.wordArrives_now pin w, fun h => ⟨?_, fun hl => ?_⟩,
      fun h => ?_⟩
    · refine s.floor.wordArrives_tracker pin w i hpin hstate fun g hg => ?_
      rw [hword g hg, hexpected h g hg, Floor.markBoundary_tracker, Floor.noted_tracker]
    · rw [State.modFloor_floor, hsole hl, hexpected h f rfl]
      exact hhanded _ _ (by rw [Floor.noted_tracker])
    · have hlock := Floor.wordArrives_losesLock ⟨hpin, hstate⟩ fun g (hg : g.tracker i = t) =>
        (hword g hg).trans ((Floor.wordFreewheel_unexpected (hg ▸ h)).trans (by rw [hg]))
      obtain ⟨htracker, hloses⟩ := hlost (t.startAcquisition w) (s.modFloor fun f => f.wordArrives pin w) rfl hlock
      refine ⟨hloses, fun hl hw => ?_, htracker⟩
      rw [State.modFloor_floor, hsole hl, Floor.wordFreewheel_unexpected (f := f) h]
      exact f.lostTo_losesRuns i _ rfl hw

end Sys2Proof.Machine
end

section
/-! The table of path states and the claims under the interlock (R113, R120, R131, R132, R135 to R138). -/

namespace Sys2Proof.Machine

/-! ## The table of a path -/

/-- The table of R132, for a path alone. -/
structure Path.Tabled (p : Path) : Prop where
  free : p.state = .free → p.gapExpiry = none ∧ p.talkWanted = false
  talk : p.state = .talk → p.gapExpiry = none ∧ p.talkWanted = true
  record : p.state = .record → p.gapExpiry = none
  gap : p.state = .gap → p.gapExpiry.isSome = true
  demand : p.demand = true ↔ (p.state = .protected_ ∨ p.state = .record)

/-- No run of a stage has made a claim outside RECORD mode (R113, R120). -/
def Runner.Windows (r : Runner) : Prop := ∀ x ∈ r.runs, x.punch ≠ .unpunched → r.recordMode = .record

theorem Stage.pathTable_iff (st : Stage) : st.PathTable ↔ st.path.Tabled ∧ st.runner.Windows :=
  ⟨fun ⟨hfree, htalk, hrecord, hgap, hdemand, hwindows⟩ => ⟨⟨hfree, htalk, hrecord, hgap, hdemand⟩, hwindows⟩,
    fun ⟨⟨hfree, htalk, hrecord, hgap, hdemand⟩, hwindows⟩ => ⟨hfree, htalk, hrecord, hgap, hdemand, hwindows⟩⟩

section Path

variable {p : Path}

/-- A path without a gate asserted and without demand is at rest by the table (R132, R137). -/
theorem Path.Tabled.rests {q : Path} (hstate : q.state = q.rest) (hdemand : q.demand = false) : q.Tabled := by
  unfold Path.rest at hstate
  cases hg : q.gapExpiry with
  | some e =>
    have hgap : q.state = .gap := by rw [hstate, hg]; rfl
    exact ⟨by simp [hgap], by simp [hgap], by simp [hgap], fun _ => by rw [hg]; rfl, by simp [hgap, hdemand]⟩
  | none =>
    cases ht : q.talkWanted with
    | true =>
      have htalk : q.state = .talk := by rw [hstate, hg, ht]; rfl
      exact ⟨by simp [htalk], fun _ => ⟨hg, ht⟩, by simp [htalk], by simp [htalk], by simp [htalk, hdemand]⟩
    | false =>
      have hfree : q.state = .free := by rw [hstate, hg, ht]; rfl
      exact ⟨fun _ => ⟨hg, ht⟩, by simp [hfree], by simp [hfree], by simp [hfree], by simp [hfree, hdemand]⟩

theorem Path.Tabled.protects {q : Path} (hstate : q.state = .protected_) (hdemand : q.demand = true) : q.Tabled :=
  ⟨by simp [hstate], by simp [hstate], by simp [hstate], by simp [hstate], by simp [hstate, hdemand]⟩

theorem Path.Tabled.records {q : Path} (hstate : q.state = .record) (hdemand : q.demand = true)
    (hgap : q.gapExpiry = none) : q.Tabled :=
  ⟨by simp [hstate], by simp [hstate], fun _ => hgap, by simp [hstate], by simp [hstate, hdemand]⟩

/-- A path settled without a claim goes on by the table (R135, R137). -/
theorem Path.Tabled.settled (h : p.Tabled) (now gap : Nat) (demands : Bool) :
    (p.settled now gap false demands).Tabled := by
  have hup : ∀ q : Path, q.state = .protected_ → q.demand = true → q.Tabled := fun _ => .protects
  unfold Path.settled
  cases hs : p.state with
  | free =>
    cases demands with
    | true => exact hup _ rfl rfl
    | false => exact h
  | gap =>
    cases demands with
    | true => exact hup _ rfl rfl
    | false => exact h
  | talk =>
    cases demands with
    | true => exact hup _ rfl rfl
    | false => exact h
  | protected_ =>
    cases demands with
    | true => exact h
    | false => exact .rests rfl rfl
  | record =>
    have hnone := h.record hs
    by_cases hg : gap = 0
    · cases demands with
      | true => simpa [hg] using hup _ rfl rfl
      | false => simpa [hg] using .rests (by simp [Path.rest, hnone]) rfl
    · cases demands with
      | true => simpa [hg] using hup _ rfl rfl
      | false => simpa [hg] using .rests (by simp [Path.rest]) rfl

theorem Path.grantsClaim_gapExpiry {gap : Nat} (h : p.grantsClaim gap = true) : p.gapExpiry = none := by
  unfold Path.grantsClaim at h
  cases hs : p.state <;> simp_all

/-- A path that lets a claim wait has a gap running, or starts one (R136). -/
theorem Path.grantsClaim_gap {gap now : Nat} (hr : p.state ≠ .record) (h : p.grantsClaim gap ≠ true) :
    (if p.state = .talk then some (now + gap) else p.gapExpiry).isSome = true := by
  split
  · rfl
  · next ht =>
    rw [Option.isSome_iff_ne_none]
    rintro hnone
    refine h ?_
    unfold Path.grantsClaim
    cases hs : p.state with
    | record => exact absurd hs hr
    | talk => exact absurd hs ht
    | free => rw [hnone]; rfl
    | protected_ => rw [hnone]; rfl
    | gap => rw [hnone]; rfl

end Path

/-! ## A settled path -/

section Settle

variable {f g : Floor} {i : Fin 4}

/-- An interlock operation makes no claim (R120, R136). -/
theorem Floor.PathOnly.claims (a : Floor.PathOnly i f g) {y : Run} (hy : y ∈ (g.runner i).runs)
    (hpunch : y.punch ≠ .unpunched) : ∃ x ∈ (f.runner i).runs, x.punch ≠ .unpunched := by
  obtain ⟨p, c, hc, rfl⟩ := a
  rw [Floor.runner, Floor.modStage_stage] at hy
  obtain ⟨x, hx, rfl⟩ := List.mem_map.1 hy
  refine ⟨x, hx, ?_⟩
  obtain hsame | ⟨hwaiting, -⟩ := hc x
  · rwa [← hsame]
  · rw [hwaiting]; nofun

theorem Floor.PathOnly.recordMode (a : Floor.PathOnly i f g) :
    (g.runner i).recordMode = (f.runner i).recordMode := by
  obtain ⟨p, c, -, rfl⟩ := a
  rw [Floor.runner, Floor.runner, Floor.modStage_stage]

theorem Floor.PathOnly.windows (a : Floor.PathOnly i f g) (h : (f.runner i).Windows) : (g.runner i).Windows :=
  fun _ hy hpunch => by
    obtain ⟨x, hx, hx'⟩ := a.claims hy hpunch
    exact a.recordMode.trans (h x hx hx')

/-- A run list claims nothing where it requests nothing. -/
theorem Floor.claimsStand_of_not_request (h : f.recordRequest i = false) : (f.stage i).ClaimsStand := by
  rintro ⟨x, hx, hpunch⟩
  exact absurd (bne_iff_ne.2 hpunch) (List.any_eq_false.1 h x hx)

/-- A settled path stands by the table, and so do the claims on it (R120, R132, R135 to R137). -/
theorem Floor.settlePath_sound (t : (f.stage i).PathTable) :
    ((f.settlePath i).stage i).PathTable ∧ ((f.settlePath i).stage i).ClaimsStand := by
  obtain ⟨htable, hwindows⟩ := (Stage.pathTable_iff _).1 t
  have hwindows' := (f.settlePath_pathOnly i).windows hwindows
  rw [Stage.pathTable_iff]
  cases hr : f.recordRequest i with
  | false =>
    obtain ⟨hrunner, hpath⟩ := Floor.settlePath_settled t (Floor.claimsStand_of_not_request hr)
    rw [hr] at hpath
    refine ⟨⟨?_, hwindows'⟩, Floor.claimsStand_of_not_request ?_⟩
    · exact (congrArg Path.Tabled hpath).mpr (htable.settled ..)
    · rw [Floor.recordRequest, hrunner]
      exact hr
  | true =>
    have hpath : ((f.settlePath i).stage i).path = _ := Floor.settlePath_claimed t hr
    unfold Stage.ClaimsStand
    rw [hpath]
    refine ⟨⟨?_, hwindows'⟩, fun _ => ?_⟩
    · split
      · next h => exact .records rfl rfl (h.elim t.record Path.grantsClaim_gapExpiry)
      · exact .protects rfl rfl
    · split
      · exact .inl rfl
      · next h => exact .inr ⟨rfl, Path.grantsClaim_gap (fun hs => h (.inl hs)) fun hg => h (.inr hg)⟩

end Settle

/-! ## What keeps the table and the claims -/

/-- What an event may do to a stage: its path stands by the table after it if it did before, and with the table so do the
claims on it. -/
structure Stage.KeepsPath (st st' : Stage) : Prop where
  table : st.PathTable → st'.PathTable
  stand : st.PathTable → st.ClaimsStand → st'.ClaimsStand

section Keeps

variable {st st' st'' : Stage}

theorem Stage.KeepsPath.refl (st : Stage) : st.KeepsPath st := ⟨id, fun _ => id⟩

theorem Stage.KeepsPath.trans (a : st.KeepsPath st') (b : st'.KeepsPath st'') : st.KeepsPath st'' :=
  ⟨fun t => b.table (a.table t), fun t c => b.stand (a.table t) (a.stand t c)⟩

/-- A change that leaves the path and the record mode, and makes no claim. -/
theorem Stage.KeepsPath.of_claims (hpath : st'.path = st.path) (hmode : st'.runner.recordMode = st.runner.recordMode)
    (hclaims : ∀ y ∈ st'.runner.runs, y.punch ≠ .unpunched → ∃ x ∈ st.runner.runs, x.punch ≠ .unpunched) :
    st.KeepsPath st' where
  table t := by
    rw [Stage.pathTable_iff] at t ⊢
    rw [hpath]
    refine ⟨t.1, fun y hy hpunch => ?_⟩
    obtain ⟨x, hx, hx'⟩ := hclaims y hy hpunch
    exact hmode.trans (t.2 x hx hx')
  stand t c := by
    rintro ⟨y, hy, hpunch⟩
    rw [hpath]
    exact c (hclaims y hy hpunch)

/-- A change that leaves the path, the record mode and the run list. -/
theorem Stage.KeepsPath.of_runs (hpath : st'.path = st.path) (hmode : st'.runner.recordMode = st.runner.recordMode)
    (hruns : st'.runner.runs = st.runner.runs) : st.KeepsPath st' :=
  .of_claims hpath hmode fun y hy hpunch => ⟨y, hruns ▸ hy, hpunch⟩

end Keeps

end Sys2Proof.Machine
end

section
/-! The table of path states and the claims under the events of a stage: what each operation of the runner, the fault logic,
the tracker and the host makes of them (R82 to R93, R98 to R149). -/

namespace Sys2Proof.Machine

variable (f : Floor) (i : Fin 4)

/-! ## Changes that leave the path, the record mode and the runs -/

theorem Floor.settlePath_keepsPath : (f.stage i).KeepsPath ((f.settlePath i).stage i) :=
  ⟨fun t => (Floor.settlePath_sound t).1, fun t _ => (Floor.settlePath_sound t).2⟩

theorem Floor.modTracker_keepsPath (u : Tracker → Tracker) : (f.stage i).KeepsPath ((f.modTracker i u).stage i) := by
  rw [Floor.modTracker_stage]
  exact .of_runs rfl rfl rfl

theorem Floor.modOverlay_keepsPath (u : Overlay → Overlay) : (f.stage i).KeepsPath ((f.modOverlay i u).stage i) := by
  rw [Floor.modOverlay_stage]
  exact .of_runs rfl rfl rfl

theorem Floor.modFaults_keepsPath (u : FaultModes → FaultModes) : (f.stage i).KeepsPath ((f.modFaults i u).stage i) := by
  rw [Floor.modFaults_stage]
  exact .of_runs rfl rfl rfl

theorem Floor.modRunner_keepsPath (u : Runner → Runner)
    (hu : ∀ r, (u r).recordMode = r.recordMode ∧ (u r).runs = r.runs := by exact fun _ => ⟨rfl, rfl⟩) :
    (f.stage i).KeepsPath ((f.modRunner i u).stage i) := by
  rw [Floor.modRunner_stage]
  exact .of_runs rfl (hu _).1 (hu _).2

/-- Changes of a stage for some items one after another keep its path where each does. -/
theorem Floor.foldl_keepsPath {α : Type} {op : Floor → α → Floor} {i : Fin 4}
    (hop : ∀ (g : Floor) x, (g.stage i).KeepsPath ((op g x).stage i)) (l : List α) (f : Floor) :
    (f.stage i).KeepsPath ((l.foldl op f).stage i) := by
  induction l generalizing f with
  | nil => exact .refl _
  | cons x l ih => exact (hop f x).trans (ih (op f x))

/-! ## The end of a run, and a runner that leaves its work -/

theorem Floor.abortRun_keepsPath (r : Run) (e : Nat) : (f.stage i).KeepsPath ((f.abortRun i r e).stage i) := by
  rw [Floor.abortRun_stage]
  exact .of_claims rfl rfl fun y hy hpunch => ⟨y, List.mem_of_mem_filter hy, hpunch⟩

theorem Floor.abortRuns_keepsPath (which : Run → Bool) (e : Nat) :
    (f.stage i).KeepsPath ((f.abortRuns i which e).stage i) :=
  (Floor.foldl_keepsPath (fun g r => g.abortRun_keepsPath i r e) _ f).trans (Floor.settlePath_keepsPath _ i)

theorem Floor.leaveWork_keepsPath (n : RunnerState) (e : Nat) : (f.stage i).KeepsPath ((f.leaveWork i n e).stage i) :=
  (f.abortRuns_keepsPath i _ e).trans (Floor.modRunner_keepsPath _ i _)

theorem Floor.stopChase_keepsPath : (f.stage i).KeepsPath ((f.stopChase i).stage i) := by
  unfold Floor.stopChase
  split
  · exact f.leaveWork_keepsPath i _ _
  · exact .refl _

theorem Floor.enterHalted_keepsPath (e : Nat) : (f.stage i).KeepsPath ((f.enterHalted i e).stage i) := by
  unfold Floor.enterHalted
  dsimp only
  refine .trans ?_ (Floor.modRunner_keepsPath _ i _)
  split
  · exact f.leaveWork_keepsPath i _ e
  · exact .refl _

theorem Floor.enterHold_keepsPath (h e : Nat) : (f.stage i).KeepsPath ((f.enterHold i h e).stage i) := by
  unfold Floor.enterHold
  split
  · exact .refl _
  · exact f.modRunner_keepsPath i _
  · exact .refl _
  · exact f.modRunner_keepsPath i _
  · exact (f.leaveWork_keepsPath i _ e).trans (Floor.modRunner_keepsPath _ i _)

/-- The fault logic takes an occurrence by its mode (R146). -/
theorem Floor.occurrence_keepsPath (c : Condition) : (f.stage i).KeepsPath ((f.occurrence i c).stage i) := by
  by_cases h : (f.runner i).state = .offline
  · rw [f.occurrence_offline i c h]
    exact .refl _
  · have hnoticed : (f.noticed i c).stage i = f.stage i := by rw [Floor.stage, Floor.noticed_stages]; rfl
    cases hm : (f.faults i).mode c with
    | halt =>
      rw [Floor.occurrence_halt c h hm, ← hnoticed]
      exact Floor.enterHalted_keepsPath _ i _
    | resumeSlow =>
      rw [Floor.occurrence_resume c h (.inl ⟨hm, rfl⟩), ← hnoticed]
      exact Floor.enterHold_keepsPath _ i _ _
    | resumeFast =>
      rw [Floor.occurrence_resume c h (.inr ⟨hm, rfl⟩), ← hnoticed]
      exact Floor.enterHold_keepsPath _ i _ _
    | report =>
      rw [Floor.occurrence_report c h hm, hnoticed]
      exact .refl _
    | ignore =>
      rw [Floor.stage, Floor.stage, (Floor.occurrence_ignored h hm).1]
      exact .refl _

/-- A change of tracker state at the runner (R108). -/
theorem Floor.trackerChanged_keepsPath : (f.stage i).KeepsPath ((f.trackerChanged i).stage i) := by
  have hlast : (f.stage i).KeepsPath
      ((f.modRunner i fun r => { r with lastPosition := (f.tracker i).position }).stage i) := f.modRunner_keepsPath i _
  unfold Floor.trackerChanged
  dsimp only
  refine hlast.trans ?_
  split
  · exact .refl _
  · split
    · exact Floor.occurrence_keepsPath _ i _
    · exact .refl _
  · exact (Floor.modOverlay_keepsPath _ i _).trans (Floor.stopChase_keepsPath _ i)

theorem Floor.changed_keepsPath (u : Tracker → Tracker) :
    (f.stage i).KeepsPath (((f.modTracker i u).trackerChanged i).stage i) :=
  (f.modTracker_keepsPath i u).trans (Floor.trackerChanged_keepsPath _ i)

/-! ## Points and moves -/

/-- A run that goes on claims at the point in RECORD mode alone (R120). -/
theorem Floor.pointed_windows (t : Nat) (x : Run) (h : x.punch ≠ .unpunched → (f.runner i).recordMode = .record)
    (hpunch : (f.pointed i t x).punch ≠ .unpunched) : (f.runner i).recordMode = .record := by
  cases hc : f.cue x.handle with
  | none =>
    rw [Floor.pointed, hc] at hpunch
    exact h hpunch
  | some c =>
    obtain hclaims | hx := (Floor.pointed_punch hc).1 hpunch
    · exact (Floor.claims_iff.1 hclaims).2.1
    · exact h hx

theorem Floor.runAtPoint_table (t : Nat) (r : Run) (h : (f.stage i).PathTable) :
    ((f.runAtPoint i t r).stage i).PathTable := by
  rw [Stage.pathTable_iff] at h ⊢
  rw [Floor.runAtPoint_stage]
  refine ⟨h.1, fun y hy hpunch => ?_⟩
  obtain ⟨x, hx, rfl⟩ := List.mem_map.1 hy
  have hwindow := h.2 x (List.mem_of_mem_filter hx)
  split at hpunch
  · exact f.pointed_windows i t x hwindow hpunch
  · exact hwindow hpunch

/-- Between the claims of a point and the settling of the path the table stands, and after it the claims do (R119, R124). -/
theorem Floor.runsAtPoint_keepsPath (t : Nat) : (f.stage i).KeepsPath ((f.runsAtPoint i t).stage i) := by
  have hfold : ∀ (l : List Run) (g : Floor), (g.stage i).PathTable →
      ((l.foldl (fun f r => f.runAtPoint i t r) g).stage i).PathTable := fun l => by
    induction l with
    | nil => exact fun _ h => h
    | cons r l ih => exact fun g h => ih _ (g.runAtPoint_table i t r h)
  have hsound := fun h => Floor.settlePath_sound (hfold (f.runner i).runs f h)
  exact ⟨fun h => (hsound h).1, fun h _ => (hsound h).2⟩

theorem Floor.packetPoint_keepsPath (t : Nat) : (f.stage i).KeepsPath ((f.packetPoint i t).stage i) := by
  unfold Floor.packetPoint
  dsimp only
  split
  · exact f.modOverlay_keepsPath i _
  · exact .refl _

theorem Floor.place_keepsPath (p : Nat) : (f.stage i).KeepsPath ((f.place i p).stage i) :=
  (f.modTracker_keepsPath i _).trans (Floor.modRunner_keepsPath _ i _)

theorem Floor.reach_keepsPath (t : Nat) : (f.stage i).KeepsPath ((f.reach i t).stage i) := by
  obtain ⟨F, a, -, -, h⟩ := f.reach_cases i t
  have hrunner : (F.stage i).runner = { (f.stage i).runner with lastPosition := t } := a.runner
  have hplaced : (f.stage i).KeepsPath (F.stage i) :=
    .of_runs a.path (by rw [hrunner]) (by rw [hrunner])
  refine hplaced.trans ?_
  obtain h | ⟨-, h⟩ := h <;> rw [h]
  · exact (F.runsAtPoint_keepsPath i t).trans (Floor.packetPoint_keepsPath _ i t)
  · exact (F.packetPoint_keepsPath i t).trans (Floor.runsAtPoint_keepsPath _ i t)

theorem Floor.reachThrough_keepsPath (old n : Nat) : (f.stage i).KeepsPath ((f.reachThrough i old n).stage i) := by
  induction n with
  | zero => exact .refl _
  | succ n ih => exact ih.trans (Floor.reach_keepsPath _ i _)

theorem Floor.forwardMove_keepsPath (new : Nat) : (f.stage i).KeepsPath ((f.forwardMove i new).stage i) := by
  unfold Floor.forwardMove
  dsimp only
  split
  · exact (f.reachThrough_keepsPath i _ _).trans ((Floor.abortRuns_keepsPath _ i _ _).trans
      ((Floor.reach_keepsPath _ i _).trans (Floor.place_keepsPath _ i _)))
  · exact (f.reachThrough_keepsPath i _ _).trans (Floor.place_keepsPath _ i _)

/-! ## A boundary -/

/-- A cue that takes a run context at a position value (R116). -/
def Cue.freshRun (p handle : Nat) (c : Cue) : Run :=
  { handle := handle, phase := c.fields.phaseAt p, punch := .unpunched, punchedAt := none, claim := none,
    lateGrant := none }

theorem Floor.armCue_stage (p h : Nat) (c : Cue) : (f.armCue i p h c).stage i = { f.stage i with
    runner := { f.runner i with runs := (f.runner i).runs ++ [c.freshRun p h] }
    overlay := { f.overlay i with flashMarks := (f.overlay i).flashMarks.filter fun x => x != h } } := by
  have hcue : ∀ (g : Floor) (u : Cue → Cue), (g.modCue h u).stage i = g.stage i := fun _ _ => rfl
  simp only [Floor.armCue, Floor.dropMark, Floor.modOverlay_stage, hcue, Floor.modRunner_stage]
  rfl

/-- A cue armed makes no claim (R116). -/
theorem Floor.armCue_keepsPath (p h : Nat) (c : Cue) : (f.stage i).KeepsPath ((f.armCue i p h c).stage i) := by
  rw [Floor.armCue_stage]
  refine .of_claims rfl rfl fun y hy hpunch => ?_
  obtain hy | hy := List.mem_append.1 hy
  · exact ⟨y, hy, hpunch⟩
  · rw [List.mem_singleton.1 hy] at hpunch
    exact absurd rfl hpunch

theorem armOne_keepsPath (p : Nat) (acc : Floor × Bool) (h : Nat) :
    (acc.1.stage i).KeepsPath ((armOne i p acc h).1.stage i) := by
  unfold armOne
  split
  · exact .refl _
  · split
    · split
      · exact acc.1.armCue_keepsPath i p h _
      · exact .refl _
    · exact .refl _

theorem Floor.arm_keepsPath : (f.stage i).KeepsPath ((f.arm i).1.stage i) := by
  unfold Floor.arm
  split
  · exact .refl _
  · next reel _ =>
    have hfold : ∀ (l : List Nat) (acc : Floor × Bool),
        (acc.1.stage i).KeepsPath ((l.foldl (armOne i (f.tracker i).position) acc).1.stage i) := fun l => by
      induction l with
      | nil => exact fun _ => .refl _
      | cons h l ih => exact fun acc => (armOne_keepsPath i _ acc h).trans (ih _)
    have hsettle := (hfold reel.order (f, false)).trans (Floor.settlePath_keepsPath _ i)
    dsimp only
    split <;> exact hsettle

theorem Floor.selectAuto_keepsPath : (f.stage i).KeepsPath ((f.selectAuto i).stage i) := by
  unfold Floor.selectAuto
  split
  · exact (f.modRunner_keepsPath i _).trans (Floor.stopChase_keepsPath _ i)
  · exact .refl _

theorem Floor.chaseTest_keepsPath (b : Bool) : (f.stage i).KeepsPath ((f.chaseTest i b).stage i) := by
  unfold Floor.chaseTest
  split
  · split
    · exact f.modRunner_keepsPath i _
    · exact .refl _
  · split
    · exact f.stopChase_keepsPath i
    · exact .refl _

theorem Floor.countBlanking_keepsPath : (f.stage i).KeepsPath ((f.countBlanking i).stage i) := by
  unfold Floor.countBlanking
  split
  · exact f.modRunner_keepsPath i _
  · exact .refl _

theorem Floor.countHold_keepsPath : (f.stage i).KeepsPath ((f.countHold i).stage i) := by
  unfold Floor.countHold
  split
  · exact f.modRunner_keepsPath i _
  · exact .refl _

theorem Floor.boundaryOccurrences_keepsPath : (f.stage i).KeepsPath ((f.boundaryOccurrences i).stage i) := by
  unfold Floor.boundaryOccurrences
  split
  · have hrate : (f.stage i).KeepsPath ((if f.ratesDisagree i then f.occurrence i .rateMismatch else f).stage i) := by
      split
      · exact f.occurrence_keepsPath i _
      · exact .refl _
    refine hrate.trans ?_
    dsimp only
    generalize (if f.ratesDisagree i then f.occurrence i .rateMismatch else f) = g
    split
    · exact .refl _
    · exact g.occurrence_keepsPath i _
  · exact .refl _

/-- A boundary, step by step (R107). -/
theorem Floor.boundary_keepsPath : (f.stage i).KeepsPath ((f.boundary i).stage i) := by
  have htest : (f.stage i).KeepsPath
      (((((f.takeCast i).selectAuto i).chaseTest i ((f.runner i).state == .standby)).countBlanking i).stage i) :=
    (f.modRunner_keepsPath i _).trans ((Floor.selectAuto_keepsPath _ i).trans
      ((Floor.chaseTest_keepsPath _ i _).trans (Floor.countBlanking_keepsPath _ i)))
  have hpresent : ∀ (g : Floor) (b : Bool), (g.presentBoundary i b).stage i = g.stage i := fun _ _ => rfl
  unfold Floor.boundary
  dsimp only
  refine .trans ?_ (Floor.boundaryOccurrences_keepsPath _ i)
  rw [hpresent]
  refine .trans ?_ (Floor.countHold_keepsPath _ i)
  refine htest.trans ?_
  split
  · exact Floor.arm_keepsPath _ i
  · exact .refl _

/-! ## A jump -/

/-- A run that a jump keeps holds no claim (R127). -/
theorem Floor.runAtJump_keepsPath (p : Nat) (r : Run) : (f.stage i).KeepsPath ((f.runAtJump i p r).stage i) := by
  unfold Floor.runAtJump
  dsimp only
  split_ifs
  · rw [Floor.dropMark, Floor.modOverlay_stage, Floor.modRunner_stage]
    refine .of_claims rfl rfl fun y hy hpunch => ?_
    obtain ⟨x, hx, rfl⟩ := List.mem_map.1 hy
    split at hpunch
    · exact absurd rfl hpunch
    · exact ⟨x, hx, hpunch⟩
  · exact f.abortRun_keepsPath i r _

theorem Floor.jump_keepsPath (p : Nat) : (f.stage i).KeepsPath ((f.jump i p).stage i) := by
  have hforget : (f.stage i).KeepsPath (((f.countOccurrence i .jumps).forgetFrame i).stage i) :=
    (f.countOccurrence i .jumps).modOverlay_keepsPath i _
  have hlast : ∀ g : Floor, (g.stage i).KeepsPath ((g.modRunner i fun r => { r with lastPosition := p }).stage i) :=
    fun g => g.modRunner_keepsPath i _
  unfold Floor.jump
  dsimp only
  refine hforget.trans ?_
  generalize (f.countOccurrence i .jumps).forgetFrame i = g
  split
  · have hruns := (Floor.foldl_keepsPath (fun g r => g.runAtJump_keepsPath i p r) (g.runner i).runs g).trans
      ((hlast _).trans (Floor.settlePath_keepsPath _ i))
    generalize (((g.runner i).runs.foldl (fun f r => f.runAtJump i p r) g).modRunner i
      fun r => { r with lastPosition := p }).settlePath i = h at hruns ⊢
    have hblank : (g.stage i).KeepsPath ((h.blank i).stage i) := hruns.trans (h.modRunner_keepsPath i _)
    split
    · exact hblank.trans (Floor.occurrence_keepsPath _ i _)
    · exact hblank
  · exact hlast g

/-! ## A word at one tracker -/

theorem Floor.markBoundary_keepsPath (new : Nat) : (f.stage i).KeepsPath ((f.markBoundary i new).stage i) := by
  rw [Floor.markBoundary_eq]
  refine .trans ?_ (Floor.boundary_keepsPath _ i)
  split
  · exact f.forwardMove_keepsPath i new
  · exact f.place_keepsPath i new

theorem Floor.wordBoundary_keepsPath (a : Nat) : (f.stage i).KeepsPath ((f.wordBoundary i a).stage i) :=
  (f.modTracker_keepsPath i _).trans (Floor.markBoundary_keepsPath _ i _)

theorem Floor.holdCandidate_keepsPath (w : TimecodeWord) (n : Nat) :
    (f.stage i).KeepsPath ((f.holdCandidate i w n).stage i) := by
  unfold Floor.holdCandidate
  split
  · exact (f.modTracker_keepsPath i _).trans ((Floor.jump_keepsPath _ i _).trans (Floor.boundary_keepsPath _ i))
  · exact (f.modTracker_keepsPath i _).trans (Floor.wordBoundary_keepsPath _ i _)

theorem Floor.wordAcquiring_keepsPath (w : TimecodeWord) : (f.stage i).KeepsPath ((f.wordAcquiring i w).stage i) := by
  have hlock : ∀ g : Floor, (g.stage i).KeepsPath ((g.lock i w).stage i) := fun g =>
    (g.changed_keepsPath i _).trans ((Floor.place_keepsPath _ i _).trans (Floor.boundary_keepsPath _ i))
  unfold Floor.wordAcquiring
  dsimp only
  split
  · exact f.modTracker_keepsPath i _
  · split
    · split
      · exact (f.modTracker_keepsPath i _).trans (hlock _)
      · exact f.modTracker_keepsPath i _
    · exact f.modTracker_keepsPath i _

theorem Floor.wordLocked_keepsPath (w : TimecodeWord) : (f.stage i).KeepsPath ((f.wordLocked i w).stage i) := by
  unfold Floor.wordLocked
  dsimp only
  split
  · exact f.changed_keepsPath i _
  · split
    · have hcount : (if (f.tracker i).candidate.isSome then f.countOccurrence i .glitches else f).stage i = f.stage i := by
        split <;> rfl
      rw [← hcount]
      exact (Floor.modTracker_keepsPath _ i _).trans (Floor.wordBoundary_keepsPath _ i _)
    · split
      · split <;> exact f.holdCandidate_keepsPath i w _
      · exact f.holdCandidate_keepsPath i w _

theorem Floor.wordFreewheel_keepsPath (w : TimecodeWord) : (f.stage i).KeepsPath ((f.wordFreewheel i w).stage i) := by
  unfold Floor.wordFreewheel
  dsimp only
  split
  · exact (f.changed_keepsPath i _).trans (Floor.markBoundary_keepsPath _ i _)
  · exact f.changed_keepsPath i _

/-- A word at one tracker, by its class and the state it meets (R79 to R93). -/
theorem Floor.trackerWord_keepsPath (w : TimecodeWord) : (f.stage i).KeepsPath ((f.trackerWord i w).stage i) := by
  unfold Floor.trackerWord
  dsimp only
  split
  · exact .refl _
  · split
    · exact .refl _
    · exact f.occurrence_keepsPath i _
    · split
      · exact .refl _
      · exact f.changed_keepsPath i _
      · exact f.wordAcquiring_keepsPath i w
      · exact f.wordLocked_keepsPath i w
      · exact f.wordFreewheel_keepsPath i w

/-! ## The events of the reference clock -/

theorem Floor.acquisitionExpires_keepsPath : (f.stage i).KeepsPath ((f.acquisitionExpires i).stage i) := by
  unfold Floor.acquisitionExpires
  split
  · exact .refl _
  · next d _ => exact (f.atCount d).changed_keepsPath i _

theorem Floor.lockedExpires_keepsPath : (f.stage i).KeepsPath ((f.lockedExpires i).stage i) := by
  unfold Floor.lockedExpires
  split
  · exact .refl _
  · next d _ =>
    dsimp only
    split
    · exact (f.atCount d).changed_keepsPath i _
    · exact ((f.atCount d).changed_keepsPath i _).trans (Floor.markBoundary_keepsPath _ i _)

theorem Floor.syntheticFallsDue_keepsPath : (f.stage i).KeepsPath ((f.syntheticFallsDue i).stage i) := by
  unfold Floor.syntheticFallsDue
  split
  · exact .refl _
  · next d _ =>
    dsimp only
    split
    · exact ((f.atCount d).modTracker_keepsPath i _).trans (Floor.markBoundary_keepsPath _ i _)
    · exact (f.atCount d).changed_keepsPath i _

theorem Floor.subframeIncreases_keepsPath : (f.stage i).KeepsPath ((f.subframeIncreases i).stage i) := by
  unfold Floor.subframeIncreases
  split
  · exact .refl _
  · next d _ => exact (f.atCount d).forwardMove_keepsPath i _

theorem Floor.packetEnds_keepsPath : (f.stage i).KeepsPath ((f.packetEnds i).stage i) := by
  unfold Floor.packetEnds
  split
  · exact .refl _
  · next p _ => exact (f.atCount p.endCount).modOverlay_keepsPath i _

end Sys2Proof.Machine
end

section
/-! The table of path states and the claims under the requests, the gaps and every step (R104 to R106, R109, R113, R114, R133,
R136, R138, R139, R141, R143). -/

namespace Sys2Proof.Machine

/-! ## Talkback, gaps, record modes -/

section Requests

variable (f : Floor) (i : Fin 4)

/-- Talkback that is wanted in FREE is asserted, and a claim finds the path as it was (R139). -/
theorem Floor.talkbackOn_keepsPath : (f.stage i).KeepsPath ((f.talkbackOn i).stage i) := by
  rw [Floor.talkbackOn, Floor.modPath_stage]
  by_cases hs : (f.stage i).path.state = .free
  · simp only [hs, ↓reduceIte]
    refine ⟨fun t => ⟨nofun, fun _ => ⟨(t.free hs).1, rfl⟩, nofun, nofun, ?_, t.windows⟩, fun _ c hx => ?_⟩
    · exact t.demand.trans (by simp [hs])
    · exact absurd (c hx) (by simp [hs])
  · simp only [hs, ↓reduceIte]
    exact ⟨fun t => ⟨fun h => absurd h hs, fun h => ⟨(t.talk h).1, rfl⟩, t.record, t.gap, t.demand, t.windows⟩,
      fun _ c => c⟩

/-- Talkback that is not wanted releases its gate in TALK, and is cancelled in any other state (R139). -/
theorem Floor.talkbackOff_keepsPath : (f.stage i).KeepsPath ((f.talkbackOff i).stage i) := by
  have hpath : (f.talkbackOff i).path i =
      if (f.path i).state = .talk then
        let p : Path := { f.path i with
          talkWanted := false
          gapExpiry := if f.gapCounts i = 0 then (f.path i).gapExpiry else some (f.now + f.gapCounts i) }
        { p with state := p.rest }
      else { f.path i with talkWanted := false } := by
    have hlength : ∀ u : Path → Path, (u (f.path i)).guardGap = (f.path i).guardGap →
        (f.modPath i u).gapLength i = f.gapCounts i := fun u hu => by
      simp only [Floor.gapLength, Floor.gapCounts, Floor.modPath_path, Floor.modPath_tracker, hu]
    have hwanted : (f.modPath i fun p => { p with talkWanted := false }).gapLength i = f.gapCounts i := hlength _ rfl
    unfold Floor.talkbackOff Floor.startGap
    dsimp only
    by_cases hs : (f.path i).state = .talk
    · by_cases hg : f.gapCounts i = 0 <;> simp [hs, hg, hwanted]
    · simp [hs]
  have a := f.talkbackOff_pathOnly i
  have hstage : ((f.talkbackOff i).stage i).path = _ := hpath
  refine ⟨fun t => ?_, fun t c hx => ?_⟩
  · obtain ⟨htable, hwin⟩ := (Stage.pathTable_iff _).1 t
    refine (Stage.pathTable_iff _).2 ⟨?_, a.windows hwin⟩
    rw [hstage]
    split
    · next hs =>
      refine .rests rfl (Bool.eq_false_iff.2 fun hd => ?_)
      obtain h | h := htable.demand.1 hd
      · rw [show (f.stage i).path.state = .talk from hs] at h; cases h
      · rw [show (f.stage i).path.state = .talk from hs] at h; cases h
    · next hs => exact ⟨fun h => ⟨(htable.free h).1, rfl⟩, fun h => absurd h hs, htable.record, htable.gap, htable.demand⟩
  · obtain ⟨y, hy, hpunch⟩ := hx
    have hstands := c (a.claims hy hpunch)
    rw [hstage]
    split
    · next hs => exact absurd hstands (by simp [show (f.stage i).path.state = .talk from hs])
    · exact hstands

/-- A gap that ends: pending talkback is asserted, or the claims that wait are granted late (R136, R138). -/
theorem Floor.endGap_keepsPath : (f.stage i).KeepsPath ((f.endGap i).stage i) := by
  obtain ⟨g, hg⟩ : ∃ g, g = f.modPath i fun p => { p with gapExpiry := none } := ⟨_, rfl⟩
  have hstage : g.stage i = { f.stage i with path := { f.path i with gapExpiry := none } } := by
    rw [hg, Floor.modPath_stage]
    rfl
  have hpath : g.path i = { f.path i with gapExpiry := none } := by rw [Floor.path, hstage]
  have hdemand : (f.stage i).PathTable → ((f.path i).demand = true ↔
      (f.path i).state = .protected_ ∨ (f.path i).state = .record) := Stage.PathTable.demand
  unfold Floor.endGap
  rw [← hg]
  dsimp only
  rw [hpath]
  cases hs : (f.path i).state with
  | gap =>
    dsimp only
    rw [Floor.modPath_stage]
    refine ⟨fun t => (Stage.pathTable_iff _).2 ⟨.rests rfl ?_, ?_⟩, fun _ c hx => ?_⟩
    · rw [hstage]
      exact Bool.eq_false_iff.2 fun hd => by simpa [hs] using (hdemand t).1 hd
    · rw [hstage]
      exact t.windows
    · rw [hstage] at hx
      exact absurd (c hx) (by simp [show (f.stage i).path.state = .gap from hs])
  | protected_ =>
    dsimp only
    cases hr : g.recordRequest i with
    | true =>
      have hgrant : ((g.grant i (some g.now)).setNotice (.ofStage i .latePunch)).stage i =
          (g.grant i (some g.now)).stage i := rfl
      have hrecord : ((g.grant i (some g.now)).stage i).path = { f.path i with state := .record, gapExpiry := none } := by
        rw [show ((g.grant i (some g.now)).stage i).path = _ from g.grant_path i _, hpath]
      rw [if_pos rfl, hgrant]
      refine ⟨fun t => (Stage.pathTable_iff _).2 ⟨?_, (g.grant_pathOnly i _).windows ?_⟩, fun _ _ _ => ?_⟩
      · rw [hrecord]
        exact .records rfl ((hdemand t).2 (.inl hs)) rfl
      · rw [Floor.runner, hstage]
        exact t.windows
      · rw [hrecord]
        exact .inl rfl
    | false =>
      rw [if_neg Bool.false_ne_true]
      refine ⟨fun t => (Stage.pathTable_iff _).2 ⟨?_, ?_⟩, fun _ _ => Floor.claimsStand_of_not_request hr⟩
      · rw [hstage]
        exact .protects hs ((hdemand t).2 (.inl hs))
      · rw [hstage]
        exact t.windows
  | _ =>
    dsimp only
    rw [hstage]
    refine ⟨fun t => ⟨fun h => ⟨rfl, (t.free h).2⟩, fun h => ⟨rfl, (t.talk h).2⟩, fun _ => rfl, fun h => ?_, t.demand,
      t.windows⟩, fun _ c hx => (c hx).imp_right fun h => ?_⟩
    · rw [show (f.path i).state = .gap from h] at hs; cases hs
    · rw [show (f.path i).state = .protected_ from h.1] at hs; cases hs

theorem Floor.gapExpires_keepsPath : (f.stage i).KeepsPath ((f.gapExpires i).stage i) := by
  unfold Floor.gapExpires
  split
  · exact .refl _
  · next e _ => exact (f.atCount e).endGap_keepsPath i

/-- No run claims after a change to REHEARSE, and the path takes the release (R113). -/
theorem Floor.toRehearse_keepsPath : (f.stage i).KeepsPath ((f.toRehearse i).stage i) := by
  have hreports : ∀ (l : List Run) (g : Floor) (p : Nat),
      (l.foldl (fun f r => f.reportRun i r p .aborted) g).stage i = g.stage i := fun l => by
    induction l with
    | nil => exact fun _ _ => rfl
    | cons r l ih =>
      intro g p
      refine (ih (g.reportRun i r p .aborted) p).trans ?_
      unfold Floor.reportRun
      split <;> rfl
  refine .trans ?_ (Floor.settlePath_keepsPath _ i)
  rw [Floor.modRunner_stage, hreports]
  have hnone : ∀ y ∈ (f.stage i).runner.runs.map fun x : Run =>
      { x with punch := .unpunched, punchedAt := none, claim := none, lateGrant := none }, y.punch = .unpunched :=
    fun y hy => by
      obtain ⟨x, -, rfl⟩ := List.mem_map.1 hy
      rfl
  refine ⟨fun t => ⟨t.free, t.talk, t.record, t.gap, t.demand, fun y hy hpunch => absurd (hnone y hy) hpunch⟩,
    fun _ _ hx => ?_⟩
  obtain ⟨y, hy, hpunch⟩ := hx
  exact absurd (hnone y hy) hpunch

theorem Floor.toRecord_keepsPath : (f.stage i).KeepsPath ((f.toRecord i).stage i) := by
  refine .trans ?_ (Floor.settlePath_keepsPath _ i)
  rw [Floor.modRunner_stage]
  exact ⟨fun t => ⟨t.free, t.talk, t.record, t.gap, t.demand, fun _ _ _ => rfl⟩, fun _ c => c⟩

theorem Floor.setRecordMode_keepsPath (m : RecordMode) : (f.stage i).KeepsPath ((f.setRecordMode i m).stage i) := by
  unfold Floor.setRecordMode
  split
  · exact .refl _
  · cases m with
    | rehearse => exact f.toRehearse_keepsPath i
    | record => exact f.toRecord_keepsPath i

/-- The guard gap of a path, and what the path makes of it (R141). -/
theorem Floor.pathSet_keepsPath (gap : Nat) :
    (f.stage i).KeepsPath (((f.modPath i fun p => { p with guardGap := gap }).settlePath i).stage i) := by
  refine .trans ?_ (Floor.settlePath_keepsPath _ i)
  rw [Floor.modPath_stage]
  exact ⟨fun t => ⟨t.free, t.talk, t.record, t.gap, t.demand, t.windows⟩, fun _ c => c⟩

/-- A stage that goes OFFLINE has no runs, and its path is FREE (R105, R143). -/
theorem Floor.quit_keepsPath (reset : Bool) : (f.stage i).KeepsPath ((f.quit i reset).stage i) := by
  rw [Floor.quit_stage]
  refine ⟨fun _ => ⟨fun _ => ⟨rfl, rfl⟩, nofun, nofun, nofun, by simp, nofun⟩, fun _ _ hx => ?_⟩
  obtain ⟨y, hy, -⟩ := hx
  exact absurd hy List.not_mem_nil

theorem Floor.setTracker_keepsPath (x : TrackerSettings) : (f.stage i).KeepsPath ((f.setTracker i x).stage i) := by
  unfold Floor.setTracker
  dsimp only
  split
  · exact f.changed_keepsPath i _
  · exact f.modTracker_keepsPath i _

theorem Floor.select_keepsPath (mode : SelectionMode) (manual selected : Option Nat) :
    (f.stage i).KeepsPath ((f.select i mode manual selected).stage i) := by
  unfold Floor.select
  dsimp only
  split
  · exact .refl _
  · have hselect : (f.stage i).KeepsPath
        ((f.modRunner i fun r => { r with mode := mode, manualReel := manual, selected := selected }).stage i) :=
      f.modRunner_keepsPath i _
    exact hselect.trans (Floor.stopChase_keepsPath _ i)

/-- An enable, whose runner goes to STANDBY (R104). -/
theorem Floor.enable_keepsPath : (f.stage i).KeepsPath ((f.enable i).stage i) := by
  have hstandby : ∀ g : Floor, (g.stage i).KeepsPath ((g.modRunner i fun r => { r with state := .standby }).stage i) :=
    fun g => g.modRunner_keepsPath i _
  exact (f.modTracker_keepsPath i _).trans ((hstandby _).trans (Floor.trackerChanged_keepsPath _ i))

end Requests

/-! ## Every stage -/

section Stages

variable {f g : Floor} {i : Fin 4}

/-- Every stage keeps its table and its claims. -/
def Floor.KeepsPaths (f g : Floor) : Prop := ∀ i, (f.stage i).KeepsPath (g.stage i)

theorem Floor.KeepsPaths.of_stages (h : g.stages = f.stages) : f.KeepsPaths g := fun i => by
  rw [Floor.stage, Floor.stage, h]
  exact .refl _

theorem Floor.KeepsPaths.trans {h : Floor} (a : f.KeepsPaths g) (b : g.KeepsPaths h) : f.KeepsPaths h :=
  fun i => (a i).trans (b i)

/-- An event of a stage that keeps its path. -/
theorem Floor.StageEvent.keepsPaths (e : Floor.StageEvent i f g) (h : (f.stage i).KeepsPath (g.stage i)) :
    f.KeepsPaths g := fun j => by
  by_cases hj : j = i
  · rw [hj]
    exact h
  · rw [e.stages j hj]
    exact .refl _

/-- An event of a stage at the count it falls due, or none. -/
theorem Floor.KeepsPaths.due (h : ∃ d, Floor.StageEvent i (f.atCount d) g ∨ g = f)
    (hkeeps : (f.stage i).KeepsPath (g.stage i)) : f.KeepsPaths g := by
  obtain ⟨d, hevent | rfl⟩ := h
  · exact (Floor.KeepsPaths.of_stages (f.atCount_stages d)).trans (hevent.keepsPaths hkeeps)
  · exact .of_stages rfl

/-- Events of several stages in an open order, each of its own. -/
theorem Floor.KeepsPaths.forEachOpen {op : Fin 4 → Floor → Floor} (hop : ∀ j g, Floor.StageEvent j g (op j g))
    (hkeeps : ∀ (j : Fin 4) (g : Floor), (g.stage j).KeepsPath ((op j g).stage j)) (l : List (Fin 4)) :
    f.KeepsPaths (f.forEachOpen l op) := by
  have hfold : ∀ (l : List (Fin 4)) (g : Floor), g.KeepsPaths (l.foldl (fun f j => op j f) g) := fun l => by
    induction l with
    | nil => exact fun _ => .of_stages rfl
    | cons j l ih => exact fun g => ((hop j g).keepsPaths (hkeeps j g)).trans (ih _)
  exact (Floor.KeepsPaths.of_stages (f.drawn_stages l)).trans (hfold _ _)

theorem Floor.reset_sound (i : Fin 4) : (Floor.reset.stage i).PathTable ∧ (Floor.reset.stage i).ClaimsStand := by
  have hstage : Floor.reset.stage i = Stage.reset := by simp [Floor.stage, Floor.reset]
  rw [hstage]
  refine ⟨⟨fun _ => ⟨rfl, rfl⟩, nofun, nofun, nofun, by simp [Stage.reset, Path.reset], nofun⟩, ?_⟩
  rintro ⟨y, hy, -⟩
  exact absurd hy List.not_mem_nil

/-- Each of the operations of the stages keeps the paths. -/
theorem Floor.StagesStep.keepsPaths (h : f.StagesStep g) : f.KeepsPaths g := by
  induction h with
  | stand h => exact .of_stages h
  | @cleared g h =>
    intro i
    rw [show g.stage i = Floor.reset.stage i by rw [Floor.stage, h]; rfl]
    exact ⟨fun _ => (Floor.reset_sound i).1, fun _ _ => (Floor.reset_sound i).2⟩
  | word pin w =>
    exact (Floor.KeepsPaths.of_stages (f.atCount_stages w.arrival)).trans
      (.forEachOpen (fun j g => g.trackerWord_stageEvent j w) (fun j g => g.trackerWord_keepsPath j w) _)
  | subframe i => exact .due (f.subframeIncreases_stageEvent i) (f.subframeIncreases_keepsPath i)
  | acquisition i => exact .due (f.acquisitionExpires_stageEvent i) (f.acquisitionExpires_keepsPath i)
  | locked i => exact .due (f.lockedExpires_stageEvent i) (f.lockedExpires_keepsPath i)
  | synthetic i => exact .due (f.syntheticFallsDue_stageEvent i) (f.syntheticFallsDue_keepsPath i)
  | gap i => exact .due (f.gapExpires_due i) (f.gapExpires_keepsPath i)
  | packet i => exact .due (f.packetEnds_due i) (f.packetEnds_keepsPath i)
  | trackerSet i x => exact (f.setTracker_stageEvent i x).keepsPaths (f.setTracker_keepsPath i x)
  | @enable i _ => exact (f.enable_stageEvent i).keepsPaths (f.enable_keepsPath i)
  | quit i reset => exact (f.quit_stageEvent i reset).keepsPaths (f.quit_keepsPath i reset)
  | select i mode manual selected =>
    exact (f.select_stageEvent i mode manual selected).keepsPaths (f.select_keepsPath i mode manual selected)
  | stageSet i skip length mode =>
    have hsettings : (f.stage i).KeepsPath
        ((f.modRunner i fun r => { r with skipPrinted := skip, blankingLength := length }).stage i) :=
      f.modRunner_keepsPath i _
    exact ((Floor.StageEvent.modRunner f i _).trans (Floor.setRecordMode_stageEvent _ i mode)).keepsPaths
      (hsettings.trans (Floor.setRecordMode_keepsPath _ i mode))
  | talkbackOn i => exact (f.talkbackOn_pathOnly i).stageEvent.keepsPaths (f.talkbackOn_keepsPath i)
  | talkbackOff i => exact (f.talkbackOff_pathOnly i).stageEvent.keepsPaths (f.talkbackOff_keepsPath i)
  | pathSet i gap =>
    have hpath := (Floor.PathOnly.modPath f i fun p => { p with guardGap := gap }).trans (Floor.settlePath_pathOnly _ i)
    exact hpath.stageEvent.keepsPaths (f.pathSet_keepsPath i gap)
  | @faultClear i _ => exact (Floor.StageEvent.modRunner f i _).keepsPaths (f.modRunner_keepsPath i _)
  | faultSet i modes => exact (Floor.StageEvent.modStage f i _).keepsPaths (f.modFaults_keepsPath i fun _ => modes)
  | overlaySet i phase => exact (Floor.StageEvent.modOverlay f i _).keepsPaths (f.modOverlay_keepsPath i _)
  | retire handle force =>
    cases force with
    | false => exact .of_stages rfl
    | true =>
      have hlock : f.KeepsPaths (f.lockRetiring handle) := .of_stages rfl
      exact hlock.trans (.forEachOpen (Floor.abortCueOn_stageEvent handle)
        (fun j g => g.abortRuns_keepsPath j _ _) _)
  | @close g slot h =>
    have hmark : f.KeepsPaths (f.markClosing slot) := .of_stages rfl
    exact (hmark.trans (.forEachOpen Floor.stopOn_stageEvent (fun j g => g.stopChase_keepsPath j) _)).trans (.of_stages h)
  | @closed g h slot _ b ih =>
    refine ih.trans fun i => ?_
    have hstage : h.stage i = (g.stage i).clearSelection slot := by simp [Floor.stage, b]
    rw [hstage, Stage.clearSelection_eq]
    exact .of_runs rfl rfl rfl

/-- Settles O8, by what every step does to the stages: the settled path stands by the table with the claims on it, and no
other operation makes a claim. -/
theorem pathTableKept : Obligations.PathTableKept :=
  ⟨fun _ _ h hstep i => ((step_stagesStep hstep).keepsPaths i).table (h i),
    fun _ _ h hstep i => ((step_stagesStep hstep).keepsPaths i).stand (h i).1 (h i).2⟩

end Stages

end Sys2Proof.Machine
end

section
/-! STAGE_ENABLE: an OFFLINE runner starts, with its tracker searching, and any other refuses (R104). -/

namespace Sys2Proof.Machine

/-! ## A stage enabled -/

section Enable

variable {f : Floor} {i : Fin 4}

/-- The new state of the tracker reaches the runner and the transmitter; a runner in STANDBY has no chase to stop
(R99, R104, R172). -/
theorem Floor.enable_eq : f.enable i = f.modStage i fun st => { st with
    tracker := st.tracker.enterSearching
    runner := { st.runner with state := .standby, lastPosition := st.tracker.position }
    overlay := { st.overlay with lastFrame := none } } := by
  obtain ⟨g, hg⟩ : ∃ g, g = f.modRunner i fun r => { r with state := .standby } := ⟨_, rfl⟩
  have hstate : (g.runner i).state = .standby := by rw [hg, Floor.modRunner_runner]
  have hcomm : f.enable i = (g.modTracker i Tracker.enterSearching).trackerChanged i := by
    rw [Floor.enable, hg]
    simp only [Floor.modTracker, Floor.modRunner, Floor.modStage_modStage]
  have hidle : ((g.changedTo i (g.tracker i).enterSearching).runner i).state.working ≠ true := by
    rw [Floor.changedTo_runner, hstate]
    nofun
  rw [hcomm, Floor.trackerChanged_lost g i (by nofun) (by nofun), Floor.stopChase, if_neg hidle, Floor.changedTo, hg,
    Floor.modRunner, Floor.modStage_modStage, Floor.tracker, Floor.modStage_stage]
  exact Floor.modStage_congr _ _ _ _ rfl

end Enable

/-! ## The request -/

section Request

variable {q : Request Nat} {s : State} (hs : s.Receives)
include hs

theorem exec_stageEnable {i : Fin 4} (hq : readRequest none parse1 q = .ok i.val)
    (hstate : (s.floor.runner i).state = .offline) :
    exec (.stageEnable q) s = .next (s.carriedOut (s.floor.enable i) Code.stageEnable .ok []) :=
  (exec_owned hs rfl hq).trans (by simp [State.ownStageEnable, stageOfNat_val, hstate, hs])

theorem exec_stageEnable_started {i : Fin 4} (hq : readRequest none parse1 q = .ok i.val)
    (hstate : (s.floor.runner i).state ≠ .offline) :
    exec (.stageEnable q) s = .next (s.replied Code.stageEnable .stageState []) := by
  have hstarted : ((s.floor.runner i).state == .offline) = false := beq_eq_false_iff_ne.2 hstate
  exact (exec_owned hs rfl hq).trans (by simp [State.ownStageEnable, stageOfNat_val, hstarted, hs])

theorem exec_stageEnable_unnamed {n : Nat} (hq : readRequest none parse1 q = .ok n) (hn : 3 < n) :
    exec (.stageEnable q) s = .next (s.replied Code.stageEnable .badRequest []) :=
  (exec_owned hs rfl hq).trans (by simp [State.ownStageEnable, stageOfNat_none hn, hs])

end Request

/-- Settles O43, from what an enabled stage becomes and the two refusals of the request. -/
theorem stageEnableStartsStage : Obligations.StageEnableStartsStage := by
  refine ⟨fun q s i hs hq => ⟨fun hstate => ?_, exec_stageEnable_started hs hq⟩,
    fun q s n hs hq hn => exec_stageEnable_unnamed hs hq hn⟩
  rw [exec_stageEnable hs hq hstate, Floor.enable_eq]
  rfl

end Sys2Proof.Machine
end

section
/-! STAGE_SET: the settings taken, a change of record mode with its takes and its path, and the refusals (R112 to R114,
R135, R137; log 12, 25, 41). -/

namespace Sys2Proof.Machine

/-! ## The takes that a change to REHEARSE reports -/

/-- A cue after one of its runs reported an aborted take and stayed (R41, R113). -/
def Cue.reported (i : Fin 4) (endedAt : Nat) (c : Cue) (r : Run) : Cue :=
  if r.punch = .punched then
    { c with takeCount := min (c.takeCount + 1) 999, lastTake := some (r.abortedTake i endedAt) }
  else c

/-- The takes of the runs of a list, reported one after another (R113). -/
def Floor.reportAborts (f : Floor) (i : Fin 4) (endedAt : Nat) (l : List Run) : Floor :=
  l.foldl (fun f r => f.reportRun i r endedAt .aborted) f

section Reports

variable (f : Floor) (i : Fin 4) (e : Nat)

theorem Floor.reportRun_cue (r : Run) (h : Nat) : (f.reportRun i r e .aborted).cue h =
    (f.cue h).map fun c => if h = r.handle then c.reported i e r else c := by
  unfold Floor.reportRun Cue.reported
  by_cases hp : r.punch = .punched
  · simp only [hp, ↓reduceIte, Floor.cue, Floor.takeReport, Floor.countOccurrence_cues, Floor.modCue, Table.find_modify]
    by_cases hh : h = r.handle
    · simp only [hh, ↓reduceIte]
      rfl
    · simp [hh]
  · simp [hp]

theorem Floor.reportAborts_cue (l : List Run) (h : Nat) : (f.reportAborts i e l).cue h =
    (f.cue h).map fun c => (l.filter fun r => r.handle == h).foldl (Cue.reported i e) c := by
  unfold Floor.reportAborts
  induction l generalizing f with
  | nil => simp
  | cons r l ih =>
    rw [List.foldl_cons, ih, Floor.reportRun_cue, Option.map_map, List.filter_cons]
    by_cases hh : h = r.handle
    · simp [hh, Function.comp_def]
    · simp [hh, Ne.symm hh, Function.comp_def]

/-- Reports change the cues and the monitor unit alone. -/
theorem Floor.reportAborts_frame (l : List Run) : (f.reportAborts i e l).stages = f.stages ∧
    (f.reportAborts i e l).notices = f.notices ∧ (f.reportAborts i e l).now = f.now := by
  have hone : ∀ (g : Floor) r, (g.reportRun i r e .aborted).stages = g.stages ∧
      (g.reportRun i r e .aborted).notices = g.notices ∧ (g.reportRun i r e .aborted).now = g.now := fun g r => by
    unfold Floor.reportRun
    split
    · exact ⟨rfl, rfl, rfl⟩
    · exact ⟨rfl, rfl, rfl⟩
  unfold Floor.reportAborts
  induction l generalizing f with
  | nil => exact ⟨rfl, rfl, rfl⟩
  | cons r l ih =>
    obtain ⟨hstages, hnotices, hnow⟩ := hone f r
    obtain ⟨hstages', hnotices', hnow'⟩ := ih (f.reportRun i r e .aborted)
    exact ⟨hstages'.trans hstages, hnotices'.trans hnotices, hnow'.trans hnow⟩

/-- The monitor unit counts the reported takes (R186). -/
theorem Floor.reportAborts_takes (l : List Run) : f.monitor.Takes .takesAborted i
    (l.filter fun r => r.punch == .punched).length (f.reportAborts i e l).monitor := by
  unfold Floor.reportAborts
  induction l generalizing f with
  | nil => exact .refl i _ _
  | cons r l ih =>
    have hone : f.monitor.Takes .takesAborted i (if r.punch = .punched then 1 else 0)
        (f.reportRun i r e .aborted).monitor := by
      unfold Floor.reportRun
      split
      · exact f.countOccurrence_takes i _
      · exact .refl i _ _
    have hcount : ((r :: l).filter fun r => r.punch == .punched).length =
        (if r.punch = .punched then 1 else 0) + (l.filter fun r => r.punch == .punched).length := by
      by_cases hp : r.punch = .punched
      · simp [hp, Nat.add_comm]
      · simp [hp]
    rw [hcount]
    exact hone.trans i (ih _)

end Reports

/-! ## A change to REHEARSE -/

/-- A run without a claim, in its phase (R113). -/
def Run.rehearsing (x : Run) : Run := { x with punch := .unpunched, punchedAt := none, claim := none, lateGrant := none }

/-- A runner in REHEARSE mode, without a claim (R113). -/
def Runner.rehearsing (r : Runner) : Runner := { r with recordMode := .rehearse, runs := r.runs.map Run.rehearsing }

section Rehearse

variable (f : Floor) (i : Fin 4)

/-- The floor of a change to REHEARSE before its path is settled. -/
def Floor.rehearsed : Floor :=
  (f.reportAborts i (f.tracker i).position (f.runner i).runs).modRunner i Runner.rehearsing

theorem Floor.toRehearse_eq : f.toRehearse i = (f.rehearsed i).settlePath i := rfl

theorem Floor.rehearsed_stage : (f.rehearsed i).stage i = { f.stage i with runner := (f.runner i).rehearsing } := by
  obtain ⟨hstages, -, -⟩ := f.reportAborts_frame i (f.tracker i).position (f.runner i).runs
  rw [Floor.rehearsed, Floor.modRunner_stage, Floor.stage, hstages]
  rfl

theorem Floor.rehearsed_demands : (f.rehearsed i).demandNow i = false ∧ (f.rehearsed i).recordRequest i = false := by
  have hrunner : (f.rehearsed i).runner i = (f.runner i).rehearsing := by rw [Floor.runner, Floor.rehearsed_stage]
  rw [Floor.demandNow, Floor.recordRequest, hrunner]
  refine ⟨rfl, List.any_eq_false.2 fun y hy => ?_⟩
  obtain ⟨x, -, rfl⟩ := List.mem_map.1 hy
  nofun

theorem Floor.toRehearse_runner : (f.toRehearse i).runner i = (f.runner i).rehearsing := by
  obtain ⟨hd, -⟩ := f.rehearsed_demands i
  rw [Floor.toRehearse_eq, Floor.settlePath_runner, Floor.grantsNow, hd, Floor.runner, Floor.rehearsed_stage]
  rfl

/-- The path takes the release of every claim and all demand (R113, R137). -/
theorem Floor.toRehearse_path (t : (f.stage i).PathTable) :
    (f.toRehearse i).path i = (f.path i).settled f.now (f.gapCounts i) false false := by
  obtain ⟨hd, hr⟩ := f.rehearsed_demands i
  have hpath : (f.rehearsed i).path i = f.path i := by rw [Floor.path, Floor.rehearsed_stage, Floor.path]
  have htracker : (f.rehearsed i).tracker i = f.tracker i := by rw [Floor.tracker, Floor.rehearsed_stage, Floor.tracker]
  have hnow : (f.rehearsed i).now = f.now := (f.reportAborts_frame i _ _).2.2
  rw [Floor.toRehearse_eq, Floor.settlePath_released _ i hd hr (by rw [hpath]; exact t.record), Floor.gapCounts, hpath,
    htracker, hnow]
  rfl

theorem Floor.toRehearse_stores :
    (f.toRehearse i).cues = (f.reportAborts i (f.tracker i).position (f.runner i).runs).cues ∧
    (f.toRehearse i).monitor = (f.reportAborts i (f.tracker i).position (f.runner i).runs).monitor :=
  ((f.rehearsed i).settlePath_pathOnly i).cues

end Rehearse

/-! ## A change to RECORD -/

/-- A runner in RECORD mode (R114). -/
def Runner.recording (r : Runner) : Runner := { r with recordMode := .record }

section Record

variable {f : Floor} {i : Fin 4} (t : (f.stage i).PathTable) (hmode : (f.runner i).recordMode = .rehearse)
include t hmode

/-- In REHEARSE mode no run claims (R113). -/
theorem Floor.unpunched_of_rehearse {y : Run} (hy : y ∈ (f.runner i).runs) : y.punch = .unpunched :=
  Decidable.not_not.1 fun hne => by
    have hrecord : (f.runner i).recordMode = .record := t.windows y hy hne
    rw [hmode] at hrecord
    cases hrecord

/-- With RECORD mode come the demands of the runs that stand before their punch-in points (R114, R135). -/
theorem Floor.demandNow_recording : (f.modRunner i Runner.recording).demandNow i = true ↔
    ∃ y ∈ (f.runner i).runs, ∃ c, f.cue y.handle = some c ∧
      c.fields.preemptionPoint (f.path i).guardGap ≤ (f.tracker i).position ∧
      (f.tracker i).position < c.fields.punchInPoint := by
  have hrunner : (f.modRunner i Runner.recording).runner i = (f.runner i).recording := by rw [Floor.modRunner_runner]
  have hone : ∀ y ∈ (f.runner i).runs, (f.modRunner i Runner.recording).runDemands i y = true ↔
      ∃ c, f.cue y.handle = some c ∧ c.fields.preemptionPoint (f.path i).guardGap ≤ (f.tracker i).position ∧
        (f.tracker i).position < c.fields.punchInPoint := fun y hy => by
    have hcue : (f.modRunner i Runner.recording).cue y.handle = f.cue y.handle := rfl
    rw [Floor.runDemands, Floor.unpunched_of_rehearse t hmode hy, hcue, Floor.modRunner_path, Floor.modRunner_tracker]
    cases f.cue y.handle with
    | none => simp
    | some c => simp
  rw [Floor.demandNow, hrunner]
  refine (Bool.and_eq_true_iff.trans (and_iff_right rfl)).trans (List.any_eq_true.trans ?_)
  exact exists_congr fun y => and_congr_right fun hy => hone y hy

/-- A path that is open takes the demand, and no claim (R114, R135). -/
theorem Floor.toRecord_path (hprotected : (f.path i).state ≠ .protected_) (hrecord : (f.path i).state ≠ .record) :
    (f.toRecord i).path i = if (f.modRunner i Runner.recording).demandNow i then { f.path i with
        state := .protected_, demand := true
        gapExpiry := if (f.path i).state = .talk ∧ f.gapCounts i ≠ 0 then some (f.now + f.gapCounts i)
          else (f.path i).gapExpiry }
      else f.path i := by
  obtain ⟨g, hg⟩ : ∃ g, g = f.modRunner i Runner.recording := ⟨_, rfl⟩
  have hpath : g.path i = f.path i := by rw [hg, Floor.modRunner_path]
  have hcounts : g.gapCounts i = f.gapCounts i := by
    rw [Floor.gapCounts, hpath, hg, Floor.modRunner_tracker, Floor.gapCounts]
  have hnow : g.now = f.now := by rw [hg, Floor.modRunner_now]
  have hopen : (g.path i).state = .free ∨ (g.path i).state = .talk ∨ (g.path i).state = .gap := by
    rw [hpath]
    cases hs : (f.path i).state with
    | free => exact .inl rfl
    | talk => exact .inr (.inl rfl)
    | gap => exact .inr (.inr rfl)
    | protected_ => exact absurd hs hprotected
    | record => exact absurd hs hrecord
  have hr : g.recordRequest i = false := by
    rw [Floor.recordRequest, hg, Floor.modRunner_runner]
    refine List.any_eq_false.2 fun y hy => ?_
    rw [Floor.unpunched_of_rehearse t hmode hy]
    nofun
  have hsettle : (f.toRecord i) = g.settlePath i := by rw [hg]; rfl
  rw [hsettle, g.settlePath_raised i hopen, hr, ← hg]
  cases g.demandNow i with
  | true => exact (g.raiseDemand_path i).trans (by rw [hpath, hcounts, hnow, if_pos rfl])
  | false => exact hpath

end Record

/-! ## A record mode taken -/

section Mode

variable (f : Floor) (i : Fin 4)

/-- A record mode taken leaves the runs in their phases, and the rest of the runner (R112 to R114). -/
theorem Floor.setRecordMode_runner (m : RecordMode) : ∃ l : List Run,
    (f.setRecordMode i m).runner i = { f.runner i with recordMode := m, runs := l } ∧
    l.map Run.handle = (f.runner i).runs.map Run.handle ∧ l.map Run.phase = (f.runner i).runs.map Run.phase := by
  by_cases hsame : (f.runner i).recordMode = m
  · refine ⟨(f.runner i).runs, ?_, rfl, rfl⟩
    rw [Floor.setRecordMode.eq_def, if_pos hsame, ← hsame]
  rw [Floor.setRecordMode.eq_def, if_neg hsame]
  cases m with
  | rehearse =>
    refine ⟨(f.runner i).runs.map Run.rehearsing, f.toRehearse_runner i, ?_, ?_⟩
    · rw [List.map_map]; rfl
    · rw [List.map_map]; rfl
  | record =>
    obtain ⟨hhandles, hphases⟩ := (Floor.settlePath_pathOnly (f.modRunner i Runner.recording) i).handles
    have hrunner : (f.toRecord i).runner i = _ := (f.modRunner i Runner.recording).settlePath_runner i
    rw [Floor.modRunner_runner] at hhandles hphases hrunner
    refine ⟨((f.toRecord i).runner i).runs, ?_, hhandles, hphases⟩
    rw [hrunner]
    split
    · rfl
    · rfl

theorem Floor.setRecordMode_notices (m : RecordMode) : (f.setRecordMode i m).notices = f.notices := by
  unfold Floor.setRecordMode
  split
  · rfl
  · cases m with
    | rehearse =>
      exact (Floor.settlePath_pathOnly (f.rehearsed i) i).notices.trans (f.reportAborts_frame i _ _).2.1
    | record => exact (Floor.settlePath_pathOnly (f.modRunner i Runner.recording) i).notices

theorem Floor.setRecordMode_record_stores :
    (f.setRecordMode i .record).cues = f.cues ∧ (f.setRecordMode i .record).monitor = f.monitor := by
  unfold Floor.setRecordMode
  split
  · exact ⟨rfl, rfl⟩
  · exact ((f.modRunner i Runner.recording).settlePath_pathOnly i).cues

end Mode

/-! ## The request -/

/-- A runner with the settings of a STAGE_SET (R112). -/
def Runner.withSettings (skip : Bool) (length : Nat) (r : Runner) : Runner :=
  { r with skipPrinted := skip, blankingLength := length }

/-- A stage takes the settings of a STAGE_SET (R112). -/
def Floor.setStage (f : Floor) (i : Fin 4) (mode : RecordMode) (skip : Bool) (length : Nat) : Floor :=
  (f.modRunner i (.withSettings skip length)).setRecordMode i mode

section Request

variable {s : State} {q : Request StageSetFields} {x : StageSetFields} (hs : s.Receives)
  (hq : readRequest (some 3) parseStageSet q = .ok x)
include hs hq

theorem exec_stageSet {i : Fin 4} {mode : Option RecordMode} {skip : Option Bool} (hi : x.stage = i.val)
    (hgives : (x.recordMode.isSome || x.skipPrinted.isSome || x.blankingLength.isSome) = true)
    (hmode : givenCode RecordMode.ofCode x.recordMode = .ok mode)
    (hskip : givenCode flagOfCode x.skipPrinted = .ok skip) :
    let mode := mode.getD (s.floor.runner i).recordMode
    let skip := skip.getD (s.floor.runner i).skipPrinted
    let asked := x.blankingLength.getD (s.floor.runner i).blankingLength
    exec (.stageSet q) s = .next (s.carriedOut (s.floor.setStage i mode skip (min asked 30)) Code.stageSet
      (clampStatus (min asked 30 != asked)) [byte mode.code, flagByte skip, byte (min asked 30)]) := by
  refine (exec_owned hs rfl hq).trans (congrArg _ ?_)
  simp [State.ownStageSet, stageOfNat_val, hi, hgives, hmode, hskip, hs]
  rfl

theorem exec_stageSet_refused (h : 3 < x.stage ∨
    (x.recordMode.isSome || x.skipPrinted.isSome || x.blankingLength.isSome) = false ∨
    (∃ n, x.recordMode = some n ∧ 1 < n) ∨ (∃ n, x.skipPrinted = some n ∧ 1 < n)) :
    exec (.stageSet q) s = .next (s.replied Code.stageSet .badRequest []) := by
  refine (exec_owned hs rfl hq).trans (congrArg _ ?_)
  by_cases hstage : 3 < x.stage
  · simp [State.ownStageSet, stageOfNat_none hstage, hs]
  have hi : stageOfNat x.stage = some ⟨x.stage, by omega⟩ := dif_pos (by omega)
  cases hg : x.recordMode.isSome || x.skipPrinted.isSome || x.blankingLength.isSome with
  | false => simp [State.ownStageSet, hi, hg, hs]
  | true =>
    by_cases hmode : ∀ n, x.recordMode = some n → n < 2
    · obtain ⟨mode, hread⟩ := (givenCode_listed RecordMode.ofCode_eq x.recordMode).1 hmode
      have hskip : ¬∀ n, x.skipPrinted = some n → n < 2 := fun hall => by
        obtain h | h | ⟨n, hn, hlt⟩ | ⟨n, hn, hlt⟩ := h
        · exact hstage h
        · rw [hg] at h; cases h
        · exact absurd (hmode n hn) (by omega)
        · exact absurd (hall n hn) (by omega)
      simp [State.ownStageSet, hi, hg, hread, givenCode_unlisted flagOfCode_eq hskip, hs]
    · simp [State.ownStageSet, hi, hg, givenCode_unlisted RecordMode.ofCode_eq hmode, hs]

end Request

/-! ## What the settings leave -/

section SetStage

variable (f : Floor) (i : Fin 4) (mode : RecordMode) (skip : Bool) (length : Nat)

theorem Floor.setStage_stageEvent : Floor.StageEvent i f (f.setStage i mode skip length) :=
  (Floor.StageEvent.modRunner f i _).trans (Floor.setRecordMode_stageEvent _ i mode)

theorem Floor.setStage_runner : ∃ l : List Run, (f.setStage i mode skip length).runner i =
      { f.runner i with skipPrinted := skip, blankingLength := length, recordMode := mode, runs := l } ∧
    l.map Run.handle = (f.runner i).runs.map Run.handle ∧ l.map Run.phase = (f.runner i).runs.map Run.phase := by
  obtain ⟨l, hrunner, hkept⟩ := (f.modRunner i (.withSettings skip length)).setRecordMode_runner i mode
  rw [Floor.modRunner_runner] at hrunner hkept
  exact ⟨l, hrunner, hkept⟩

variable {mode}

/-- The record mode that the stage holds changes nothing (R112). -/
theorem Floor.setStage_same (h : mode = (f.runner i).recordMode) :
    f.setStage i mode skip length = f.modRunner i (.withSettings skip length) :=
  if_pos (by rw [Floor.modRunner_runner]; exact h.symm)

theorem Floor.setStage_rehearse (h : (f.runner i).recordMode = .record) :
    f.setStage i .rehearse skip length = (f.modRunner i (.withSettings skip length)).toRehearse i :=
  if_neg (by rw [Floor.modRunner_runner]; exact fun hm => nomatch h.symm.trans hm)

theorem Floor.setStage_record (h : (f.runner i).recordMode = .rehearse) :
    f.setStage i .record skip length = (f.modRunner i (.withSettings skip length)).toRecord i :=
  if_neg (by rw [Floor.modRunner_runner]; exact fun hm => nomatch h.symm.trans hm)

/-- The settings leave the table of the path (R132). -/
theorem Floor.withSettings_pathTable (t : (f.stage i).PathTable) :
    ((f.modRunner i (.withSettings skip length)).stage i).PathTable := by
  rw [Floor.modRunner_stage]
  exact ⟨t.free, t.talk, t.record, t.gap, t.demand, t.windows⟩

end SetStage

section ToRehearse

variable (f : Floor) (i : Fin 4) (skip : Bool) (length : Nat) (h : (f.runner i).recordMode = .record)
include h

/-- The cues after a change to REHEARSE: those of the PUNCHED runs hold an aborted take (R41, R113). -/
theorem Floor.setStage_rehearse_cue (k : Nat) : (f.setStage i .rehearse skip length).cue k = (f.cue k).map fun c =>
    ((f.runner i).runs.filter fun r => r.handle == k).foldl (Cue.reported i (f.tracker i).position) c := by
  obtain ⟨hcues, -⟩ := (f.modRunner i (.withSettings skip length)).toRehearse_stores i
  rw [f.setStage_rehearse i skip length h, Floor.cue, hcues, ← Floor.cue, Floor.reportAborts_cue,
    Floor.modRunner_runner, Floor.modRunner_tracker]
  rfl

theorem Floor.setStage_rehearse_takes : f.monitor.Takes .takesAborted i
    ((f.runner i).runs.filter fun r => r.punch == .punched).length (f.setStage i .rehearse skip length).monitor := by
  obtain ⟨-, hmonitor⟩ := (f.modRunner i (.withSettings skip length)).toRehearse_stores i
  have htakes := (f.modRunner i (.withSettings skip length)).reportAborts_takes i (f.tracker i).position (f.runner i).runs
  rw [f.setStage_rehearse i skip length h, hmonitor, Floor.modRunner_runner, Floor.modRunner_tracker]
  exact htakes

theorem Floor.setStage_rehearse_runs :
    ((f.setStage i .rehearse skip length).runner i).runs = (f.runner i).runs.map Run.rehearsing := by
  rw [f.setStage_rehearse i skip length h, Floor.toRehearse_runner, Floor.modRunner_runner]
  rfl

theorem Floor.setStage_rehearse_path (t : (f.stage i).PathTable) : (f.setStage i .rehearse skip length).path i =
    (f.path i).settled f.now (f.gapCounts i) false false := by
  rw [f.setStage_rehearse i skip length h, Floor.toRehearse_path _ i (f.withSettings_pathTable i skip length t),
    Floor.gapCounts, Floor.modRunner_path, Floor.modRunner_tracker]
  rfl

end ToRehearse

section ToRecord

variable (f : Floor) (i : Fin 4) (skip : Bool) (length : Nat) (h : (f.runner i).recordMode = .rehearse)
include h

theorem Floor.setStage_record_path (t : (f.stage i).PathTable) (hprotected : (f.path i).state ≠ .protected_)
    (hrecord : (f.path i).state ≠ .record) :
    let demands := ∃ y ∈ (f.runner i).runs, ∃ c, f.cue y.handle = some c ∧
      c.fields.preemptionPoint (f.path i).guardGap ≤ (f.tracker i).position ∧
      (f.tracker i).position < c.fields.punchInPoint
    (¬demands → (f.setStage i .record skip length).path i = f.path i) ∧
    (demands → (f.setStage i .record skip length).path i = { f.path i with
      state := .protected_, demand := true
      gapExpiry := if (f.path i).state = .talk ∧ f.gapCounts i ≠ 0 then some (f.now + f.gapCounts i)
        else (f.path i).gapExpiry }) := by
  intro demands
  obtain ⟨g, hg⟩ : ∃ g, g = f.modRunner i (.withSettings skip length) := ⟨_, rfl⟩
  have hpath : g.path i = f.path i := by rw [hg, Floor.modRunner_path]
  have htracker : g.tracker i = f.tracker i := by rw [hg, Floor.modRunner_tracker]
  have hrunner : g.runner i = (f.runner i).withSettings skip length := by rw [hg, Floor.modRunner_runner]
  have htable : (g.stage i).PathTable := hg ▸ f.withSettings_pathTable i skip length t
  have hmode : (g.runner i).recordMode = .rehearse := by rw [hrunner]; exact h
  have hcue : ∀ k, g.cue k = f.cue k := fun k => by rw [hg]; rfl
  have hnow : g.now = f.now := by rw [hg, Floor.modRunner_now]
  have hdemands : (g.modRunner i Runner.recording).demandNow i = true ↔ demands := by
    rw [Floor.demandNow_recording htable hmode, hpath, htracker, hrunner]
    simp only [hcue]
    rfl
  have hafter := Floor.toRecord_path htable hmode (by rw [hpath]; exact hprotected) (by rw [hpath]; exact hrecord)
  rw [f.setStage_record i skip length h, ← hg, hafter, Floor.gapCounts, hpath, htracker, hnow]
  exact ⟨fun hn => if_neg (mt hdemands.1 hn), fun hd => if_pos (hdemands.2 hd)⟩

end ToRecord

/-- A path without claim or demand goes on (R137). -/
theorem Path.settled_released (p : Path) (now gap : Nat) : p.settled now gap false false =
    let open_ := if p.talkWanted = true then PathState.talk else PathState.free
    match p.state with
    | .record => if gap = 0 then { p with state := open_, demand := false }
        else { p with state := .gap, gapExpiry := some (now + gap), demand := false }
    | .protected_ => { p with state := if p.gapExpiry = none then open_ else .gap, demand := false }
    | _ => p := by
  obtain ⟨state, talk, expiry, length, demand⟩ := p
  cases state with
  | free => rfl
  | talk => rfl
  | gap => rfl
  | record => rfl
  | protected_ => cases expiry <;> rfl

/-- A set of settings moves its blanking length where it is above 30 (R112). -/
theorem clampStatus_min (asked limit : Nat) :
    clampStatus (min asked limit != asked) = if asked ≤ limit then .ok else .clamped := by
  by_cases h : asked ≤ limit
  · simp [clampStatus, h]
  · simp [clampStatus, h]

/-- Settles O46: the settings taken, then each change of the record mode with its runs, cues, takes and path. -/
theorem stageSetTakesSettings : Obligations.StageSetTakesSettings := by
  refine ⟨fun q x s i mode skip hs hq hi hgiven hmode hskip => ?_, fun q x s hs hq hbad => ?_⟩
  · intro r p pos gap open_ newMode newSkip asked
    have hgives : (x.recordMode.isSome || x.skipPrinted.isSome || x.blankingLength.isSome) = true := by
      simpa [or_assoc] using hgiven
    have hevent := s.floor.setStage_stageEvent i newMode newSkip (min asked 30)
    obtain ⟨l, hrunner, hhandles, hphases⟩ := s.floor.setStage_runner i newMode newSkip (min asked 30)
    refine ⟨_, exec_stageSet hs hq hi hgives hmode hskip, ?_⟩
    rw [clampStatus_min, State.carriedOut, State.replied_floor]
    refine ⟨congrArg Runner.recordMode hrunner, congrArg Runner.skipPrinted hrunner,
      congrArg Runner.blankingLength hrunner, (congrArg Runner.state hrunner).trans rfl,
      (congrArg Runner.blankingCount hrunner).trans rfl,
      (congrArg (·.runs.map Run.handle) hrunner).trans hhandles,
      (congrArg (·.runs.map Run.phase) hrunner).trans hphases, s.floor.setStage_same i newSkip (min asked 30),
      fun hnew hold t hnodup => ?_, fun hnew hold _ => ?_, fun hkept => ?_,
      fun hnew hold t hprotected hrecord => ?_, hevent.stages, rfl, hevent.reels, hevent.chars, hevent.casts,
      Floor.setRecordMode_notices _ i newMode, rfl, rfl, rfl, rfl, rfl⟩
    · dsimp only
      rw [show mode.getD (s.floor.runner i).recordMode = .rehearse from hnew]
      refine ⟨Floor.setStage_rehearse_runs _ i _ _ hold, fun y hy c hc => ?_, fun h hh => ?_, ?_⟩
      · rw [Floor.setStage_rehearse_cue _ i _ _ hold, filter_handle_eq_singleton hnodup hy, hc]
        rfl
      · have hnone : (r.runs.filter fun y => y.handle == h) = [] :=
          List.filter_eq_nil_iff.2 fun y hy heq => hh (List.mem_map.2 ⟨y, hy, beq_iff_eq.1 heq⟩)
        rw [Floor.setStage_rehearse_cue _ i _ _ hold, hnone]
        exact Option.map_id'
      · rw [Floor.setStage_rehearse_path _ i _ _ hold t]
        exact p.settled_released s.floor.now gap
    · dsimp only
      rw [show mode.getD (s.floor.runner i).recordMode = .rehearse from hnew]
      obtain ⟨hrest, hcounters⟩ := s.floor.setStage_rehearse_takes i newSkip (min asked 30) hold
      exact ⟨hrest, fun k => (hcounters k).trans (Counter.taken_eq _ _ _ _ _)⟩
    · have hsame : newMode = r.recordMode ∨ newMode = .record := by
        cases hm : newMode with
        | record => exact .inr rfl
        | rehearse => exact .inl (hkept.elim (fun h => nomatch hm.symm.trans h) fun h => h.symm)
      obtain h | h := hsame
      · exact (congrArg Floor.monitor (s.floor.setStage_same i newSkip (min asked 30) h)).trans rfl
      · dsimp only
        rw [show mode.getD (s.floor.runner i).recordMode = .record from h]
        exact (Floor.setRecordMode_record_stores _ i).2
    · dsimp only
      rw [show mode.getD (s.floor.runner i).recordMode = .record from hnew]
      exact ⟨(Floor.setRecordMode_record_stores _ i).1, Floor.setStage_record_path _ i _ _ hold t hprotected hrecord⟩
  · refine exec_stageSet_refused hs hq (hbad.imp_right fun h => h.imp_left fun ⟨hmode, hskip, hlength⟩ => ?_)
    rw [hmode, hskip, hlength]
    rfl

end Sys2Proof.Machine
end

section
/-! Arming at a boundary: which cues of the reel take a run context, and what becomes of the runs, the cues and the path
(R115 to R117, R134, R135; log 41). -/

namespace Sys2Proof.Machine

/-! ## One cue of the order list -/

/-- The cue of a handle takes a run context (R116). -/
def Floor.armHandle (f : Floor) (i : Fin 4) (p h : Nat) : Floor :=
  match f.cue h with
  | some c => f.armCue i p h c
  | none => f

/-- The cue of a handle qualifies on a stage (R115). -/
def Floor.qualifiesAt (f : Floor) (i : Fin 4) (p h : Nat) : Bool :=
  match f.cue h with
  | some c => f.qualifies i p h c
  | none => false

/-- The run of a newly armed cue (R116). -/
def Floor.freshRun (f : Floor) (p h : Nat) : Run :=
  { handle := h, phase := ((f.cue h).map fun c => c.fields.phaseAt p).getD .armed, punch := .unpunched
    punchedAt := none, claim := none, lateGrant := none }

section OneCue

variable (f : Floor) (i : Fin 4) (p : Nat)

theorem armOne_eq (s : Bool) (h : Nat) : armOne i p (f, s) h = if f.qualifiesAt i p h then
    (if (f.runner i).runs.length < 8 then (f.armHandle i p h, s) else (f, true)) else (f, s) := by
  unfold armOne Floor.qualifiesAt Floor.armHandle
  cases f.cue h with
  | none => rfl
  | some c => rfl

theorem Floor.armHandle_cue (h x : Nat) : (f.armHandle i p h).cue x =
    (f.cue x).map fun c => { c with inFlight := c.inFlight + if x = h then 1 else 0 } := by
  unfold Floor.armHandle
  cases hc : f.cue h with
  | none =>
    by_cases hx : x = h
    · rw [hx, hc]; rfl
    · simp [hx]
  | some c =>
    dsimp only
    rw [Floor.armCue_cue]
    by_cases hx : x = h
    · simp [hx]
    · simp [hx]

/-- A cue armed stays as it is in what decides of a fresh run. -/
theorem Floor.armHandle_freshRun (h x : Nat) : (f.armHandle i p h).freshRun p x = f.freshRun p x := by
  rw [Floor.freshRun, Floor.freshRun, Floor.armHandle_cue, Option.map_map]
  rfl

/-- A live cue armed adds its run to the list, and loses its flash mark (R116, R175). -/
theorem Floor.armHandle_stage {h : Nat} (hlive : (f.cue h).isSome = true) : ∃ o, (f.armHandle i p h).stage i =
    { f.stage i with runner := { f.runner i with runs := (f.runner i).runs ++ [f.freshRun p h] }, overlay := o } := by
  obtain ⟨c, hc⟩ := Option.isSome_iff_exists.1 hlive
  refine ⟨((f.armCue i p h c).stage i).overlay, ?_⟩
  unfold Floor.armHandle Floor.freshRun
  rw [hc, Option.map_some, Option.getD_some]
  dsimp only
  rw [Floor.armCue_stage]
  rfl

theorem Floor.armHandle_runner {h : Nat} (hlive : (f.cue h).isSome = true) : (f.armHandle i p h).runner i =
    { f.runner i with runs := (f.runner i).runs ++ [f.freshRun p h] } := by
  obtain ⟨o, ho⟩ := f.armHandle_stage i p hlive
  rw [Floor.runner, ho]

theorem Floor.qualifiesAt_live {h : Nat} (hq : f.qualifiesAt i p h = true) : (f.cue h).isSome = true := by
  unfold Floor.qualifiesAt at hq
  cases hc : f.cue h with
  | none => rw [hc] at hq; cases hq
  | some c => rfl

/-- An armed cue leaves each other one qualified or not (R115). -/
theorem Floor.qualifiesAt_armHandle {h x : Nat} (hlive : (f.cue h).isSome = true) (hx : x ≠ h) :
    (f.armHandle i p h).qualifiesAt i p x = f.qualifiesAt i p x := by
  unfold Floor.qualifiesAt
  rw [Floor.armHandle_cue]
  cases f.cue x with
  | none => rfl
  | some c =>
    simp only [hx, ↓reduceIte, Nat.add_zero, Option.map_some, Floor.qualifies, Floor.armHandle_runner f i p hlive,
      List.any_append, List.any_cons, List.any_nil, Floor.freshRun, Bool.or_false, beq_false_of_ne (Ne.symm hx)]

end OneCue

/-! ## The cues of the order list -/

/-- Cues armed one after another (R116). -/
def Floor.armCues (f : Floor) (i : Fin 4) (p : Nat) (l : List Nat) : Floor := l.foldl (fun f h => f.armHandle i p h) f

section Cues

variable {i : Fin 4} {p : Nat}

/-- Of an order list the qualifying cues take the free contexts in their order, and one more starves the boundary (R116,
R117). -/
theorem foldl_armOne {l : List Nat} (hnodup : l.Nodup) (f : Floor) (s : Bool) (hlength : (f.runner i).runs.length ≤ 8) :
    l.foldl (armOne i p) (f, s) =
      (f.armCues i p ((l.filter (f.qualifiesAt i p)).take (8 - (f.runner i).runs.length)),
        s || decide (8 - (f.runner i).runs.length < (l.filter (f.qualifiesAt i p)).length)) := by
  induction l generalizing f s with
  | nil => simp [Floor.armCues]
  | cons h l ih =>
    obtain ⟨hh, hl⟩ := List.nodup_cons.1 hnodup
    rw [List.foldl_cons, armOne_eq, List.filter_cons]
    cases hq : f.qualifiesAt i p h with
    | false => exact ih hl f s hlength
    | true =>
      have hlive := f.qualifiesAt_live i p hq
      simp only [↓reduceIte]
      by_cases hfree : (f.runner i).runs.length < 8
      · obtain ⟨g, hg⟩ : ∃ g, g = f.armHandle i p h := ⟨_, rfl⟩
        have hfilter : l.filter (g.qualifiesAt i p) = l.filter (f.qualifiesAt i p) :=
          List.filter_congr fun x hx => hg ▸ f.qualifiesAt_armHandle i p hlive fun hxh => hh (hxh ▸ hx)
        have hruns : (g.runner i).runs.length = (f.runner i).runs.length + 1 := by
          rw [hg, Floor.armHandle_runner f i p hlive, List.length_append, List.length_singleton]
        have hcount : 8 - (f.runner i).runs.length = 8 - ((f.runner i).runs.length + 1) + 1 := by omega
        rw [if_pos hfree, ← hg, ih hl g s (by omega), hfilter, hruns, hcount, List.take_succ_cons, Floor.armCues,
          Floor.armCues, List.foldl_cons, ← hg, List.length_cons]
        simp only [Nat.add_lt_add_iff_right]
      · have hnone : 8 - (f.runner i).runs.length = 0 := by omega
        rw [if_neg hfree, ih hl f true hlength, hnone, List.take_zero, List.take_zero]
        simp

variable (f : Floor) (i p)

theorem Floor.armCues_cue (l : List Nat) (x : Nat) : (f.armCues i p l).cue x =
    (f.cue x).map fun c => { c with inFlight := c.inFlight + l.count x } := by
  unfold Floor.armCues
  induction l generalizing f with
  | nil => simp
  | cons h l ih =>
    rw [List.foldl_cons, ih, Floor.armHandle_cue, Option.map_map, List.count_cons]
    congr 1
    funext c
    by_cases hx : x = h
    · simp [hx, Nat.add_comm, Nat.add_left_comm]
    · simp [hx, Ne.symm hx]

/-- The runs of cues armed stand behind those of the list (R116). -/
theorem Floor.armCues_stage (l : List Nat) (hlive : ∀ h ∈ l, (f.cue h).isSome = true) :
    ∃ o, (f.armCues i p l).stage i = { f.stage i with
      runner := { f.runner i with runs := (f.runner i).runs ++ l.map (f.freshRun p) }, overlay := o } := by
  unfold Floor.armCues
  induction l generalizing f with
  | nil => exact ⟨f.overlay i, by rw [List.foldl_nil, List.map_nil, List.append_nil]; rfl⟩
  | cons h l ih =>
    obtain ⟨o, ho⟩ := f.armHandle_stage i p (hlive h List.mem_cons_self)
    obtain ⟨o', ho'⟩ := ih (f.armHandle i p h) fun x hx => by
      rw [Floor.armHandle_cue, Option.isSome_map]
      exact hlive x (List.mem_cons_of_mem _ hx)
    refine ⟨o', ?_⟩
    have hfresh : (f.armHandle i p h).freshRun p = f.freshRun p := funext (f.armHandle_freshRun i p h)
    rw [List.foldl_cons, ho', hfresh, Floor.armHandle_runner f i p (hlive h List.mem_cons_self), ho,
      List.append_assoc]
    rfl

/-- Arming leaves the monitor unit, the notices and the reference count. -/
theorem Floor.armCues_frame (l : List Nat) : (f.armCues i p l).monitor = f.monitor ∧
    (f.armCues i p l).notices = f.notices ∧ (f.armCues i p l).now = f.now := by
  unfold Floor.armCues
  induction l generalizing f with
  | nil => exact ⟨rfl, rfl, rfl⟩
  | cons h l ih =>
    obtain ⟨hmonitor, hnotices, hnow⟩ := ih (f.armHandle i p h)
    have hone : (f.armHandle i p h).monitor = f.monitor ∧ (f.armHandle i p h).notices = f.notices ∧
        (f.armHandle i p h).now = f.now := by
      unfold Floor.armHandle
      split
      · exact ⟨rfl, rfl, rfl⟩
      · exact ⟨rfl, rfl, rfl⟩
    exact ⟨hmonitor.trans hone.1, hnotices.trans hone.2.1, hnow.trans hone.2.2⟩

end Cues

/-! ## Arming at a boundary -/

section Arm

variable {f : Floor} {i : Fin 4}

/-- The cues that a boundary arms of an order list (R116). -/
def Floor.armed (f : Floor) (i : Fin 4) (p : Nat) (order : List Nat) : List Nat :=
  (order.filter (f.qualifiesAt i p)).take (8 - (f.runner i).runs.length)

theorem Floor.armed_live {p : Nat} {order : List Nat} : ∀ h ∈ f.armed i p order, (f.cue h).isSome = true :=
  fun _ hh => f.qualifiesAt_live i p (List.mem_filter.1 (List.mem_of_mem_take hh)).2

/-- A boundary starves where a qualifying cue finds no free context (R117). -/
def Floor.starves (f : Floor) (i : Fin 4) (p : Nat) (order : List Nat) : Bool :=
  decide (8 - (f.runner i).runs.length < (order.filter (f.qualifiesAt i p)).length)

variable {reel : Reel} (hreel : f.selectedOpenReel i = some reel) (horder : reel.order.Nodup)
  (hlength : (f.runner i).runs.length ≤ 8)
include hreel horder hlength

theorem Floor.arm_eq :
    let p := (f.tracker i).position
    let g := (f.armCues i p (f.armed i p reel.order)).settlePath i
    f.arm i = (if f.starves i p reel.order then g.setNotice (.ofStage i .cueStarved) else g,
      f.starves i p reel.order) := by
  unfold Floor.arm
  rw [hreel]
  dsimp only
  rw [foldl_armOne horder f false hlength, Bool.false_or]
  rfl

end Arm

/-- What a boundary leaves that armed the cues of a list (R116, R117, R134, R135). -/
structure Floor.Arms (f g : Floor) (i : Fin 4) (armed : List Nat) (starved : Bool) : Prop where
  monitor : g.monitor = f.monitor
  cue : ∀ x, g.cue x = (f.cue x).map fun c => { c with inFlight := c.inFlight + armed.count x }
  notices : g.notices = if starved then f.notices.set (Notice.ofStage i .cueStarved).index true else f.notices
  runner : ∃ c : Run → Run, (∀ x, Run.PunchedFrom (f.tracker i).position x (c x)) ∧ g.runner i = { f.runner i with
    runs := ((f.runner i).runs ++ armed.map (f.freshRun (f.tracker i).position)).map c }
  settled : (f.stage i).PathTable → (f.stage i).ClaimsStand →
    (g.runner i).runs = (f.runner i).runs ++ armed.map (f.freshRun (f.tracker i).position) ∧
    g.path i = (f.path i).settled f.now (f.gapCounts i) (f.recordRequest i)
      (f.demands i ((f.runner i).runs ++ armed.map (f.freshRun (f.tracker i).position)))

section Arms

variable {f : Floor} {i : Fin 4}

/-- A fresh run claims nothing (R116). -/
theorem any_punch_append_freshRun (f : Floor) (p : Nat) (runs : List Run) (l : List Nat) :
    ((runs ++ l.map (f.freshRun p)).any fun x => x.punch != .unpunched) = runs.any fun x => x.punch != .unpunched := by
  have hnone : ((l.map (f.freshRun p)).any fun x => x.punch != .unpunched) = false :=
    List.any_eq_false.2 fun y hy => by
      obtain ⟨x, -, rfl⟩ := List.mem_map.1 hy
      nofun
  rw [List.any_append, hnone, Bool.or_false]

/-- Cues armed before their path is settled (R134, R135). -/
theorem Floor.armCues_arms {l : List Nat} (hlive : ∀ h ∈ l, (f.cue h).isSome = true) :
    f.Arms ((f.armCues i (f.tracker i).position l).settlePath i) i l false := by
  obtain ⟨a, ha⟩ : ∃ a, a = f.armCues i (f.tracker i).position l := ⟨_, rfl⟩
  obtain ⟨o, hstage⟩ := f.armCues_stage i (f.tracker i).position l hlive
  obtain ⟨hmonitor, hnotices, hnow⟩ := f.armCues_frame i (f.tracker i).position l
  have hcue := f.armCues_cue i (f.tracker i).position l
  rw [← ha] at hstage hmonitor hnotices hnow hcue ⊢
  have hrunner : a.runner i = { f.runner i with
      runs := (f.runner i).runs ++ l.map (f.freshRun (f.tracker i).position) } := by rw [Floor.runner, hstage]
  have hpath : a.path i = f.path i := by rw [Floor.path, hstage]; rfl
  have htracker : a.tracker i = f.tracker i := by rw [Floor.tracker, hstage]; rfl
  have honly := a.settlePath_pathOnly i
  have hcues : ∀ x, (a.settlePath i).cue x = a.cue x := fun x => by rw [Floor.cue, honly.cues.1]; rfl
  refine ⟨honly.cues.2.trans hmonitor, fun x => (hcues x).trans (hcue x), honly.notices.trans hnotices, ?_, ?_⟩
  · obtain ⟨q, c, hc, hsettle⟩ := honly
    refine ⟨c, fun x => htracker ▸ hc x, ?_⟩
    rw [hsettle, Floor.runner, Floor.modStage_stage]
    change ({ a.runner i with runs := (a.runner i).runs.map c } : Runner) = _
    rw [hrunner]
  · intro t s
    have hkeeps : (f.stage i).KeepsPath (a.stage i) := by
      rw [hstage]
      refine .of_claims rfl rfl fun y hy hpunch => ?_
      obtain hy | hy := List.mem_append.1 hy
      · exact ⟨y, hy, hpunch⟩
      · obtain ⟨x, -, rfl⟩ := List.mem_map.1 hy
        exact absurd rfl hpunch
    obtain ⟨hsettled, hafter⟩ := Floor.settlePath_settled (hkeeps.table t) (hkeeps.stand t s)
    have hrequest : a.recordRequest i = f.recordRequest i := by
      rw [Floor.recordRequest, hrunner]
      exact any_punch_append_freshRun f _ _ _
    have hsame : ∀ x, (a.cue x).map Cue.settled = (f.cue x).map Cue.settled := fun x => by
      rw [hcue, Option.map_map]
      rfl
    refine ⟨by rw [hsettled, hrunner], ?_⟩
    rw [hafter, hrequest, Floor.demandNow_eq, Floor.demands_congr hsame (by rw [hrunner]) hpath htracker, hrunner, hpath,
      hnow, Floor.gapCounts, hpath, htracker]
    rfl

variable {reel : Reel} (hreel : f.selectedOpenReel i = some reel) (horder : reel.order.Nodup)
  (hlength : (f.runner i).runs.length ≤ 8)
include hreel horder hlength

theorem Floor.arm_arms : f.Arms (f.arm i).1 i (f.armed i (f.tracker i).position reel.order)
    (f.starves i (f.tracker i).position reel.order) ∧
    (f.arm i).2 = f.starves i (f.tracker i).position reel.order := by
  rw [Floor.arm_eq hreel horder hlength]
  refine ⟨?_, rfl⟩
  have hlive := Floor.armed_live (f := f) (i := i) (p := (f.tracker i).position) (order := reel.order)
  obtain ⟨hmonitor, hcue, hnotices, hrunner, hsettled⟩ := Floor.armCues_arms hlive
  cases f.starves i (f.tracker i).position reel.order with
  | true =>
    exact ⟨hmonitor, hcue, congrArg (·.set (Notice.ofStage i .cueStarved).index true) hnotices, hrunner, hsettled⟩
  | false => exact ⟨hmonitor, hcue, hnotices, hrunner, hsettled⟩

end Arms

end Sys2Proof.Machine
end

section
/-! A boundary in the steps of R107: the reel chosen, a chase stopped or begun, blanking and hold-off counted, and what goes
to the monitor unit and the fault logic (R103, R110, R111, R128, R149; log 28). -/

namespace Sys2Proof.Machine

/-! ## The reel chosen (R110, R111) -/

/-- The OPEN reel of a selection, where it has one, is at the rate of a tracker (R111). -/
def Floor.agreesWith (f : Floor) (rate : Rate) (chosen : Option Nat) : Bool :=
  match chosen.bind f.reel with
  | some reel => decide (reel.state = .reelOpened → reel.rate = rate)
  | none => true

/-- The slot that a boundary leaves selected: in AUTO mode that of the auto reel (R110). -/
def Floor.ChoosesAt (f : Floor) (i : Fin 4) (chosen : Option Nat) : Prop :=
  ((f.runner i).mode = .manual → chosen = (f.runner i).selected) ∧ ((f.runner i).mode = .auto → chosen = f.autoReel i)

/-- A runner that takes its working cast and a selection at a boundary (R74, R110). -/
def Runner.choosing (cast : Podiums) (chosen : Option Nat) (r : Runner) : Runner :=
  { r with workingCast := cast, selected := chosen }

/-- A stage whose runner takes its working cast and a selection at a boundary. -/
def Floor.choosing (f : Floor) (i : Fin 4) (chosen : Option Nat) : Floor := f.modRunner i (.choosing f.casts[i] chosen)

section Choice

variable {f : Floor} {i : Fin 4} {chosen : Option Nat}

/-- The auto reel is the OPEN one of the position's hours (R110). -/
theorem Floor.autoReel_eq (hwf : Table.WF 32 f.reels) (h : ∀ slot, chosen = some slot ↔ ∃ reel,
    f.reel slot = some reel ∧ reel.state = .reelOpened ∧
      reel.number = (labelOf (f.tracker i).rate (f.tracker i).position).hours) : chosen = f.autoReel i := by
  have hreel : ∀ slot reel, f.reel slot = some reel ↔ (slot, reel) ∈ f.reels := Table.find_eq_some_iff hwf
  unfold Floor.autoReel
  dsimp only
  cases hfind : f.reels.find? fun e =>
      e.2.number == (labelOf (f.tracker i).rate (f.tracker i).position).hours && e.2.state == .reelOpened with
  | some e =>
    have hauto := List.find?_some hfind
    rw [Bool.and_eq_true, beq_iff_eq, beq_iff_eq] at hauto
    exact (h e.1).2 ⟨e.2, (hreel e.1 e.2).2 (List.mem_of_find?_eq_some hfind), hauto.2, hauto.1⟩
  | none =>
    cases hc : chosen with
    | none => rfl
    | some slot =>
      obtain ⟨reel, hr, hopen, hnumber⟩ := (h slot).1 hc
      have hnone := List.find?_eq_none.1 hfind (slot, reel) ((hreel slot reel).1 hr)
      rw [hopen, hnumber, beq_self_eq_true] at hnone
      exact absurd rfl hnone

variable (f i chosen)

theorem Floor.choosing_runner : (f.choosing i chosen).runner i = (f.runner i).choosing f.casts[i] chosen := by
  rw [Floor.choosing, Floor.modRunner_runner]

theorem Floor.choosing_tracker : (f.choosing i chosen).tracker i = f.tracker i := Floor.modRunner_tracker ..

theorem Floor.choosing_path : (f.choosing i chosen).path i = f.path i := f.modRunner_path i _

variable {f i chosen}

/-- The first two steps: the working cast, and the choice, whose change stops a chase (R74, R110). -/
theorem Floor.selectAuto_takeCast (h : f.ChoosesAt i chosen) : (f.takeCast i).selectAuto i =
    if chosen = (f.runner i).selected then f.choosing i chosen else (f.choosing i chosen).stopChase i := by
  obtain ⟨hmanual, hauto⟩ := h
  have hrunner : (f.takeCast i).runner i = { f.runner i with workingCast := f.casts[i] } := by
    rw [Floor.takeCast, Floor.modRunner_runner]
  have hreel : (f.takeCast i).autoReel i = f.autoReel i := by
    rw [Floor.autoReel, Floor.autoReel, Floor.takeCast_tracker]
    rfl
  have hcast : chosen = (f.runner i).selected → f.takeCast i = f.choosing i chosen := fun hsame => by
    rw [hsame]
    exact Floor.modStage_congr f i (fun st => { st with runner := { st.runner with workingCast := f.casts[i] } })
      (fun st => { st with runner := st.runner.choosing f.casts[i] (f.runner i).selected }) rfl
  rw [Floor.selectAuto, hreel, hrunner]
  dsimp only
  cases hmode : (f.runner i).mode with
  | manual =>
    rw [if_pos (hmanual hmode)]
    exact hcast (hmanual hmode)
  | auto =>
    rw [← hauto hmode]
    by_cases hsame : chosen = (f.runner i).selected
    · rw [if_pos hsame, if_neg (by simp [hsame])]
      exact hcast hsame
    · rw [if_neg hsame, if_pos (by simpa using Ne.symm hsame)]
      refine congrArg (Floor.stopChase · i) ?_
      rw [Floor.takeCast, Floor.modRunner, Floor.modRunner, Floor.modStage_modStage]
      rfl

theorem Floor.selectedOpenReel_of {g : Floor} {slot : Nat} {reel : Reel} (hselected : (g.runner i).selected = some slot)
    (hreel : g.reel slot = some reel) (hopen : reel.state = .reelOpened) : g.selectedOpenReel i = some reel := by
  simp [Floor.selectedOpenReel, hselected, hreel, hopen]

/-- The rates disagree where the OPEN reel of the choice is at another rate (R111). -/
theorem Floor.ratesDisagree_eq {g : Floor} (hselected : (g.runner i).selected = chosen) (hreels : g.reels = f.reels)
    (htracker : g.tracker i = f.tracker i) : g.ratesDisagree i = !f.agreesWith (f.tracker i).rate chosen := by
  have hreel : ∀ slot, g.reel slot = f.reel slot := fun slot => by rw [Floor.reel, Floor.reel, hreels]
  unfold Floor.ratesDisagree Floor.selectedOpenReel Floor.agreesWith
  rw [hselected, htracker]
  cases chosen with
  | none => rfl
  | some slot =>
    rw [Option.bind_some, ← hreel slot]
    dsimp only
    cases g.reel slot with
    | none => rfl
    | some reel =>
      by_cases hopen : reel.state = .reelOpened
      · simp [hopen, bne, beq_eq_decide]
      · simp [hopen]

theorem Floor.choosing_ratesDisagree :
    (f.choosing i chosen).ratesDisagree i = !f.agreesWith (f.tracker i).rate chosen :=
  Floor.ratesDisagree_eq (by rw [Floor.choosing_runner]; rfl) rfl (f.choosing_tracker i chosen)

end Choice

/-! ## The steps after the choice -/

/-- Steps 3 to 6 of a boundary (R107): the stage, and the starved mark. -/
def Floor.boundarySteps (f : Floor) (i : Fin 4) (wasStandby : Bool) : Floor × Bool :=
  let f := f.chaseTest i wasStandby
  let arms := (f.runner i).state == .chasing
  let f := f.countBlanking i
  let armed := if arms then f.arm i else (f, false)
  (armed.1.countHold i, armed.2)

/-- What a boundary does by the state that its chase test left (R107, R128, R149). -/
def Floor.afterTest (f : Floor) (i : Fin 4) : Floor × Bool :=
  match (f.runner i).state with
  | .chasing => f.arm i
  | .blanked => (f.countBlanking i, false)
  | .hold => (f.countHold i, false)
  | _ => (f, false)

section Steps

variable (f : Floor) (i : Fin 4)

theorem Floor.boundary_eq : f.boundary i =
    let a := ((f.takeCast i).selectAuto i).boundarySteps i ((f.runner i).state == .standby)
    (a.1.presentBoundary i a.2).boundaryOccurrences i := rfl

theorem Floor.settlePath_state : ((f.settlePath i).runner i).state = (f.runner i).state ∧
    ((f.settlePath i).runner i).selected = (f.runner i).selected := by
  rw [Floor.settlePath_runner]
  split
  · exact ⟨rfl, rfl⟩
  · exact ⟨rfl, rfl⟩

theorem Floor.arm_state : ((f.arm i).1.runner i).state = (f.runner i).state ∧
    ((f.arm i).1.runner i).selected = (f.runner i).selected := by
  have hfold : ∀ (l : List Nat) (acc : Floor × Bool) (p : Nat),
      ((l.foldl (armOne i p) acc).1.runner i).state = (acc.1.runner i).state ∧
      ((l.foldl (armOne i p) acc).1.runner i).selected = (acc.1.runner i).selected := fun l => by
    induction l with
    | nil => exact fun _ _ => ⟨rfl, rfl⟩
    | cons h l ih =>
      intro acc p
      obtain ⟨hstate, hselected⟩ := ih (armOne i p acc h) p
      obtain ⟨hstate', hselected'⟩ := armOne_runner i p acc h
      exact ⟨hstate.trans hstate', hselected.trans hselected'⟩
  unfold Floor.arm
  split
  · exact ⟨rfl, rfl⟩
  · next reel _ =>
    obtain ⟨hstate, hselected⟩ := hfold reel.order (f, false) (f.tracker i).position
    obtain ⟨hstate', hselected'⟩ :=
      (reel.order.foldl (armOne i (f.tracker i).position) (f, false)).1.settlePath_state i
    dsimp only
    split
    · exact ⟨hstate'.trans hstate, hselected'.trans hselected⟩
    · exact ⟨hstate'.trans hstate, hselected'.trans hselected⟩

theorem Floor.countBlanking_of_not {f : Floor} {i : Fin 4} (h : (f.runner i).state ≠ .blanked) :
    f.countBlanking i = f := if_neg h

theorem Floor.countHold_of_not {f : Floor} {i : Fin 4} (h : (f.runner i).state ≠ .hold) : f.countHold i = f :=
  if_neg (by simp [h])

theorem Floor.countBlanking_blanked {f : Floor} {i : Fin 4} (h : (f.runner i).state = .blanked) :
    (f.countBlanking i).runner i = { f.runner i with
      blankingCount := (f.runner i).blankingCount - 1
      state := if (f.runner i).blankingCount ≤ 1 then .chasing else .blanked } := by
  rw [Floor.countBlanking, if_pos h, Floor.modRunner_runner]

/-- No two of the steps 4 to 6 meet one state (R107). -/
theorem Floor.boundarySteps_eq (wasStandby : Bool) :
    f.boundarySteps i wasStandby = (f.chaseTest i wasStandby).afterTest i := by
  unfold Floor.boundarySteps Floor.afterTest
  generalize f.chaseTest i wasStandby = g
  dsimp only
  cases hs : (g.runner i).state with
  | chasing =>
    have hhold : ((g.arm i).1.runner i).state ≠ .hold := by rw [(g.arm_state i).1, hs]; nofun
    rw [Floor.countBlanking_of_not (by rw [hs]; nofun), beq_self_eq_true, if_pos rfl, Floor.countHold_of_not hhold]
  | blanked =>
    have hhold : ((g.countBlanking i).runner i).state ≠ .hold := by
      rw [Floor.countBlanking_blanked hs]
      dsimp only
      split <;> nofun
    rw [if_neg (by nofun), Floor.countHold_of_not hhold]
  | hold => rw [Floor.countBlanking_of_not (by rw [hs]; nofun), if_neg (by nofun)]
  | standby | halted | offline =>
    rw [Floor.countBlanking_of_not (by rw [hs]; nofun), if_neg (by nofun), Floor.countHold_of_not (by rw [hs]; nofun)]

theorem Floor.stopChase_selected : ((f.stopChase i).runner i).selected = (f.runner i).selected := by
  unfold Floor.stopChase
  split
  · rw [Floor.leaveWork_runner]
  · rfl

theorem Floor.chaseTest_selected (b : Bool) : ((f.chaseTest i b).runner i).selected = (f.runner i).selected := by
  unfold Floor.chaseTest
  split
  · split
    · rw [Floor.modRunner_runner]
    · rfl
  · split
    · exact f.stopChase_selected i
    · rfl

theorem Floor.afterTest_selected : ((f.afterTest i).1.runner i).selected = (f.runner i).selected := by
  unfold Floor.afterTest
  split
  · exact (f.arm_state i).2
  · next hs => rw [Floor.countBlanking_blanked hs]
  · unfold Floor.countHold
    dsimp only
    split
    · rw [Floor.modRunner_runner]
    · rfl
  · rfl

theorem Floor.boundarySteps_selected (b : Bool) :
    ((f.boundarySteps i b).1.runner i).selected = (f.runner i).selected := by
  rw [Floor.boundarySteps_eq, Floor.afterTest_selected, Floor.chaseTest_selected]

theorem Floor.boundarySteps_tracker (b : Bool) : (f.boundarySteps i b).1.tracker i = f.tracker i := by
  unfold Floor.boundarySteps
  dsimp only
  rw [Floor.countHold_tracker]
  split
  · rw [Floor.arm_tracker, Floor.countBlanking_tracker, Floor.chaseTest_tracker]
  · rw [Floor.countBlanking_tracker, Floor.chaseTest_tracker]

theorem Floor.boundarySteps_stageEvent (b : Bool) : Floor.StageEvent i f (f.boundarySteps i b).1 := by
  refine (f.chaseTest_stageEvent i b).trans ((Floor.countBlanking_stageEvent _ i).trans ?_)
  unfold Floor.boundarySteps
  dsimp only
  refine .trans ?_ (Floor.countHold_stageEvent _ i)
  split
  · exact Floor.arm_stageEvent _ i
  · exact .refl _ i

end Steps

/-! ## The cases of a boundary -/

section Cases

variable {f : Floor} {i : Fin 4}

/-- A chase that met another rate stops, and the boundary does no more (R111). -/
theorem Floor.boundarySteps_stops (hw : (f.runner i).state.working = true) (hrate : f.ratesDisagree i = true) :
    f.boundarySteps i false = (f.leaveWork i .standby (f.tracker i).position, false) := by
  have htest : f.chaseTest i false = f.leaveWork i .standby (f.tracker i).position := by
    rw [Floor.chaseTest, if_neg Bool.false_ne_true, hw, hrate, Bool.and_self, if_pos rfl, Floor.stopChase_working f hw]
  rw [Floor.boundarySteps_eq, htest, Floor.afterTest, Floor.leaveWork_runner]

/-- A runner that does not work, and was not in STANDBY at the boundary, meets no chase test (R103). -/
theorem Floor.boundarySteps_idle (hw : (f.runner i).state.working = false) :
    f.boundarySteps i false = f.afterTest i := by
  rw [Floor.boundarySteps_eq, Floor.chaseTest, if_neg Bool.false_ne_true, hw, if_neg (by simp)]

theorem Floor.boundarySteps_agrees (hrate : f.ratesDisagree i = false) : f.boundarySteps i false = f.afterTest i := by
  rw [Floor.boundarySteps_eq, Floor.chaseTest, if_neg Bool.false_ne_true, hrate, Bool.and_false, if_neg Bool.false_ne_true]

theorem Floor.boundarySteps_chases (hs : (f.runner i).state = .standby) (hc : f.chaseConditions i = true) :
    f.boundarySteps i true = (f.modRunner i fun r => { r with state := .chasing }).arm i := by
  have htest : f.chaseTest i true = f.modRunner i fun r => { r with state := .chasing } := by
    rw [Floor.chaseTest, if_pos rfl, if_pos (by simp [hs, hc])]
  rw [Floor.boundarySteps_eq, htest, Floor.afterTest, Floor.modRunner_runner]

theorem Floor.boundarySteps_stands (hs : (f.runner i).state = .standby) (hc : f.chaseConditions i = false) :
    f.boundarySteps i true = (f, false) := by
  have htest : f.chaseTest i true = f := by
    rw [Floor.chaseTest, if_pos rfl, if_neg (by simp [hc])]
  rw [Floor.boundarySteps_eq, htest, Floor.afterTest, hs]

variable {chosen : Option Nat} (hchosen : f.ChoosesAt i chosen)
include hchosen

/-- A runner that does not work takes its cast and its choice, and goes on with the steps (R110). -/
theorem Floor.selectAuto_idle (hw : (f.runner i).state.working = false) :
    (f.takeCast i).selectAuto i = f.choosing i chosen := by
  have hstop : (f.choosing i chosen).stopChase i = f.choosing i chosen :=
    if_neg (by rw [Floor.choosing_runner]; exact Bool.eq_false_iff.1 hw)
  rw [Floor.selectAuto_takeCast hchosen, hstop, ite_self]

/-- A chase whose reel changes, or whose OPEN reel is at another rate than the tracker, stops (R110, R111). -/
theorem Floor.boundarySteps_unchosen (hw : (f.runner i).state.working = true)
    (hstands : ¬(chosen = (f.runner i).selected ∧ f.agreesWith (f.tracker i).rate chosen = true)) :
    ((f.takeCast i).selectAuto i).boundarySteps i false =
      ((f.choosing i chosen).leaveWork i .standby (f.tracker i).position, false) := by
  have hworking : ((f.choosing i chosen).runner i).state.working = true := by rw [Floor.choosing_runner]; exact hw
  rw [Floor.selectAuto_takeCast hchosen]
  split
  · next hsame =>
    have hdisagree : (f.choosing i chosen).ratesDisagree i = true := by
      rw [Floor.choosing_ratesDisagree, Bool.eq_false_iff.2 fun h => hstands ⟨hsame, h⟩]
      rfl
    rw [Floor.boundarySteps_stops hworking hdisagree, Floor.choosing_tracker]
  · have hrunner := (f.choosing i chosen).leaveWork_runner i .standby (f.tracker i).position
    have hidle : (((f.choosing i chosen).leaveWork i .standby (f.tracker i).position).runner i).state.working = false := by
      rw [hrunner]; rfl
    rw [Floor.stopChase_working _ hworking, Floor.choosing_tracker, Floor.boundarySteps_idle hidle, Floor.afterTest, hrunner]

theorem Floor.boundarySteps_chosen (hsame : chosen = (f.runner i).selected)
    (hrate : f.agreesWith (f.tracker i).rate chosen = true) :
    ((f.takeCast i).selectAuto i).boundarySteps i false = (f.choosing i chosen).afterTest i := by
  rw [Floor.selectAuto_takeCast hchosen, if_pos hsame]
  refine Floor.boundarySteps_agrees ?_
  rw [Floor.choosing_ratesDisagree, hrate]
  rfl

end Cases

/-! ## The loss of the runs of a stopped chase -/

theorem Floor.choosing_losesRuns (f : Floor) (i : Fin 4) (chosen : Option Nat) (e : Nat) :
    f.LosesRuns ((f.choosing i chosen).leaveWork i .standby e) i e := by
  refine (Floor.leaveWork_losesRuns _ i _ _).of_agree rfl rfl rfl (fun j => ?_) ?_ ?_ ?_ ?_
  · by_cases hj : j = i
    · rw [hj, Floor.choosing_runner]; rfl
    · rw [Floor.runner, Floor.choosing, f.modRunner_stage_ne i j _ hj, Floor.runner]
  · rw [Floor.choosing_runner]; rfl
  · rw [Floor.choosing_path]
  · rw [Floor.choosing, Floor.modRunner_overlay]
  · rw [Floor.choosing_tracker]

end Sys2Proof.Machine
end

section
/-! A boundary that arms: the chase that it begins or goes on with, and what the armed cues make of the stage (R103, R115 to
R117, R134, R135; log 41). -/

namespace Sys2Proof.Machine

/-! ## A chase at a boundary -/

/-- A stage that chases the choice of a boundary (R103). -/
def Floor.chasing (f : Floor) (i : Fin 4) (chosen : Option Nat) : Floor :=
  (f.choosing i chosen).modRunner i fun r => { r with state := .chasing }

/-- A cue qualifies on a stage at a position value, by the cast map and the run list as they stand (R115). -/
def Floor.armsAt (f : Floor) (i : Fin 4) (p x : Nat) : Bool :=
  match f.cue x with
  | some c => decide (c.enable = .enabled ∧ (c.approval = .printed → (f.runner i).skipPrinted = false) ∧
      c.lock = .unlocked ∧ x ∉ (f.runner i).runs.map Run.handle ∧
      (∃ id ∈ c.fields.characters, ∃ k : Fin 6, f.casts[i][k] = some id) ∧
      c.fields.armPoint ≤ p ∧ p < c.fields.punchInPoint)
  | none => false

section Chase

variable (f : Floor) (i : Fin 4) (chosen : Option Nat)

theorem Floor.chasing_runner : (f.chasing i chosen).runner i =
    { (f.runner i).choosing f.casts[i] chosen with state := .chasing } := by
  rw [Floor.chasing, Floor.modRunner_runner, Floor.choosing_runner]

theorem Floor.chasing_tracker : (f.chasing i chosen).tracker i = f.tracker i := by
  rw [Floor.chasing, Floor.modRunner_tracker, Floor.choosing_tracker]

theorem Floor.chasing_path : (f.chasing i chosen).path i = f.path i := by
  rw [Floor.chasing, Floor.modRunner_path, Floor.choosing_path]

theorem Floor.choosing_chasing (h : (f.runner i).state = .chasing) : f.choosing i chosen = f.chasing i chosen := by
  refine (Floor.modStage_self (f.choosing i chosen) i
    (fun st => { st with runner := { st.runner with state := .chasing } }) ?_).symm
  have hrunner : ((f.choosing i chosen).stage i).runner = (f.runner i).choosing f.casts[i] chosen :=
    f.choosing_runner i chosen
  have hstate : { ((f.choosing i chosen).stage i).runner with state := .chasing } =
      ((f.choosing i chosen).stage i).runner := by
    rw [hrunner, Runner.choosing, h]
  exact congrArg (fun r => { (f.choosing i chosen).stage i with runner := r }) hstate

theorem Podiums.place_isSome_iff (p : Podiums) (id : Nat) : (p.place id).isSome = true ↔ ∃ k : Fin 6, p[k] = some id := by
  rw [Option.isSome_iff_ne_none, ne_eq, Podiums.place_eq_none_iff]
  simp only [not_forall, not_not]

/-- The test of R115 at a boundary, where the working cast is that of the cast map. -/
theorem Floor.qualifiesAt_chasing (p x : Nat) : (f.chasing i chosen).qualifiesAt i p x = f.armsAt i p x := by
  have hcue : (f.chasing i chosen).cue x = f.cue x := rfl
  unfold Floor.qualifiesAt Floor.armsAt
  rw [hcue]
  cases f.cue x with
  | none => rfl
  | some c =>
    have hskip : (c.approval != .printed || !(f.runner i).skipPrinted) = true ↔
        (c.approval = .printed → (f.runner i).skipPrinted = false) := by
      rw [Bool.or_eq_true, bne_iff_ne, Bool.not_eq_true', Decidable.imp_iff_not_or]
    have hruns : (!((f.runner i).runs.any fun y => y.handle == x)) = true ↔ x ∉ (f.runner i).runs.map Run.handle := by
      simp
    have hcast : (c.fields.characters.any fun id => (f.casts[i].place id).isSome) = true ↔
        ∃ id ∈ c.fields.characters, ∃ k : Fin 6, f.casts[i][k] = some id := by
      simp only [List.any_eq_true, Podiums.place_isSome_iff]
    rw [Bool.eq_iff_iff, decide_eq_true_iff]
    unfold Floor.qualifies
    rw [Floor.chasing_runner]
    simp only [Runner.choosing, Bool.and_eq_true, hskip, hruns, hcast, beq_iff_eq, decide_eq_true_eq, and_assoc]

/-- The cues that a boundary of a chase arms (R116). -/
theorem Floor.armed_chasing (p : Nat) (order : List Nat) : (f.chasing i chosen).armed i p order =
    (order.filter (f.armsAt i p)).take (8 - (f.runner i).runs.length) := by
  rw [Floor.armed, funext (f.qualifiesAt_chasing i chosen p), Floor.chasing_runner]
  rfl

theorem Floor.starves_chasing (p : Nat) (order : List Nat) : (f.chasing i chosen).starves i p order =
    decide (8 - (f.runner i).runs.length < (order.filter (f.armsAt i p)).length) := by
  rw [Floor.starves, funext (f.qualifiesAt_chasing i chosen p), Floor.chasing_runner]
  rfl

end Chase

/-! ## What the armed cues make of the stage -/

section Armed

variable {f g : Floor} {i : Fin 4} {chosen : Option Nat} {armed : List Nat} {starved : Bool}
  (a : (f.chasing i chosen).Arms g i armed starved)
include a

/-- The run list keeps its runs in their phases and holds the fresh ones behind them (R116). -/
theorem Floor.Arms.runs : ∃ l : List Run, l.length = (f.runner i).runs.length ∧
    l.map Run.handle = (f.runner i).runs.map Run.handle ∧ l.map Run.phase = (f.runner i).runs.map Run.phase ∧
    g.runner i = { (f.runner i).choosing f.casts[i] chosen with
      state := .chasing, runs := l ++ armed.map (f.freshRun (f.tracker i).position) } := by
  obtain ⟨c, hc, hrunner⟩ := a.runner
  rw [Floor.chasing_tracker] at hc hrunner
  have hkept : ∀ x, (c x).handle = x.handle ∧ (c x).phase = x.phase := fun x => by
    obtain h | ⟨-, late, h⟩ := hc x
    · rw [h]; exact ⟨rfl, rfl⟩
    · rw [h]; simp
  have hfresh : (armed.map (f.freshRun (f.tracker i).position)).map c =
      armed.map (f.freshRun (f.tracker i).position) := by
    rw [List.map_map]
    refine List.map_congr_left fun x _ => ?_
    obtain h | ⟨h, -⟩ := hc (f.freshRun (f.tracker i).position x)
    · exact h
    · cases h
  refine ⟨(f.runner i).runs.map c, List.length_map _, ?_, ?_, ?_⟩
  · rw [List.map_map]
    exact List.map_congr_left fun x _ => (hkept x).1
  · rw [List.map_map]
    exact List.map_congr_left fun x _ => (hkept x).2
  · rw [hrunner, List.map_append, Floor.chasing_runner, ← hfresh]
    rfl

/-- The path takes the demand of the new run list (R134, R135). -/
theorem Floor.Arms.path_settled (t : (f.stage i).PathTable) (s : (f.stage i).ClaimsStand) :
    (g.runner i).runs = (f.runner i).runs ++ armed.map (f.freshRun (f.tracker i).position) ∧
    g.path i = (f.path i).settled f.now (f.gapCounts i) (f.recordRequest i)
      (f.demands i ((f.runner i).runs ++ armed.map (f.freshRun (f.tracker i).position))) := by
  have hrunner := f.chasing_runner i chosen
  have hpath := f.chasing_path i chosen
  have htracker := f.chasing_tracker i chosen
  have hkeeps : (f.stage i).KeepsPath ((f.chasing i chosen).stage i) := by
    have hrunner' : ((f.chasing i chosen).stage i).runner = _ := hrunner
    exact .of_runs (f.chasing_path i chosen) (by rw [hrunner']; rfl) (by rw [hrunner']; rfl)
  have hsettled := a.settled (hkeeps.table t) (hkeeps.stand t s)
  have hdemands := Floor.demands_congr (f := f) (g := f.chasing i chosen) (i := i) (fun _ => rfl) (by rw [hrunner]; rfl)
    hpath htracker
  have hgap : (f.chasing i chosen).gapCounts i = f.gapCounts i := by rw [Floor.gapCounts, hpath, htracker, Floor.gapCounts]
  have hrequest : (f.chasing i chosen).recordRequest i = f.recordRequest i := by
    rw [Floor.recordRequest, hrunner, Floor.recordRequest]
    rfl
  rw [htracker, hpath, hgap, hrequest, hdemands, hrunner] at hsettled
  exact hsettled

end Armed

/-! ## The boundary that arms -/

section Boundary

variable {f : Floor} {i : Fin 4} {chosen : Option Nat} (hchosen : f.ChoosesAt i chosen) {slot : Nat} {reel : Reel}
  (hslot : chosen = some slot) (hreel : f.reel slot = some reel) (hopen : reel.state = .reelOpened)
include hslot hreel hopen

theorem Floor.chasing_selectedOpenReel : (f.chasing i chosen).selectedOpenReel i = some reel :=
  Floor.selectedOpenReel_of (slot := slot) (by rw [Floor.chasing_runner]; exact hslot) hreel hopen

variable (hrate : f.agreesWith (f.tracker i).rate chosen = true)
include hchosen hrate

/-- A chase that stands, and a runner in STANDBY that meets the chase conditions, arm from the reel of the choice (R103,
R115). -/
theorem Floor.boundarySteps_arms
    (hstate : (f.runner i).state = .chasing ∧ chosen = (f.runner i).selected ∨
      (f.runner i).state = .standby ∧ (f.tracker i).state = .locked ∧ (f.tracker i).direction = .forward) :
    ((f.takeCast i).selectAuto i).boundarySteps i ((f.runner i).state == .standby) = (f.chasing i chosen).arm i := by
  obtain ⟨hs, hsame⟩ | ⟨hs, hlocked, hforward⟩ := hstate
  · have hafter : ((f.choosing i chosen).runner i).state = .chasing := by rw [Floor.choosing_runner]; exact hs
    rw [hs, show (RunnerState.chasing == .standby) = false from rfl, Floor.boundarySteps_chosen hchosen hsame hrate,
      Floor.afterTest, hafter, f.choosing_chasing i chosen hs]
  · have hconditions : (f.choosing i chosen).chaseConditions i = true := by
      have hselected : (f.choosing i chosen).selectedOpenReel i = some reel :=
        Floor.selectedOpenReel_of (slot := slot) (by rw [Floor.choosing_runner]; exact hslot) hreel hopen
      rw [Floor.chaseConditions, Floor.choosing_tracker, hselected, Floor.choosing_ratesDisagree, hlocked, hforward, hrate]
      rfl
    rw [hs, beq_self_eq_true, Floor.selectAuto_idle hchosen (by rw [hs]; rfl),
      Floor.boundarySteps_chases (by rw [Floor.choosing_runner]; exact hs) hconditions, Floor.chasing]

end Boundary

/-! ## The boundary that does not -/

section Quiet

variable {f : Floor} {i : Fin 4} {chosen : Option Nat} (hchosen : f.ChoosesAt i chosen)
include hchosen

/-- A runner in STANDBY that meets no chase conditions takes its cast and its choice (R103). -/
theorem Floor.boundarySteps_waits (hs : (f.runner i).state = .standby)
    (hmeets : (f.tracker i).state ≠ .locked ∨ (f.tracker i).direction = .reverse ∨
      f.agreesWith (f.tracker i).rate chosen = false ∨
      ∀ slot reel, chosen = some slot → f.reel slot = some reel → reel.state ≠ .reelOpened) :
    ((f.takeCast i).selectAuto i).boundarySteps i ((f.runner i).state == .standby) = (f.choosing i chosen, false) := by
  have hconditions : (f.choosing i chosen).chaseConditions i = false := by
    rw [Floor.chaseConditions, Floor.choosing_tracker, Floor.choosing_ratesDisagree]
    obtain h | h | h | h := hmeets
    · simp [h]
    · simp [h]
    · simp [h]
    · have hnone : (f.choosing i chosen).selectedOpenReel i = none :=
        Option.eq_none_iff_forall_ne_some.2 fun reel hsome => by
          obtain ⟨slot, hselected, hreel, hopen⟩ := Floor.selectedOpenReel_eq_some hsome
          rw [Floor.choosing_runner] at hselected
          exact h slot reel hselected hreel hopen
      simp [hnone]
  rw [hs, beq_self_eq_true, Floor.selectAuto_idle hchosen (by rw [hs]; rfl),
    Floor.boundarySteps_stands (by rw [Floor.choosing_runner]; exact hs) hconditions]

/-- A BLANKED runner whose choice stands counts down (R128). -/
theorem Floor.boundarySteps_blanked (hs : (f.runner i).state = .blanked) (hsame : chosen = (f.runner i).selected)
    (hrate : f.agreesWith (f.tracker i).rate chosen = true) :
    ((f.takeCast i).selectAuto i).boundarySteps i ((f.runner i).state == .standby) =
      ((f.choosing i chosen).countBlanking i, false) := by
  have hafter : ((f.choosing i chosen).runner i).state = .blanked := by rw [Floor.choosing_runner]; exact hs
  rw [hs, show (RunnerState.blanked == .standby) = false from rfl, Floor.boundarySteps_chosen hchosen hsame hrate,
    Floor.afterTest, hafter]

/-- A runner in HOLD counts its hold-off (R149). -/
theorem Floor.boundarySteps_hold (hs : (f.runner i).state = .hold) :
    ((f.takeCast i).selectAuto i).boundarySteps i ((f.runner i).state == .standby) =
      ((f.choosing i chosen).countHold i, false) := by
  have hafter : ((f.choosing i chosen).runner i).state = .hold := by rw [Floor.choosing_runner]; exact hs
  rw [Floor.selectAuto_idle hchosen (by rw [hs]; rfl), hs, show (RunnerState.hold == .standby) = false from rfl,
    Floor.boundarySteps_idle (by rw [hafter]; rfl), Floor.afterTest, hafter]

theorem Floor.boundarySteps_halted (hs : (f.runner i).state = .halted) :
    ((f.takeCast i).selectAuto i).boundarySteps i ((f.runner i).state == .standby) = (f.choosing i chosen, false) := by
  have hafter : ((f.choosing i chosen).runner i).state = .halted := by rw [Floor.choosing_runner]; exact hs
  rw [Floor.selectAuto_idle hchosen (by rw [hs]; rfl), hs, show (RunnerState.halted == .standby) = false from rfl,
    Floor.boundarySteps_idle (by rw [hafter]; rfl), Floor.afterTest, hafter]

end Quiet

/-- A healthy boundary lowers the hold-off of a runner in HOLD (R149). -/
theorem Floor.countHold_hold {g : Floor} {i : Fin 4} (hs : (g.runner i).state = .hold) :
    (g.countHold i).cues = g.cues ∧ (g.countHold i).path i = g.path i ∧ (g.countHold i).runner i =
      if g.healthy i then { g.runner i with
        holdOff := (g.runner i).holdOff - 1, state := if (g.runner i).holdOff ≤ 1 then .standby else .hold }
      else g.runner i := by
  cases hhealthy : g.healthy i with
  | true =>
    have hcount : g.countHold i = _ := if_pos (by rw [hs, hhealthy]; rfl)
    rw [hcount]
    exact ⟨rfl, Floor.modRunner_path .., Floor.modRunner_runner ..⟩
  | false =>
    have hcount : g.countHold i = g := if_neg (by rw [hhealthy, Bool.and_false]; nofun)
    rw [hcount]
    exact ⟨rfl, rfl, rfl⟩

theorem Floor.healthy_choosing (f : Floor) (i : Fin 4) (chosen : Option Nat) : (f.choosing i chosen).healthy i = true ↔
    (f.tracker i).state = .locked ∧ (f.tracker i).direction = .forward ∧ (f.tracker i).inSpeed = true ∧
      f.agreesWith (f.tracker i).rate chosen = true := by
  rw [Floor.healthy, Floor.choosing_tracker, Floor.choosing_ratesDisagree]
  simp only [Bool.and_eq_true, beq_iff_eq, Bool.not_not, and_assoc]

/-! ## The occurrences of a boundary (log 28) -/

theorem Floor.boundaryOccurrences_eq (g : Floor) (i : Fin 4) {agrees : Bool} (hrate : g.ratesDisagree i = !agrees) :
    g.boundaryOccurrences i =
      let tested := if (g.tracker i).state = .locked ∧ agrees = false then g.occurrence i .rateMismatch else g
      if (g.tracker i).state = .locked ∧ (g.tracker i).inSpeed = false then tested.occurrence i .offSpeed else tested := by
  unfold Floor.boundaryOccurrences
  rw [hrate]
  by_cases hlocked : (g.tracker i).state = .locked
  · have htracker : (if agrees = false then g.occurrence i .rateMismatch else g).tracker i = g.tracker i := by
      split
      · exact Floor.occurrence_tracker ..
      · rfl
    simp only [hlocked, ↓reduceIte, true_and, Bool.not_eq_true', htracker]
    cases (g.tracker i).inSpeed with
    | true => rfl
    | false => rfl
  · simp only [hlocked, false_and, ↓reduceIte]

/-- Settles O48: the steps of R107 by the state in which the runner meets the boundary. -/
theorem boundaryArmsCues : Obligations.BoundaryArmsCues := by
  intro f i chosen r t g agrees cast stands hwf hlength hmanual hauto
  have hchosen : f.ChoosesAt i chosen := ⟨hmanual, fun hmode => Floor.autoReel_eq hwf (hauto hmode)⟩
  obtain ⟨a, ha⟩ : ∃ a, a = ((f.takeCast i).selectAuto i).boundarySteps i ((f.runner i).state == .standby) := ⟨_, rfl⟩
  have hevent : Floor.StageEvent i f a.1 := ha ▸ (f.takeCast_stageEvent i).trans
    ((Floor.selectAuto_stageEvent _ i).trans (Floor.boundarySteps_stageEvent _ i _))
  have htracker : a.1.tracker i = t := by
    rw [ha, Floor.boundarySteps_tracker, Floor.selectAuto_tracker, Floor.takeCast_tracker]
  have hselected : (a.1.runner i).selected = chosen := by
    rw [ha, Floor.boundarySteps_selected, Floor.selectAuto_takeCast hchosen]
    split
    · rw [Floor.choosing_runner]; rfl
    · rw [Floor.stopChase_selected, Floor.choosing_runner]; rfl
  have hboundary : g = (a.1.presentBoundary i a.2).boundaryOccurrences i := by rw [ha]; exact f.boundary_eq i
  refine ⟨a.1, a.2, ?_, htracker, hevent.stages, fun hw hstands => ?_,
    fun slot reel hslot hreel hopen hagrees horder hstate => ?_, fun hs hmeets => ?_, fun hs hstands => ?_, fun hs => ?_,
    fun hs => ?_⟩
  · have hrate : (a.1.presentBoundary i a.2).ratesDisagree i = !agrees :=
      Floor.ratesDisagree_eq hselected hevent.reels htracker
    have htracker' : (a.1.presentBoundary i a.2).tracker i = t := htracker
    have hafter := Floor.boundaryOccurrences_eq _ i hrate
    rw [htracker'] at hafter
    exact hboundary.trans hafter
  · have hidle : ((f.runner i).state == .standby) = false := beq_eq_false_iff_ne.2 fun hs => by
      rw [show r.state = .standby from hs] at hw; cases hw
    rw [hidle, Floor.boundarySteps_unchosen hchosen hw hstands] at ha
    subst ha
    refine ⟨rfl, ?_, f.choosing_losesRuns i chosen _⟩
    rw [Floor.leaveWork_runner, Floor.choosing_runner]
    rfl
  · intro p qualifies armed fresh mark
    rw [Floor.boundarySteps_arms hchosen hslot hreel hopen hagrees hstate] at ha
    obtain ⟨harms, hstarved⟩ := Floor.arm_arms (f.chasing_selectedOpenReel (chosen := chosen) hslot hreel hopen) horder
      (by rw [Floor.chasing_runner]; exact hlength)
    rw [Floor.chasing_tracker, Floor.starves_chasing, ← ha] at hstarved
    rw [Floor.chasing_tracker, Floor.armed_chasing, Floor.starves_chasing, ← hstarved, ← ha] at harms
    obtain ⟨l, hl, hhandles, hphases, hrunner⟩ := harms.runs
    refine ⟨hstarved, harms.monitor, congrArg Runner.state hrunner, congrArg Runner.workingCast hrunner, hselected, ?_, ?_,
      ?_, harms.cue, harms.path_settled, harms.notices⟩
    · rw [hrunner, List.map_append, hhandles, List.map_map]
      exact congrArg (_ ++ ·) (List.map_id _)
    · rw [hrunner, List.map_append, hphases, List.map_map]
      rfl
    · rw [hrunner]
      exact List.drop_left' hl
  · rw [Floor.boundarySteps_waits hchosen hs hmeets] at ha
    subst ha
    exact ⟨rfl, rfl, f.choosing_path i chosen, f.choosing_runner i chosen⟩
  · rw [Floor.boundarySteps_blanked hchosen hs hstands.1 hstands.2] at ha
    subst ha
    have hafter : ((f.choosing i chosen).runner i).state = .blanked := by rw [Floor.choosing_runner]; exact hs
    have hcount : (f.choosing i chosen).countBlanking i = _ := if_pos hafter
    have hrunner := Floor.countBlanking_blanked hafter
    rw [Floor.choosing_runner] at hrunner
    refine ⟨rfl, ?_, ?_, hrunner⟩
    · rw [hcount]; rfl
    · rw [hcount]
      exact (Floor.modRunner_path ..).trans (f.choosing_path i chosen)
  · rw [Floor.boundarySteps_hold hchosen hs] at ha
    subst ha
    have hafter : ((f.choosing i chosen).runner i).state = .hold := by rw [Floor.choosing_runner]; exact hs
    obtain ⟨hcues, hpath, hrunner⟩ := Floor.countHold_hold hafter
    refine ⟨rfl, hcues, hpath.trans (f.choosing_path i chosen), hrunner.trans ?_⟩
    rw [Floor.choosing_runner]
    exact if_congr (f.healthy_choosing i chosen) rfl rfl
  · rw [Floor.boundarySteps_halted hchosen hs] at ha
    subst ha
    exact ⟨rfl, rfl, f.choosing_path i chosen, f.choosing_runner i chosen⟩

end Sys2Proof.Machine
end

section
/-! The runs of a stage at an accepted jump: kept or aborted one after another, with their cues, their takes and their marks
(R127, R122, R175, R186). -/

namespace Sys2Proof.Machine

/-! ## One run -/

/-- A jump to p keeps a run (R127). -/
def Floor.keepsAtJump (f : Floor) (p : Nat) (r : Run) : Bool :=
  match f.cue r.handle with
  | some c => decide (c.fields.armPoint ≤ p) && decide (p < c.fields.punchInPoint) && r.punch != .punched
  | none => false

/-- A run that a jump to p keeps (R127). -/
def Floor.keptAtJump (f : Floor) (p : Nat) (x : Run) : Run :=
  { x with
    punch := .unpunched
    claim := none
    phase := match f.cue x.handle with
      | some c => c.fields.phaseAt p
      | none => x.phase }

/-- The run of a handle, kept by a jump; it loses its mark (R127, R175). -/
def Floor.keepRun (f : Floor) (i : Fin 4) (p h : Nat) : Floor :=
  (f.modRunner i fun q => { q with runs := q.runs.map fun x => if x.handle = h then f.keptAtJump p x else x }).dropMark i h

section OneRun

variable (f : Floor) (i : Fin 4) (p : Nat)

theorem Floor.keptAtJump_eq (x : Run) : f.keptAtJump p x = { x with
    punch := .unpunched, claim := none, phase := ((f.cue x.handle).map fun c => c.fields.phaseAt p).getD x.phase } := by
  unfold Floor.keptAtJump
  cases f.cue x.handle <;> rfl

theorem Floor.runAtJump_eq (r : Run) : f.runAtJump i p r =
    if f.keepsAtJump p r then f.keepRun i p r.handle else f.abortRun i r (f.runner i).lastPosition := rfl

/-- What decides of a jump does not turn on what the jump leaves of the cues. -/
theorem Floor.keepsAtJump_congr {f g : Floor} (a : ∀ h, (g.cue h).map Cue.settled = (f.cue h).map Cue.settled) :
    g.keepsAtJump p = f.keepsAtJump p ∧ g.keptAtJump p = f.keptAtJump p := by
  have hfields : ∀ h, (g.cue h).map Cue.fields = (f.cue h).map Cue.fields := fun h => by
    have hmap := congrArg (Option.map fun x : Nat × CueFields × Enable × Approval × Lock => x.2.1) (a h)
    rw [Option.map_map, Option.map_map] at hmap
    exact hmap
  have hkeeps : ∀ (e : Floor) (r : Run), e.keepsAtJump p r = match (e.cue r.handle).map Cue.fields with
      | some c => decide (c.armPoint ≤ p) && decide (p < c.punchInPoint) && r.punch != .punched
      | none => false := fun e r => by
    unfold Floor.keepsAtJump
    cases e.cue r.handle <;> rfl
  have hphase : ∀ (e : Floor) (h : Nat), ((e.cue h).map fun c => c.fields.phaseAt p) =
      ((e.cue h).map Cue.fields).map fun c => c.phaseAt p := fun e h => by rw [Option.map_map]; rfl
  refine ⟨funext fun r => ?_, funext fun x => ?_⟩
  · rw [hkeeps, hkeeps, hfields]
  · rw [Floor.keptAtJump_eq, Floor.keptAtJump_eq, hphase, hphase, hfields]

theorem Floor.runAtJump_same (r : Run) : (f.runAtJump i p r).keepsAtJump p = f.keepsAtJump p ∧
    (f.runAtJump i p r).keptAtJump p = f.keptAtJump p :=
  Floor.keepsAtJump_congr p (f.runAtJump_stageEvent i p r).cue

/-- A stage whose run list and flash marks changed at a jump. -/
def Stage.jumped (st : Stage) (runs : List Run) (marks : List Nat) : Stage :=
  { st with runner := { st.runner with runs := runs }, overlay := { st.overlay with flashMarks := marks } }

theorem Stage.jumped_jumped (st : Stage) (runs runs' : List Run) (marks marks' : List Nat) :
    (st.jumped runs marks).jumped runs' marks' = st.jumped runs' marks' := rfl

theorem Stage.jumped_flashMarks (st : Stage) (runs : List Run) (marks : List Nat) :
    (st.jumped runs marks).overlay.flashMarks = marks := rfl

theorem Floor.keepRun_stage (h : Nat) : (f.keepRun i p h).stage i = (f.stage i).jumped
    ((f.runner i).runs.map fun x => if x.handle = h then f.keptAtJump p x else x)
    ((f.overlay i).flashMarks.filter fun x => x != h) := by
  rw [Floor.keepRun, Floor.dropMark, Floor.modOverlay_stage, Floor.modRunner_stage]
  rfl

/-- A run of a list that names it once, at a jump: the others stand (R127). -/
theorem Floor.runAtJump_stage {r : Run} {front back : List Run} (hruns : (f.runner i).runs = front ++ r :: back)
    (hnodup : ((front ++ r :: back).map Run.handle).Nodup) : (f.runAtJump i p r).stage i = (f.stage i).jumped
      (front ++ (if f.keepsAtJump p r then [f.keptAtJump p r] else []) ++ back)
      ((f.overlay i).flashMarks.filter fun x => x != r.handle) := by
  have hne : ∀ x ∈ front ++ back, x.handle ≠ r.handle := by
    rw [List.map_append, List.map_cons, List.nodup_middle, List.nodup_cons] at hnodup
    intro x hx heq
    refine hnodup.1 ?_
    rw [← List.map_append, ← heq]
    exact List.mem_map_of_mem hx
  have hfront : ∀ x ∈ front, x.handle ≠ r.handle := fun x hx => hne x (List.mem_append_left _ hx)
  have hback : ∀ x ∈ back, x.handle ≠ r.handle := fun x hx => hne x (List.mem_append_right _ hx)
  rw [Floor.runAtJump_eq]
  cases f.keepsAtJump p r with
  | true =>
    have hstand : ∀ l : List Run, (∀ x ∈ l, x.handle ≠ r.handle) →
        (l.map fun x => if x.handle = r.handle then f.keptAtJump p x else x) = l := fun l hl =>
      (List.map_congr_left fun x hx => if_neg (hl x hx)).trans (List.map_id' l)
    rw [if_pos rfl, Floor.keepRun_stage, hruns, List.map_append, List.map_cons, hstand front hfront, hstand back hback,
      if_pos rfl, if_pos rfl, List.append_assoc, List.singleton_append]
  | false =>
    have hstand : ∀ l : List Run, (∀ x ∈ l, x.handle ≠ r.handle) → (l.filter fun x => x.handle != r.handle) = l :=
      fun l hl => List.filter_eq_self.2 fun x hx => bne_iff_ne.2 (hl x hx)
    have hgone : ((f.stage i).runner.runs.filter fun x => x.handle != r.handle) = front ++ back := by
      rw [show (f.stage i).runner.runs = _ from hruns, List.filter_append, List.filter_cons, hstand front hfront,
        hstand back hback, if_neg (by simp)]
    rw [if_neg Bool.false_ne_true, Floor.abortRun_stage, Stage.withoutRun, hgone, if_neg Bool.false_ne_true,
      List.append_nil]
    rfl

end OneRun

/-! ## The runs of the list -/

/-- Runs of a list at a jump to p, one after another (R127). -/
def Floor.jumpRuns (f : Floor) (i : Fin 4) (p : Nat) (l : List Run) : Floor := l.foldl (fun f r => f.runAtJump i p r) f

section Fold

variable (f : Floor) (i : Fin 4) (p : Nat)

theorem Floor.jumpRuns_stageEvent (l : List Run) : Floor.StageEvent i f (f.jumpRuns i p l) :=
  Floor.StageEvent.foldl f i l _ fun g r => g.runAtJump_stageEvent i p r

/-- The runs that a jump keeps stay in their places, and no run keeps its mark (R127, R175). -/
theorem Floor.jumpRuns_stage (back front : List Run) (hruns : (f.runner i).runs = front ++ back)
    (hnodup : ((front ++ back).map Run.handle).Nodup) : (f.jumpRuns i p back).stage i = (f.stage i).jumped
      (front ++ (back.filter (f.keepsAtJump p)).map (f.keptAtJump p))
      ((f.overlay i).flashMarks.filter fun h => !(back.map Run.handle).contains h) := by
  unfold Floor.jumpRuns
  induction back generalizing f front with
  | nil =>
    have hmarks : ((f.overlay i).flashMarks.filter fun h => !(List.map Run.handle []).contains h) =
        (f.overlay i).flashMarks := List.filter_eq_self.2 fun _ _ => rfl
    rw [List.append_nil] at hruns
    rw [hmarks, List.filter_nil, List.map_nil, List.append_nil, ← hruns]
    rfl
  | cons r back ih =>
    obtain ⟨hkeeps, hkept⟩ := f.runAtJump_same i p r
    obtain ⟨kept, hk⟩ : ∃ kept : List Run, kept = if f.keepsAtJump p r then [f.keptAtJump p r] else [] := ⟨_, rfl⟩
    have hstage := f.runAtJump_stage i p hruns hnodup
    rw [← hk] at hstage
    have hruns' : ((f.runAtJump i p r).runner i).runs = (front ++ kept) ++ back :=
      (congrArg (·.runner.runs) hstage).trans rfl
    have hsub : (kept.map Run.handle).Sublist [r.handle] := by
      rw [hk]
      split
      · exact .refl _
      · exact List.nil_sublist _
    have hnodup' : (((front ++ kept) ++ back).map Run.handle).Nodup := by
      refine hnodup.sublist ?_
      rw [List.map_append, List.map_append, List.map_append, List.map_cons, List.append_assoc]
      exact (List.Sublist.refl _).append (hsub.append (.refl _))
    have hafter := ih (f.runAtJump i p r) (front ++ kept) hruns' hnodup'
    rw [hkeeps, hkept, Floor.overlay, hstage] at hafter
    rw [List.foldl_cons, hafter]
    have hlist : kept ++ (back.filter (f.keepsAtJump p)).map (f.keptAtJump p) =
        ((r :: back).filter (f.keepsAtJump p)).map (f.keptAtJump p) := by
      rw [hk, List.filter_cons]
      split
      · rfl
      · rfl
    have hmarks : (((f.overlay i).flashMarks.filter fun x => x != r.handle).filter fun h =>
        !(back.map Run.handle).contains h) =
        (f.overlay i).flashMarks.filter fun h => !((r :: back).map Run.handle).contains h := by
      rw [List.filter_filter]
      refine List.filter_congr fun h _ => ?_
      rw [List.map_cons, List.contains_cons, Bool.not_or, Bool.and_comm]
      rfl
    rw [Stage.jumped_jumped, Stage.jumped_flashMarks, List.append_assoc front kept, hlist, hmarks]

/-- An aborted run reaches its cue and the monitor unit whatever becomes of the stages. -/
theorem Floor.abortRun_stores {f g : Floor} {i : Fin 4} (r : Run) (e : Nat) (hcues : g.cues = f.cues)
    (hmonitor : g.monitor = f.monitor) : (g.abortRun i r e).cues = (f.abortRun i r e).cues ∧
      (g.abortRun i r e).monitor = (f.abortRun i r e).monitor := by
  refine ⟨?_, ?_⟩
  · have hreport : (g.reportRun i r e .aborted).cues = (f.reportRun i r e .aborted).cues := by
      unfold Floor.reportRun
      split
      · simp only [Floor.takeReport, Floor.countOccurrence_cues, Floor.modCue, hcues]
      · exact hcues
    simp only [Floor.abortRun, Floor.dropRun, Floor.dropMark, Floor.modOverlay_cues, Floor.modCue, Floor.modRunner_cues,
      hreport]
  · rw [Floor.abortRun_monitor, Floor.abortRun_monitor, Floor.countOccurrence, Floor.countOccurrence, Floor.modCounters,
      Floor.modCounters, hmonitor]

/-- The cues and the monitor unit take the aborts of the runs that a jump does not keep, and no more (R122, R127). -/
theorem Floor.jumpRuns_stores (l : List Run) (g : Floor) (hcues : g.cues = f.cues) (hmonitor : g.monitor = f.monitor) :
    let e := (g.runner i).lastPosition
    let gone := l.filter fun r => !f.keepsAtJump p r
    (g.jumpRuns i p l).cues = (gone.foldl (fun f r => f.abortRun i r e) f).cues ∧
      (g.jumpRuns i p l).monitor = (gone.foldl (fun f r => f.abortRun i r e) f).monitor := by
  intro e gone
  unfold Floor.jumpRuns
  induction l generalizing f g with
  | nil => exact ⟨hcues, hmonitor⟩
  | cons r l ih =>
    have hkeeps : g.keepsAtJump p = f.keepsAtJump p :=
      (Floor.keepsAtJump_congr p fun h => by rw [Floor.cue, Floor.cue, hcues]).1
    have hlast : ((g.runAtJump i p r).runner i).lastPosition = e := by
      rw [Floor.runAtJump_eq]
      split
      · rw [Floor.runner, Floor.keepRun_stage]; rfl
      · rw [Floor.runner, Floor.abortRun_stage]; rfl
    rw [List.foldl_cons]
    cases hr : f.keepsAtJump p r with
    | true =>
      have hgone : gone = l.filter fun r => !f.keepsAtJump p r := by
        simp only [gone, List.filter_cons, hr, Bool.not_true, Bool.false_eq_true, ↓reduceIte]
      have hstep : g.runAtJump i p r = g.keepRun i p r.handle := by
        rw [Floor.runAtJump_eq, hkeeps, hr, if_pos rfl]
      have hrest := ih f (g.runAtJump i p r) (by rw [hstep]; exact hcues) (by rw [hstep]; exact hmonitor)
      rw [hlast] at hrest
      rw [hgone]
      exact hrest
    | false =>
      have hgone : gone = r :: l.filter fun r => !f.keepsAtJump p r := by
        simp only [gone, List.filter_cons, hr, Bool.not_false, ↓reduceIte]
      have hstep : g.runAtJump i p r = g.abortRun i r e := by
        rw [Floor.runAtJump_eq, hkeeps, hr, if_neg Bool.false_ne_true]
      obtain ⟨hcues', hmonitor'⟩ := Floor.abortRun_stores (i := i) r e hcues hmonitor
      have hsame : (f.abortRun i r e).keepsAtJump p = f.keepsAtJump p :=
        (Floor.keepsAtJump_congr p (f.abortRun_stageEvent i r e).cue).1
      have hrest := ih (f.abortRun i r e) (g.runAtJump i p r) (by rw [hstep]; exact hcues') (by rw [hstep]; exact hmonitor')
      rw [hlast, hsame] at hrest
      rw [hgone, List.foldl_cons]
      exact hrest

theorem Floor.jumpRuns_notices (l : List Run) : (f.jumpRuns i p l).notices = f.notices := by
  unfold Floor.jumpRuns
  induction l generalizing f with
  | nil => rfl
  | cons r l ih =>
    have hone : (f.runAtJump i p r).notices = f.notices := by
      rw [Floor.runAtJump_eq]
      split
      · rfl
      · exact f.foldl_abortRun_notices i (f.runner i).lastPosition [r]
    exact (ih _).trans hone

end Fold

/-! ## The monitor unit -/

theorem Floor.foldl_abortRun_takes (i : Fin 4) (e : Nat) (l : List Run) (f : Floor) :
    ∃ n, f.monitor.Takes .takesAborted i n (l.foldl (fun f r => f.abortRun i r e) f).monitor := by
  induction l generalizing f with
  | nil => exact ⟨0, .refl i _ _⟩
  | cons r l ih =>
    obtain ⟨n, hn⟩ := ih (f.abortRun i r e)
    have hone : f.monitor.Takes .takesAborted i (if r.punch = .punched then 1 else 0) (f.abortRun i r e).monitor := by
      rw [Floor.abortRun_monitor]
      split
      · exact f.countOccurrence_takes i _
      · exact .refl i _ _
    exact ⟨_, hone.trans i hn⟩

theorem Floor.leaveWork_takes (f : Floor) (i : Fin 4) (n : RunnerState) (e : Nat) :
    ∃ k, f.monitor.Takes .takesAborted i k (f.leaveWork i n e).monitor := by
  obtain ⟨k, hk⟩ := Floor.foldl_abortRun_takes i e ((f.runner i).runs.filter fun _ => true) f
  have hsettle := (Floor.settlePath_pathOnly
    (((f.runner i).runs.filter fun _ => true).foldl (fun f r => f.abortRun i r e) f) i).cues.2
  refine ⟨k, ?_⟩
  rw [← hsettle] at hk
  exact hk

/-- Occurrences of one source leave the counters of another (R186). -/
theorem Monitor.Takes.other {source : CounterSource} {i : Fin 4} {n : Nat} {m m' : Monitor} (h : m.Takes source i n m')
    {k : Fin 8} (hk : m.counters[k].source ≠ source) : m'.counters[k] = m.counters[k] := by
  rw [h.counters, Counter.taken, if_neg hk]

/-- A JUMP_IN_CUE reaches the monitor unit by the takes that it aborts alone (R147, R186). -/
theorem Floor.jumpInCue_takes (f : Floor) (i : Fin 4) :
    ∃ n, f.monitor.Takes .takesAborted i n (f.occurrence i .jumpInCue).monitor := by
  have hhalted : ∀ e, ∃ n,
      f.monitor.Takes .takesAborted i n ((f.noticed i .jumpInCue).enterHalted i e).monitor := fun e => by
    unfold Floor.enterHalted
    dsimp only
    split
    · exact (f.noticed i .jumpInCue).leaveWork_takes i .halted e
    · exact ⟨0, .refl i _ _⟩
  have hhold : ∀ h e, ∃ n, f.monitor.Takes .takesAborted i n ((f.noticed i .jumpInCue).enterHold i h e).monitor :=
    fun h e => by
    unfold Floor.enterHold
    split
    case h_5 => exact (f.noticed i .jumpInCue).leaveWork_takes i .hold e
    all_goals exact ⟨0, .refl i _ _⟩
  by_cases ho : (f.runner i).state = .offline
  · rw [f.occurrence_offline i _ ho]
    exact ⟨0, .refl i _ _⟩
  · rw [f.occurrence_eq _ ho]
    cases (f.faults i).mode .jumpInCue with
    | halt => exact hhalted _
    | resumeSlow => exact hhold _ _
    | resumeFast => exact hhold _ _
    | report => exact ⟨0, .refl i _ _⟩
    | ignore => exact ⟨0, .refl i _ _⟩

/-! ## Some runs of one stage aborted -/

section AbortsAt

variable {f g h : Floor} {i : Fin 4} {which : Run → Bool} {e : Nat}

/-- The takes of some runs of one stage, aborted by an event of it (R40, R41, R186). -/
theorem Floor.AbortsAt.takesAborted_of (a : f.AbortsAt g i which e) :
    f.TakesAborted g (fun j x => j == i && which x) (fun _ => e) where
  cues k c hc := by
    have hruns : f.abortedRuns (fun j x => j == i && which x) k =
        (((f.runner i).runs.filter which).filter fun r => r.handle == k).map fun r => (i, r) := by
      rw [Floor.abortedRuns, flatMap_finRange_eq _ i]
      · simp [List.filter_filter, Bool.and_comm]
      · intro j hj; simp [hj]
    have hloses := Cue.Loses.stage (fun _ => e) i (((f.runner i).runs.filter which).filter fun r => r.handle == k) c
    rw [← hruns] at hloses
    obtain ⟨last, hfold, hlast⟩ := hloses
    refine ⟨last, ?_, hlast⟩
    rw [a.cue, hc, Option.map_some, hfold]
    rfl
  free k hc := by rw [a.cue, hc]; rfl
  counted k := by
    intro c n hc
    obtain ⟨memory, hk⟩ := a.counter k hc
    have hsees : c.sees i (((f.runner i).runs.filter which).filter fun r => r.punch == .punched).length = n := by
      by_cases hd : c.stage = i
      · simp [Counter.sees, n, hd, List.filter_filter, Bool.and_comm]
      · have hne : (c.stage == i) = false := beq_false_of_ne hd
        simp [Counter.sees, n, hd, hne]
    rw [hk, hsees]
    exact Counter.counted_value ..

/-- A run that makes no take lowers the in-flight count of its cue, wherever it ended (R40, R41). -/
theorem Cue.aborted_unpunched (c : Cue) {r x : Run} {e e' : Nat} (hr : r.punch ≠ .punched) (hx : x.punch ≠ .punched) :
    c.aborted i e r = c.aborted i e' x := by
  rw [Cue.aborted, Cue.aborted, if_neg hr, if_neg hr, if_neg hx, if_neg hx]

/-- Runs aborted in two events, the second of which ends no take, are aborted as in one (R122). -/
theorem Floor.AbortsAt.trans_unpunched {e' : Nat} {u : Run → Run} (a : f.AbortsAt g i (fun x => !which x) e)
    (b : g.AbortsAt h i (fun _ => true) e') (hnodup : ((f.runner i).runs.map Run.handle).Nodup)
    (hruns : (g.runner i).runs = ((f.runner i).runs.filter which).map u)
    (hu : ∀ x, (u x).handle = x.handle ∧ (u x).punch = .unpunched) (hwhich : ∀ x, which x = true → x.punch ≠ .punched) :
    f.AbortsAt h i (fun _ => true) e where
  cue k := by
    rw [b.cue, a.cue, Option.map_map, List.filter_true, List.filter_true, hruns]
    congr 1
    funext c
    by_cases hk : ∃ r ∈ (f.runner i).runs, r.handle = k
    · obtain ⟨r, hr, rfl⟩ := hk
      have hone := filter_handle_eq_singleton hnodup hr
      have hmine : ∀ q : Run → Bool, (((f.runner i).runs.filter q).filter fun x => x.handle == r.handle) = [r].filter q :=
        fun q => by rw [← hone, List.filter_filter, List.filter_filter]; simp only [Bool.and_comm]
      have hkept : ((((f.runner i).runs.filter which).map u).filter fun x => x.handle == r.handle) =
          ([r].filter which).map u := by
        rw [List.filter_map, ← hmine]
        simp only [Function.comp_def, (hu _).1]
      simp only [Function.comp_def, hmine, hkept, hone]
      cases hw : which r with
      | true =>
        simp only [List.filter_cons, hw, Bool.not_true, Bool.false_eq_true, ↓reduceIte, List.filter_nil, List.map_cons,
          List.map_nil, List.foldl_cons, List.foldl_nil]
        exact c.aborted_unpunched (by rw [(hu r).2]; nofun) (hwhich r hw)
      | false => simp [hw]
    · have hnone : ∀ q : Run → Bool, (((f.runner i).runs.filter q).filter fun x => x.handle == k) = [] := fun q =>
        List.filter_eq_nil_iff.2 fun x hx heq => hk ⟨x, List.mem_of_mem_filter hx, beq_iff_eq.1 heq⟩
      have hnone' : ((f.runner i).runs.filter fun x => x.handle == k) = [] :=
        List.filter_eq_nil_iff.2 fun x hx heq => hk ⟨x, hx, beq_iff_eq.1 heq⟩
      have hkept : ((((f.runner i).runs.filter which).map u).filter fun x => x.handle == k) = [] := by
        rw [List.filter_map]
        simp only [Function.comp_def, (hu _).1, hnone, List.map_nil]
      simp only [Function.comp_def, hnone, hnone', hkept, List.foldl_nil]
  counter k hk := by
    obtain ⟨memory, hcounter⟩ := a.counter k hk
    have hsource : g.monitor.counters[k].source = .takesAborted := by
      rw [hcounter]
      exact (Counter.counted_source ..).trans hk
    obtain ⟨memory', hcounter'⟩ := b.counter k hsource
    have hnone : (((g.runner i).runs.filter fun _ => true).filter fun r => r.punch == .punched) = [] := by
      rw [List.filter_true, hruns]
      refine List.filter_eq_nil_iff.2 fun y hy heq => ?_
      obtain ⟨x, -, rfl⟩ := List.mem_map.1 hy
      rw [(hu x).2] at heq
      cases heq
    have hall : (((f.runner i).runs.filter fun x => !which x).filter fun r => r.punch == .punched) =
        ((f.runner i).runs.filter fun _ => true).filter fun r => r.punch == .punched := by
      rw [List.filter_filter, List.filter_true]
      refine List.filter_congr fun x _ => ?_
      cases hw : which x with
      | true => rw [beq_false_of_ne (hwhich x hw), Bool.false_and]
      | false => rw [Bool.not_false, Bool.and_true]
    have hzero : ∀ (d : Counter), d.sees i 0 = 0 := fun d => by unfold Counter.sees; split <;> rfl
    refine ⟨memory', ?_⟩
    rw [hcounter', hnone, List.length_nil, hzero, Counter.counted_zero, hcounter, hall]
  frozen := b.frozen.trans a.frozen

end AbortsAt

end Sys2Proof.Machine
end

section
/-! An accepted jump: the runs kept and aborted, the path, the blanking, and what a JUMP_IN_CUE makes of them (R127 to R129,
R146 to R148; log 25, 41). -/

namespace Sys2Proof.Machine

/-! ## The jump before its JUMP_IN_CUE -/

/-- A jump counted, and the last frame sent forgotten (R172, R186). -/
def Floor.jumpTaken (f : Floor) (i : Fin 4) : Floor := (f.countOccurrence i .jumps).forgetFrame i

/-- The runs of a stage at a jump to p, and the last position (R99, R127). -/
def Floor.jumpTreated (f : Floor) (i : Fin 4) (p : Nat) : Floor :=
  ((f.jumpTaken i).jumpRuns i p (f.runner i).runs).modRunner i fun r => { r with lastPosition := p }

/-- A stage that took a jump and hands no JUMP_IN_CUE on (R127, R128). -/
def Floor.jumpBlanked (f : Floor) (i : Fin 4) (p : Nat) : Floor := ((f.jumpTreated i p).settlePath i).blank i

/-- The runs that a jump to p keeps (R127). -/
def Floor.jumpKept (f : Floor) (i : Fin 4) (p : Nat) : List Run :=
  ((f.runner i).runs.filter (f.keepsAtJump p)).map (f.keptAtJump p)

section Jump

variable (f : Floor) (i : Fin 4) (p : Nat)

theorem Floor.jump_working (hw : (f.runner i).state.working = true) : f.jump i p =
    if (f.runner i).runs.any fun x => x.phase != .armed then (f.jumpBlanked i p).occurrence i .jumpInCue
    else f.jumpBlanked i p := by
  have hrunner : ((f.countOccurrence i .jumps).forgetFrame i).runner i = f.runner i := by
    rw [Floor.forgetFrame, Floor.modOverlay_runner]; rfl
  unfold Floor.jump Floor.inCue
  dsimp only
  rw [hrunner, if_pos hw]
  rfl

theorem Floor.jump_idle (hw : (f.runner i).state.working = false) : f.jump i p =
    (f.countOccurrence i .jumps).modStage i fun st =>
      { st with runner := { st.runner with lastPosition := p }, overlay := { st.overlay with lastFrame := none } } := by
  have hrunner : ((f.countOccurrence i .jumps).forgetFrame i).runner i = f.runner i := by
    rw [Floor.forgetFrame, Floor.modOverlay_runner]; rfl
  unfold Floor.jump
  dsimp only
  rw [hrunner, hw, if_neg Bool.false_ne_true, Floor.forgetFrame, Floor.modOverlay, Floor.modRunner, Floor.modStage_modStage]

theorem Floor.jumpTaken_stage : (f.jumpTaken i).stage i = { f.stage i with
    overlay := { f.overlay i with lastFrame := none } } := by
  rw [Floor.jumpTaken, Floor.forgetFrame, Floor.modOverlay_stage]
  rfl

theorem Floor.jumpTreated_stageEvent : Floor.StageEvent i f (f.jumpTreated i p) := by
  have htaken : Floor.StageEvent i f (f.jumpTaken i) :=
    (Floor.StageEvent.countOccurrence f i i .jumps).trans (Floor.forgetFrame_stageEvent _ i)
  unfold Floor.jumpTreated
  exact htaken.trans ((Floor.jumpRuns_stageEvent _ i p _).trans (.modRunner _ i _))

/-- A run that a jump keeps holds no claim (R127). -/
theorem Floor.jumpKept_unpunched {y : Run} (hy : y ∈ f.jumpKept i p) : y.punch = .unpunched := by
  obtain ⟨x, -, rfl⟩ := List.mem_map.1 hy
  rfl

section Treated

variable (hnodup : ((f.runner i).runs.map Run.handle).Nodup)
include hnodup

theorem Floor.jumpTreated_stage : (f.jumpTreated i p).stage i = { f.stage i with
    runner := { f.runner i with lastPosition := p, runs := f.jumpKept i p }
    overlay := { f.overlay i with
      lastFrame := none
      flashMarks := (f.overlay i).flashMarks.filter fun h => !((f.runner i).runs.map Run.handle).contains h } } := by
  have htaken := f.jumpTaken_stage i
  have hruns : ((f.jumpTaken i).runner i).runs = [] ++ (f.runner i).runs := (congrArg (·.runner.runs) htaken).trans rfl
  have hmarks : ((f.jumpTaken i).overlay i).flashMarks = (f.overlay i).flashMarks :=
    (congrArg (·.overlay.flashMarks) htaken).trans rfl
  have hstage := (f.jumpTaken i).jumpRuns_stage i p (f.runner i).runs [] hruns hnodup
  rw [hmarks, List.nil_append, htaken] at hstage
  rw [Floor.jumpTreated, Floor.modRunner_stage, hstage]
  rfl

theorem Floor.jumpTreated_runner :
    (f.jumpTreated i p).runner i = { f.runner i with lastPosition := p, runs := f.jumpKept i p } := by
  rw [Floor.runner, f.jumpTreated_stage i p hnodup]

theorem Floor.jumpTreated_request : (f.jumpTreated i p).recordRequest i = false := by
  rw [Floor.recordRequest, f.jumpTreated_runner i p hnodup]
  refine List.any_eq_false.2 fun y hy => ?_
  rw [f.jumpKept_unpunched i p hy]
  nofun

theorem Floor.jumpBlanked_stage : (f.jumpBlanked i p).stage i = { f.stage i with
    runner := { f.runner i with
      state := if (f.runner i).blankingLength = 0 then .chasing else .blanked
      blankingCount := (f.runner i).blankingLength, lastPosition := p, runs := f.jumpKept i p }
    overlay := { f.overlay i with
      lastFrame := none
      flashMarks := (f.overlay i).flashMarks.filter fun h => !((f.runner i).runs.map Run.handle).contains h }
    path := ((f.jumpTreated i p).settlePath i).path i } := by
  have hrunner : ((f.jumpTreated i p).settlePath i).runner i = (f.jumpTreated i p).runner i := by
    rw [Floor.settlePath_runner, Floor.grantsNow, f.jumpTreated_request i p hnodup, Bool.false_and, Bool.and_false,
      if_neg Bool.false_ne_true]
  obtain ⟨htracker, hfaults, hoverlay, -⟩ := ((f.jumpTreated i p).settlePath_pathOnly i).frame
  have hstage : ((f.jumpTreated i p).settlePath i).stage i =
      ⟨((f.jumpTreated i p).settlePath i).tracker i, ((f.jumpTreated i p).settlePath i).runner i,
        ((f.jumpTreated i p).settlePath i).faults i, ((f.jumpTreated i p).settlePath i).path i,
        ((f.jumpTreated i p).settlePath i).overlay i⟩ := rfl
  rw [Floor.jumpBlanked, Floor.blank, Floor.modRunner_stage, hstage, hrunner, htracker, hfaults, hoverlay,
    f.jumpTreated_runner i p hnodup, Floor.tracker, Floor.faults, Floor.overlay, f.jumpTreated_stage i p hnodup]

theorem Floor.jumpBlanked_runner : (f.jumpBlanked i p).runner i = { f.runner i with
    state := if (f.runner i).blankingLength = 0 then .chasing else .blanked
    blankingCount := (f.runner i).blankingLength, lastPosition := p, runs := f.jumpKept i p } := by
  rw [Floor.runner, f.jumpBlanked_stage i p hnodup]

theorem Floor.jumpTreated_pathTable (t : (f.stage i).PathTable) : ((f.jumpTreated i p).stage i).PathTable := by
  rw [f.jumpTreated_stage i p hnodup]
  exact ⟨t.free, t.talk, t.record, t.gap, t.demand, fun y hy hpunch => absurd (f.jumpKept_unpunched i p hy) hpunch⟩

theorem Floor.jumpBlanked_pathTable (t : (f.stage i).PathTable) : ((f.jumpBlanked i p).stage i).PathTable := by
  have hblank : (((f.jumpTreated i p).settlePath i).stage i).KeepsPath ((f.jumpBlanked i p).stage i) :=
    ((f.jumpTreated i p).settlePath i).modRunner_keepsPath i _
  exact hblank.table ((Floor.settlePath_keepsPath _ i).table (f.jumpTreated_pathTable i p hnodup t))

/-- The path takes the demand of the kept runs (R134, R137). -/
theorem Floor.jumpBlanked_path (t : (f.stage i).PathTable) : (f.jumpBlanked i p).path i =
    (f.path i).settled f.now (f.gapCounts i) false (f.demands i (f.jumpKept i p)) := by
  obtain ⟨g, hg⟩ : ∃ g, g = f.jumpTreated i p := ⟨_, rfl⟩
  have hstage := f.jumpTreated_stage i p hnodup
  have hrequest := f.jumpTreated_request i p hnodup
  have hevent : Floor.StageEvent i f g := hg ▸ f.jumpTreated_stageEvent i p
  rw [← hg] at hstage hrequest
  have hpath : g.path i = f.path i := by rw [Floor.path, hstage]; rfl
  have htracker : g.tracker i = f.tracker i := by rw [Floor.tracker, hstage]; rfl
  have hrunner : g.runner i = { f.runner i with lastPosition := p, runs := f.jumpKept i p } := by rw [Floor.runner, hstage]
  have htable : (g.stage i).PathTable := hg ▸ f.jumpTreated_pathTable i p hnodup t
  have hsettled := (Floor.settlePath_settled htable (Floor.claimsStand_of_not_request hrequest)).2
  have hdemands := Floor.demands_congr hevent.cue (by rw [hrunner]) hpath htracker
  rw [Floor.jumpBlanked, Floor.blank, Floor.modRunner_path, ← hg, hsettled, hrequest, Floor.demandNow_eq, hdemands, hrunner,
    Floor.gapCounts, hpath, htracker, hevent.now]
  rfl

end Treated

/-- The aborts of a jump, on its cues and at the monitor unit (R122, R186). -/
theorem Floor.jumpBlanked_abortsAt :
    f.AbortsAt (f.jumpBlanked i p) i (fun x => !f.keepsAtJump p x) (f.runner i).lastPosition := by
  have hlast : ((f.jumpTaken i).runner i).lastPosition = (f.runner i).lastPosition :=
    (congrArg (·.runner.lastPosition) (f.jumpTaken_stage i)).trans rfl
  have hstores := (f.countOccurrence i .jumps).jumpRuns_stores i p (f.runner i).runs (f.jumpTaken i) rfl rfl
  rw [hlast] at hstores
  have hsettle := ((f.jumpTreated i p).settlePath_pathOnly i).cues
  have hcounted : (f.countOccurrence i .jumps).AbortsAt (f.jumpBlanked i p) i (fun x => !f.keepsAtJump p x)
      (f.runner i).lastPosition :=
    (Floor.AbortsAt.foldl (f.countOccurrence i .jumps) i (fun x => !f.keepsAtJump p x) (f.runner i).lastPosition).to_agree
      (hsettle.1.trans hstores.1) (hsettle.2.trans hstores.2)
  refine ⟨hcounted.cue, fun k hk => ?_, hcounted.frozen⟩
  have hsame : (f.countOccurrence i .jumps).monitor.counters[k] = f.monitor.counters[k] :=
    (f.countOccurrence_takes i .jumps).other (by rw [hk]; nofun)
  have hcounter := hcounted.counter k (by rw [hsame]; exact hk)
  rw [hsame] at hcounter
  exact hcounter

/-- The monitor unit after a jump: the jump counted, and then takes alone (R186). -/
theorem Floor.jumpBlanked_takes :
    ∃ n, (f.countOccurrence i .jumps).monitor.Takes .takesAborted i n (f.jumpBlanked i p).monitor := by
  have hlast : ((f.jumpTaken i).runner i).lastPosition = (f.runner i).lastPosition :=
    (congrArg (·.runner.lastPosition) (f.jumpTaken_stage i)).trans rfl
  obtain ⟨-, hmonitor⟩ := (f.countOccurrence i .jumps).jumpRuns_stores i p (f.runner i).runs (f.jumpTaken i) rfl rfl
  have hsettle := ((f.jumpTreated i p).settlePath_pathOnly i).cues.2
  have hafter : (f.jumpBlanked i p).monitor = _ := hsettle.trans hmonitor
  rw [hafter]
  exact Floor.foldl_abortRun_takes i _ _ _

theorem Floor.jumpBlanked_notices : (f.jumpBlanked i p).notices = f.notices :=
  ((f.jumpTreated i p).settlePath_pathOnly i).notices.trans ((f.jumpTaken i).jumpRuns_notices i p _)

/-- A jump is counted in every runner state (R186). -/
theorem Floor.jump_counter {k : Fin 8} (hk : f.monitor.counters[k].source = .jumps) :
    (f.jump i p).monitor.counters[k] = (f.countOccurrence i .jumps).monitor.counters[k] := by
  have hsource : (f.countOccurrence i .jumps).monitor.counters[k].source ≠ .takesAborted := by
    have hone := (f.countOccurrence_takes i .jumps).counters k
    rw [hone, Counter.taken, if_pos hk, Counter.counted_source, hk]
    nofun
  cases hw : (f.runner i).state.working with
  | false => rw [f.jump_idle i p hw]; rfl
  | true =>
    obtain ⟨m, hm⟩ := f.jumpBlanked_takes i p
    rw [f.jump_working i p hw]
    split
    · obtain ⟨n, hn⟩ := (f.jumpBlanked i p).jumpInCue_takes i
      rw [(hm.trans i hn).other hsource]
    · rw [hm.other hsource]

end Jump

/-! ## JUMP_IN_CUE (R129, R146 to R148) -/

section InCue

variable {f : Floor} {i : Fin 4} {p : Nat} (hnodup : ((f.runner i).runs.map Run.handle).Nodup)
include hnodup

theorem Floor.jumpBlanked_working : ((f.jumpBlanked i p).runner i).state.working = true := by
  rw [f.jumpBlanked_runner i p hnodup]
  dsimp only
  split <;> rfl

/-- A JUMP_IN_CUE that is reported or ignored leaves the stage and the stores (R146). -/
theorem Floor.jump_goes (hw : (f.runner i).state.working = true)
    (hgoes : ¬(((f.runner i).runs.any fun x => x.phase != .armed) = true ∧ (f.faults i).jumpInCue ≠ .report ∧
      (f.faults i).jumpInCue ≠ .ignore)) :
    f.jump i p = if (f.faults i).jumpInCue = .report ∧ ((f.runner i).runs.any fun x => x.phase != .armed) = true then
      (f.jumpBlanked i p).setNotice (.ofStage i .jumpInCue) else f.jumpBlanked i p := by
  have ho := RunnerState.ne_offline_of_working (Floor.jumpBlanked_working (p := p) hnodup)
  have hfaults : ((f.jumpBlanked i p).faults i).mode .jumpInCue = (f.faults i).jumpInCue := by
    rw [Floor.faults, f.jumpBlanked_stage i p hnodup]
    rfl
  rw [f.jump_working i p hw]
  cases hpast : (f.runner i).runs.any fun x => x.phase != .armed with
  | false => simp
  | true =>
    rw [hpast] at hgoes
    by_cases hreport : (f.faults i).jumpInCue = .report
    · rw [if_pos rfl, if_pos ⟨hreport, rfl⟩, Floor.occurrence_report _ ho (hfaults.trans hreport)]
      rfl
    · have hignore : (f.faults i).jumpInCue = .ignore :=
        Decidable.not_not.1 fun hignore => hgoes ⟨rfl, hreport, hignore⟩
      rw [if_pos rfl, if_neg fun h => hreport h.1, Floor.occurrence_ignore _ ho (hfaults.trans hignore)]
      rfl

variable (hw : (f.runner i).state.working = true)
  (hpast : ((f.runner i).runs.any fun x => x.phase != .armed) = true)
  (hreport : (f.faults i).jumpInCue ≠ .report) (hignore : (f.faults i).jumpInCue ≠ .ignore)
include hw hpast

omit hnodup in
theorem Floor.jump_inCue : f.jump i p = (f.jumpBlanked i p).occurrence i .jumpInCue := by
  rw [f.jump_working i p hw, if_pos hpast]

include hreport hignore

omit hnodup hw hpast hreport hignore in
theorem Floor.modRunner_holdOff {g : Floor} {n : RunnerState} (hold : Nat) (h : (g.runner i).state = n) :
    (g.modRunner i fun r => { r with holdOff := hold }) = g.modRunner i fun r => { r with state := n, holdOff := hold } := by
  subst h
  exact Floor.modStage_congr g i (fun s => { s with runner := { s.runner with holdOff := hold } })
    (fun s => { s with runner := { s.runner with state := (g.runner i).state, holdOff := hold } }) rfl

/-- A JUMP_IN_CUE under HALT or RESUME takes the runner from its work, and then sets its hold-off (R147, R148). -/
theorem Floor.jump_stops : ∃ (n : RunnerState) (hold : Nat), f.jump i p =
      (((f.jumpBlanked i p).setNotice (.ofStage i .jumpInCue)).leaveWork i n (f.tracker i).position).modRunner i
        (fun r => { r with state := n, holdOff := hold }) ∧
    n = (if (f.faults i).jumpInCue = .halt then .halted else .hold) ∧
    hold = if (f.faults i).jumpInCue = .halt then 0 else if (f.faults i).jumpInCue = .resumeSlow then 120 else 12 := by
  obtain ⟨c, hc⟩ : ∃ c, c = f.jumpBlanked i p := ⟨_, rfl⟩
  have hworking : (c.runner i).state.working = true := hc ▸ Floor.jumpBlanked_working hnodup
  have ho := RunnerState.ne_offline_of_working hworking
  have hstage := f.jumpBlanked_stage i p hnodup
  rw [← hc] at hstage ⊢
  have hfaults : (c.faults i).mode .jumpInCue = (f.faults i).jumpInCue := by rw [Floor.faults, hstage]; rfl
  have htracker : (c.tracker i).position = (f.tracker i).position := by rw [Floor.tracker, hstage]; rfl
  have hnoticed : c.noticed i .jumpInCue = c.setNotice (.ofStage i .jumpInCue) := rfl
  have hworking' : ((c.setNotice (.ofStage i .jumpInCue)).runner i).state.working = true := hworking
  have hresume : ∀ hold, (c.faults i).mode .jumpInCue = .resumeSlow ∧ hold = 120 ∨
      (c.faults i).mode .jumpInCue = .resumeFast ∧ hold = 12 → f.jump i p =
        ((c.setNotice (.ofStage i .jumpInCue)).leaveWork i .hold (f.tracker i).position).modRunner i
          (fun r => { r with state := .hold, holdOff := hold }) := fun hold hm => by
    have hstate : (((c.setNotice (.ofStage i .jumpInCue)).leaveWork i .hold (f.tracker i).position).runner i).state =
        .hold := by rw [Floor.leaveWork_runner]
    rw [Floor.jump_inCue hw hpast, ← hc, Floor.occurrence_resume _ ho hm, hnoticed,
      Floor.enterHold_of_working _ _ hworking', if_neg (by nofun), htracker, Floor.modRunner_holdOff hold hstate]
  cases hm : (f.faults i).jumpInCue with
  | halt =>
    refine ⟨.halted, 0, ?_, rfl, rfl⟩
    rw [Floor.jump_inCue hw hpast, ← hc, Floor.occurrence_halt _ ho (hfaults.trans hm), hnoticed, Floor.enterHalted,
      if_pos hworking', if_neg (by nofun), htracker]
  | resumeSlow => exact ⟨.hold, 120, hresume 120 (.inl ⟨hfaults.trans hm, rfl⟩), rfl, rfl⟩
  | resumeFast => exact ⟨.hold, 12, hresume 12 (.inr ⟨hfaults.trans hm, rfl⟩), rfl, rfl⟩
  | report => exact absurd hm hreport
  | ignore => exact absurd hm hignore

end InCue

/-! ## What a JUMP_IN_CUE leaves -/

theorem Path.settled_guardGap (p : Path) (now gap : Nat) (claims demands : Bool) :
    (p.settled now gap claims demands).guardGap = p.guardGap := by
  unfold Path.settled
  dsimp only
  split
  · split
    · rfl
    · split <;> rfl
  · split <;> rfl
  · split <;> rfl
  · split <;> rfl

/-- A notice set does not bear on the aborts of a runner that leaves its work. -/
theorem Floor.AbortsAt.leaveWork_noticed (f : Floor) (i : Fin 4) (m : Notice) (n : RunnerState) (e : Nat) :
    f.AbortsAt ((f.setNotice m).leaveWork i n e) i (fun _ => true) e :=
  have hleave := Floor.AbortsAt.leaveWork (f.setNotice m) i n e
  ⟨hleave.cue, hleave.counter, hleave.frozen⟩

section Stopped

variable (f : Floor) (i : Fin 4) (p : Nat) (n : RunnerState) (hold e : Nat)

/-- A jump whose JUMP_IN_CUE takes the runner from its work (R147, R148). -/
def Floor.jumpStopped : Floor :=
  (((f.jumpBlanked i p).setNotice (.ofStage i .jumpInCue)).leaveWork i n e).modRunner i
    fun r => { r with state := n, holdOff := hold }

theorem Floor.jumpStopped_notices :
    (f.jumpStopped i p n hold e).notices = f.notices.set (Notice.ofStage i .jumpInCue).index true := by
  rw [Floor.jumpStopped, Floor.modRunner_notices, Floor.leaveWork_notices, ← f.jumpBlanked_notices i p]
  rfl

variable (hnodup : ((f.runner i).runs.map Run.handle).Nodup)
include hnodup

theorem Floor.jumpStopped_runner : (f.jumpStopped i p n hold e).runner i = { f.runner i with
    state := n, holdOff := hold, blankingCount := 0, lastPosition := p, runs := [] } := by
  have hrunner : ((f.jumpBlanked i p).setNotice (.ofStage i .jumpInCue)).runner i = (f.jumpBlanked i p).runner i := rfl
  rw [Floor.jumpStopped, Floor.modRunner_runner, Floor.leaveWork_runner, hrunner, f.jumpBlanked_runner i p hnodup]

theorem Floor.jumpStopped_overlay : (f.jumpStopped i p n hold e).overlay i = { f.overlay i with
    lastFrame := none
    flashMarks := (f.overlay i).flashMarks.filter fun h => !((f.runner i).runs.map Run.handle).contains h } := by
  obtain ⟨c, hc⟩ : ∃ c, c = (f.jumpBlanked i p).setNotice (.ofStage i .jumpInCue) := ⟨_, rfl⟩
  have hstage : c.stage i = (f.jumpBlanked i p).stage i := by rw [hc]; rfl
  rw [f.jumpBlanked_stage i p hnodup] at hstage
  obtain ⟨q, hq⟩ := c.leaveWork_stage i n e
  have hoverlay : c.overlay i = { f.overlay i with
      lastFrame := none
      flashMarks := (f.overlay i).flashMarks.filter fun h => !((f.runner i).runs.map Run.handle).contains h } := by
    rw [Floor.overlay, hstage]
  have hkept : ∀ h, ((f.runner i).runs.map Run.handle).contains h = false →
      ((c.runner i).runs.any fun r => r.handle == h) = false := fun h hh => by
    rw [Floor.runner, hstage]
    refine List.any_eq_false.2 fun y hy heq => ?_
    obtain ⟨x, hx, rfl⟩ := List.mem_map.1 hy
    rw [← Bool.not_eq_true, List.contains_iff_mem] at hh
    exact hh (List.mem_map.2 ⟨x, List.mem_of_mem_filter hx, beq_iff_eq.1 heq⟩)
  have hmarks : ((c.overlay i).flashMarks.filter fun h => !(c.runner i).runs.any fun r => r.handle == h) =
      (c.overlay i).flashMarks := List.filter_eq_self.2 fun h hh => by
    rw [hoverlay] at hh
    rw [hkept h (by simpa using (List.mem_filter.1 hh).2)]
    rfl
  rw [Floor.jumpStopped, Floor.modRunner_overlay, ← hc, Floor.overlay, hq, hmarks, hoverlay]

/-- The runs that the jump kept end without a take (R41, R147). -/
theorem Floor.jumpStopped_takesAborted : f.TakesAborted (f.jumpStopped i p n hold e) (fun j _ => j == i)
    (fun _ => (f.runner i).lastPosition) := by
  have hstops : (f.jumpBlanked i p).AbortsAt (f.jumpStopped i p n hold e) i (fun _ => true) e :=
    (Floor.AbortsAt.leaveWork_noticed (f.jumpBlanked i p) i (.ofStage i .jumpInCue) n e).to_agree
      (Floor.modRunner_cues ..) (Floor.modRunner_monitor ..)
  refine ((f.jumpBlanked_abortsAt i p).trans_unpunched hstops hnodup (u := f.keptAtJump p) ?_ (fun _ => ⟨rfl, rfl⟩)
    fun x hx => ?_).takesAborted
  · rw [f.jumpBlanked_runner i p hnodup]
    rfl
  · unfold Floor.keepsAtJump at hx
    cases hc : f.cue x.handle with
    | none => rw [hc] at hx; cases hx
    | some c =>
      rw [hc] at hx
      exact bne_iff_ne.1 (Bool.and_eq_true_iff.1 hx).2

theorem Floor.jumpStopped_path (t : (f.stage i).PathTable) : (f.jumpStopped i p n hold e).path i =
    ((f.path i).settled f.now (f.gapCounts i) false (f.demands i (f.jumpKept i p))).settled f.now (f.gapCounts i)
      false false := by
  obtain ⟨c, hc⟩ : ∃ c, c = (f.jumpBlanked i p).setNotice (.ofStage i .jumpInCue) := ⟨_, rfl⟩
  have hstage : c.stage i = (f.jumpBlanked i p).stage i := by rw [hc]; rfl
  have hpath : c.path i = (f.jumpBlanked i p).path i := congrArg Stage.path hstage
  have htable : (c.stage i).PathTable := by rw [hstage]; exact f.jumpBlanked_pathTable i p hnodup t
  rw [f.jumpBlanked_stage i p hnodup] at hstage
  rw [f.jumpBlanked_path i p hnodup t] at hpath
  have hclaims : (c.stage i).ClaimsStand := by
    rw [hstage]
    rintro ⟨y, hy, hpunch⟩
    exact absurd (f.jumpKept_unpunched i p hy) hpunch
  have hnow : c.now = f.now := by
    have hevent := (f.jumpTreated_stageEvent i p).trans (Floor.settlePath_stageEvent _ i)
    rw [hc]
    exact hevent.now
  have htracker : c.tracker i = f.tracker i := by rw [Floor.tracker, hstage]; rfl
  have hgap : c.gapCounts i = f.gapCounts i := by
    rw [Floor.gapCounts, hpath, Path.settled_guardGap, htracker, Floor.gapCounts]
  obtain ⟨-, -, hreleased⟩ := c.leaveWork_losesRuns i n e
  have hafter := hreleased.path htable hclaims
  have hnone : ((c.runner i).runs.filter fun _ => !true) = [] := List.filter_eq_nil_iff.2 fun _ _ => nofun
  simp only [hnone, List.any_nil, Floor.demands, Bool.and_false] at hafter
  rw [Floor.jumpStopped, Floor.modRunner_path, ← hc, hafter, hpath, hnow, hgap]

end Stopped

/-- Settles O49: the jump counted and its runs treated, and then a JUMP_IN_CUE by its mode. -/
theorem jumpTreatsRuns : Obligations.JumpTreatsRuns := by
  intro f i p r g n mode past stops kept stay settled
  have hkept : kept = f.keepsAtJump p := funext fun x => by
    simp only [kept, Floor.keepsAtJump]
    cases f.cue x.handle with
    | none => rfl
    | some c =>
      rw [Bool.eq_iff_iff, decide_eq_true_iff]
      simp only [Bool.and_eq_true, decide_eq_true_eq, bne_iff_ne]
      exact and_comm
  have hstay : stay = f.jumpKept i p := by
    rw [Floor.jumpKept, funext (f.keptAtJump_eq p), ← hkept]
  refine ⟨fun k => ?_, f.jump_idle i p, fun hw hnodup =>
    ⟨f.jump_tracker i p, (f.jump_stageEvent i p).stages, ?_, fun hgoes => ?_, fun hstops => ?_⟩⟩
  · intro c hk
    rw [show g.monitor.counters[k] = _ from f.jump_counter i p hk, f.countOccurrence_counter i, Counter.taken_eq]
    exact if_congr ⟨fun ⟨hstage, _, _, henabled⟩ => ⟨hstage, henabled⟩,
      fun ⟨hstage, henabled⟩ => ⟨hstage, hk, nofun, henabled⟩⟩ rfl rfl
  · by_cases hstops : stops
    · obtain ⟨hpast, hreport, hignore⟩ := hstops
      obtain ⟨m, hold, hjump, -, -⟩ := Floor.jump_stops (p := p) hnodup hw hpast hreport hignore
      rw [show g = _ from hjump]
      exact f.jumpStopped_overlay i p m hold _ hnodup
    · rw [show g = _ from Floor.jump_goes hnodup hw hstops]
      have hoverlay := congrArg Stage.overlay (f.jumpBlanked_stage i p hnodup)
      split
      · exact hoverlay
      · exact hoverlay
  · obtain ⟨c, hc⟩ : ∃ c, c = f.jumpBlanked i p := ⟨_, rfl⟩
    have hg : g = _ := Floor.jump_goes (p := p) hnodup hw hgoes
    have hrunner := f.jumpBlanked_runner i p hnodup
    have haborts := f.jumpBlanked_abortsAt i p
    have hpath := f.jumpBlanked_path i p hnodup
    have hnotices := f.jumpBlanked_notices i p
    rw [← hc] at hg hrunner haborts hpath hnotices
    have hsame : g.stages = c.stages ∧ g.cues = c.cues ∧ g.monitor = c.monitor := by
      rw [hg]
      split
      · exact ⟨rfl, rfl, rfl⟩
      · exact ⟨rfl, rfl, rfl⟩
    obtain ⟨hstages, hcues, hmonitor⟩ := hsame
    have hstage : g.stage i = c.stage i := by rw [Floor.stage, hstages]; rfl
    have haborts' := haborts.to_agree hcues hmonitor
    rw [← hkept] at haborts'
    refine ⟨?_, fun x hx hkeeps => ?_, haborts'.takesAborted_of, fun t _ => ?_, ?_⟩
    · rw [hstay]
      exact (congrArg Stage.runner hstage).trans hrunner
    · have hnone : (((f.runner i).runs.filter fun x => !kept x).filter fun y => y.handle == x.handle) = [] := by
        rw [List.filter_filter]
        refine List.filter_eq_nil_iff.2 fun y hy heq => ?_
        obtain ⟨heq, hgone⟩ := Bool.and_eq_true_iff.1 heq
        rw [List.inj_on_of_nodup_map hnodup hy hx (beq_iff_eq.1 heq), hkeeps] at hgone
        cases hgone
      rw [haborts'.cue, hnone]
      exact Option.map_id'
    · rw [show settled = (f.path i).settled f.now (f.gapCounts i) false (f.demands i stay) from rfl, hstay]
      exact (congrArg Stage.path hstage).trans (hpath t)
    · rw [hg]
      split
      · exact congrArg (·.set n true) hnotices
      · exact hnotices
  · obtain ⟨hpast, hreport, hignore⟩ := hstops
    obtain ⟨m, hold, hjump, hm, hhold⟩ := Floor.jump_stops (p := p) hnodup hw hpast hreport hignore
    have hg : g = f.jumpStopped i p m hold (f.tracker i).position := hjump
    rw [hg]
    refine ⟨?_, f.jumpStopped_takesAborted i p m hold _ hnodup, fun t _ => ?_, f.jumpStopped_notices i p m hold _⟩
    · rw [f.jumpStopped_runner i p m hold _ hnodup, hm, hhold]
    · rw [show settled = (f.path i).settled f.now (f.gapCounts i) false (f.demands i stay) from rfl, hstay]
      exact f.jumpStopped_path i p m hold _ hnodup t

end Sys2Proof.Machine
end

section
/-! The outputs of the stages as the cue lines show them: gates, runner outputs, lamps, blink and attention, and the levels
of DEDICATED and ROUTED banks (R124, R125, R155, R159, R160, R163, R165, R166). -/

namespace Sys2Proof.Machine

/-! ## Runner outputs (R124, R125) -/

/-- Some run of a stage is in a phase and lists the character that the working cast holds on a podium (R125). -/
def Floor.Lit (f : Floor) (i : Fin 4) (k : Fin 6) (phase : Phase) : Prop :=
  ∃ id, (f.runner i).workingCast[k] = some id ∧ ∃ r ∈ (f.runner i).runs, r.phase = phase ∧
    ∃ c, f.cue r.handle = some c ∧ id ∈ c.fields.characters

/-- Some run of a stage has a kept beep sounding (R14, R124). -/
def Floor.Beeps (f : Floor) (i : Fin 4) : Prop :=
  ∃ r ∈ (f.runner i).runs, ∃ c k, f.cue r.handle = some c ∧ 1 ≤ k ∧ k ≤ c.fields.timing.beepCount ∧
    64 * k * c.fields.timing.beepSpacing ≤ c.fields.inPoint ∧
    c.fields.inPoint - 64 * k * c.fields.timing.beepSpacing ≤ (f.tracker i).position ∧
    (f.tracker i).position < c.fields.inPoint - 64 * k * c.fields.timing.beepSpacing + 64 * c.fields.timing.beepLength

section Outputs

variable (f : Floor) (i : Fin 4)

theorem CueFields.beepStart_eq_some_iff (c : CueFields) (k b : Nat) : c.beepStart k = some b ↔
    64 * k * c.timing.beepSpacing ≤ c.inPoint ∧ b = c.inPoint - 64 * k * c.timing.beepSpacing := by
  unfold CueFields.beepStart
  split
  · next h => rw [Option.some.injEq, eq_comm, and_iff_right h]
  · next h => exact ⟨nofun, fun hk => absurd hk.1 h⟩

theorem Floor.beepGate_iff : f.beepGate i = true ↔ f.Beeps i := by
  refine List.any_eq_true.trans (exists_congr fun r => and_congr_right fun _ => ?_)
  cases f.cue r.handle with
  | none => exact ⟨nofun, fun ⟨c, k, hc, _⟩ => nomatch hc⟩
  | some c =>
    refine (c.fields.beepGate_iff _).trans ⟨fun ⟨k, b, hk, hn, hstart, hon, hoff⟩ => ?_,
      fun ⟨d, k, hd, hk, hn, hkept, hon, hoff⟩ => ?_⟩
    · obtain ⟨hkept, rfl⟩ := (c.fields.beepStart_eq_some_iff k b).1 hstart
      exact ⟨c, k, rfl, hk, hn, hkept, hon, hoff⟩
    · cases hd
      exact ⟨k, _, hk, hn, (c.fields.beepStart_eq_some_iff k _).2 ⟨hkept, rfl⟩, hon, hoff⟩

theorem Floor.streamerActive_iff : f.streamerActive i = true ↔ ∃ r ∈ (f.runner i).runs, r.phase = .sweep := by
  simp [Floor.streamerActive]

theorem Floor.armedOutput_iff : f.armedOutput i = true ↔ ∃ r ∈ (f.runner i).runs, r.phase = .armed := by
  simp [Floor.armedOutput]

theorem Floor.recordRequest_iff : f.recordRequest i = true ↔ ∃ r ∈ (f.runner i).runs, r.punch ≠ .unpunched := by
  simp [Floor.recordRequest]

theorem Floor.stageFault_iff :
    f.stageFault i = true ↔ (f.runner i).state = .hold ∨ (f.runner i).state = .halted := by
  simp [Floor.stageFault]

theorem Floor.blink_iff : f.blink i = true ↔
    2 * (labelOf (f.tracker i).rate (f.tracker i).position).frames < (f.tracker i).rate.base := decide_eq_true_iff

theorem Floor.attention_iff : f.attention = true ↔ ∃ n : Fin 26, f.notices[n] = true ∧ f.mask[n] = true := by
  simp [Floor.attention]

theorem Floor.recordGate_iff : f.recordGate i = true ↔ (f.path i).state = .record := beq_iff_eq

theorem Floor.talkbackGate_iff : f.talkbackGate i = true ↔ (f.path i).state = .talk := beq_iff_eq

/-! ## Lamps (R125) -/

variable (k : Fin 6)

theorem Floor.runLists_iff (r : Run) (id : Nat) :
    f.runLists r id = true ↔ ∃ c, f.cue r.handle = some c ∧ id ∈ c.fields.characters := by
  unfold Floor.runLists
  cases f.cue r.handle with
  | none => exact ⟨nofun, fun ⟨c, hc, _⟩ => nomatch hc⟩
  | some c => simp

theorem Floor.lit_iff_any {id : Nat} (hid : (f.runner i).workingCast[k] = some id) (phase : Phase) :
    ((f.runner i).runs.any fun r => f.runLists r id && r.phase == phase) = true ↔ f.Lit i k phase := by
  have hone : ∀ r : Run, (f.runLists r id && r.phase == phase) = true ↔
      r.phase = phase ∧ ∃ c, f.cue r.handle = some c ∧ id ∈ c.fields.characters := fun r => by
    rw [Bool.and_eq_true, beq_iff_eq, Floor.runLists_iff, and_comm]
  rw [List.any_eq_true]
  refine ⟨fun ⟨r, hr, hlit⟩ => ⟨id, hid, r, hr, (hone r).1 hlit⟩, fun ⟨id', hid', r, hr, hlit⟩ => ?_⟩
  rw [hid, Option.some.injEq] at hid'
  subst hid'
  exact ⟨r, hr, (hone r).2 hlit⟩

/-- SPEAK over STANDBY (R125). -/
theorem Floor.lamp_iff : (f.lamp i k = .speak ↔ f.Lit i k .speaking) ∧
    (f.lamp i k = .standby ↔ ¬f.Lit i k .speaking ∧ f.Lit i k .sweep) := by
  unfold Floor.lamp
  cases hid : (f.runner i).workingCast[k] with
  | none =>
    have hdark : ∀ phase, ¬f.Lit i k phase := fun phase ⟨id, hsome, _⟩ => nomatch hid.symm.trans hsome
    exact ⟨⟨nofun, fun h => absurd h (hdark _)⟩, ⟨nofun, fun h => absurd h.2 (hdark _)⟩⟩
  | some id =>
    dsimp only
    rw [← f.lit_iff_any i k hid .speaking, ← f.lit_iff_any i k hid .sweep]
    cases (f.runner i).runs.any fun r => f.runLists r id && r.phase == .speaking with
    | true => simp
    | false => cases (f.runner i).runs.any fun r => f.runLists r id && r.phase == .sweep <;> simp

theorem Floor.anySpeak_iff : f.anySpeak i = true ↔ ∃ k, f.Lit i k .speaking := by
  simp [Floor.anySpeak, (f.lamp_iff i _).1]

theorem Floor.standbyLevel_iff : f.standbyLevel i k = true ↔ (¬f.Lit i k .speaking ∧ f.Lit i k .sweep) ∧
    2 * (labelOf (f.tracker i).rate (f.tracker i).position).frames < (f.tracker i).rate.base := by
  rw [Floor.standbyLevel, Bool.and_eq_true, beq_iff_eq, (f.lamp_iff i k).2, f.blink_iff]

theorem Floor.speakLevel_iff : (f.lamp i k == .speak) = true ↔ f.Lit i k .speaking :=
  beq_iff_eq.trans (f.lamp_iff i k).1

end Outputs

/-! ## The sources of a line (R160, R163) -/

theorem Floor.dedicatedLevel_iff (f : Floor) (i : Fin 4) (place : Nat) : f.dedicatedLevel i place = true ↔
    match place with
    | 0 => (f.path i).state = .record
    | 1 => (f.path i).state = .talk
    | 2 => f.Beeps i
    | 3 => ∃ r ∈ (f.runner i).runs, r.phase = .sweep
    | 4 => ∃ k, f.Lit i k .speaking
    | _ => (f.runner i).state = .hold ∨ (f.runner i).state = .halted := by
  match place with
  | 0 => exact f.recordGate_iff i
  | 1 => exact f.talkbackGate_iff i
  | 2 => exact f.beepGate_iff i
  | 3 => exact f.streamerActive_iff i
  | 4 => exact f.anySpeak_iff i
  | n + 5 => exact f.stageFault_iff i

/-- A source of the table of R163 shows active; a bicolour one shows on a pair alone. -/
def Floor.Shows (f : Floor) (source : LineSource) : Prop :=
  match source with
  | .constantInactive => False
  | .constantActive => True
  | .record i => (f.path i).state = .record
  | .talkback i => (f.path i).state = .talk
  | .beep i => f.Beeps i
  | .streamerActive i => ∃ r ∈ (f.runner i).runs, r.phase = .sweep
  | .armed i => ∃ r ∈ (f.runner i).runs, r.phase = .armed
  | .anySpeak i => ∃ k, f.Lit i k .speaking
  | .stageFault i => (f.runner i).state = .hold ∨ (f.runner i).state = .halted
  | .podiumSpeak i k => f.Lit i k .speaking
  | .podiumStandby i k => (¬f.Lit i k .speaking ∧ f.Lit i k .sweep) ∧
      2 * (labelOf (f.tracker i).rate (f.tracker i).position).frames < (f.tracker i).rate.base
  | .podiumBicolour _ _ => False
  | .attention => ∃ n : Fin 26, f.notices[n] = true ∧ f.mask[n] = true

theorem Floor.sourceLevel_iff (f : Floor) (source : LineSource) (h : ∀ i k, source ≠ .podiumBicolour i k) :
    f.sourceLevel source = true ↔ f.Shows source := by
  cases source with
  | constantInactive => exact ⟨nofun, False.elim⟩
  | constantActive => exact ⟨fun _ => trivial, fun _ => rfl⟩
  | record i => exact f.recordGate_iff i
  | talkback i => exact f.talkbackGate_iff i
  | beep i => exact f.beepGate_iff i
  | streamerActive i => exact f.streamerActive_iff i
  | armed i => exact f.armedOutput_iff i
  | anySpeak i => exact f.anySpeak_iff i
  | stageFault i => exact f.stageFault_iff i
  | podiumSpeak i k => exact f.speakLevel_iff i k
  | podiumStandby i k => exact f.standbyLevel_iff i k
  | podiumBicolour i k => exact absurd rfl (h i k)
  | attention => exact f.attention_iff

/-! ## The lines of a bank (R159, R160, R165) -/

section Lines

variable (s : State) (l : Fin 24)

/-- A DEDICATED bank has no pairs, and a line shows its place (R160). -/
theorem State.logicalLevel_dedicated {i : Fin 4} (h : s.banks[lineBank l] = { mode := .dedicated, stage := i }) :
    s.pairing l = .unpaired ∧ s.logicalLevel l = s.floor.dedicatedLevel i (l.val % 6) := by
  have hpair : s.bicolour l = none := if_neg (by rw [h]; nofun)
  refine ⟨by rw [State.pairing, hpair]; rfl, ?_⟩
  unfold State.logicalLevel
  rw [h]

/-- A line of a ROUTED bank whose even neighbour holds no bicolour source shows its own source (R163). -/
theorem State.logicalLevel_unpaired (hmode : s.banks[lineBank l].mode = .routed)
    (heven : ∀ i k, s.lines[evenLine l].source ≠ .podiumBicolour i k) :
    s.pairing l = .unpaired ∧ s.logicalLevel l = s.floor.sourceLevel s.lines[l].source := by
  have hpair : s.bicolour l = none := by
    rw [State.bicolour, if_pos hmode]
    split
    · next i k hsource => exact absurd hsource (heven i k)
    · rfl
  refine ⟨by rw [State.pairing, hpair]; rfl, ?_⟩
  unfold State.logicalLevel
  dsimp only
  rw [hmode, hpair]

/-- A line of a pair shows the lamp of the podium in its half of the colours (R165). -/
theorem State.logicalLevel_paired {i : Fin 4} {k : Fin 6} (hmode : s.banks[lineBank l].mode = .routed)
    (heven : s.lines[evenLine l].source = .podiumBicolour i k) :
    s.pairing l = (if l.val % 2 = 0 then .even else .odd) ∧
    s.logicalLevel l = if l.val % 2 = 0 then s.floor.standbyLevel i k else s.floor.lamp i k == .speak := by
  have hpair : s.bicolour l = some (i, k) := by rw [State.bicolour, if_pos hmode, heven]
  refine ⟨by rw [State.pairing, hpair]; rfl, ?_⟩
  unfold State.logicalLevel
  dsimp only
  rw [hmode, hpair]

end Lines

/-- Settles O56, output by output and bank by bank. -/
theorem lineLevelsFollowSources : Obligations.LineLevelsFollowSources := by
  intro s l runs pos some_ beeps lit speaks waits faulted blinks attends
  refine ⟨rfl, s.floor.attention_iff, fun i => ⟨s.floor.beepGate_iff i, s.floor.streamerActive_iff i,
    s.floor.armedOutput_iff i, s.floor.recordRequest_iff i, s.floor.anySpeak_iff i, s.floor.stageFault_iff i,
    fun k => s.floor.lamp_iff i k⟩, fun h => if_pos h, fun h => ?_, fun i h => ?_, fun even heven hmode hsource hown => ?_,
    fun i k odd heven hodd hmode hsource => ?_⟩
  · rw [State.electricalLevel, if_neg (by rw [h]; nofun)]
    cases s.lines[l].polarity with
    | normal => cases s.lines[l].drive <;> cases s.logicalLevel l <;> rfl
    | inverted => cases s.lines[l].drive <;> cases s.logicalLevel l <;> rfl
  · obtain ⟨hpair, hlevel⟩ := s.logicalLevel_dedicated l h
    rw [hlevel]
    exact ⟨hpair, s.floor.dedicatedLevel_iff i (l.val % 6)⟩
  · obtain rfl : even = evenLine l := Fin.ext heven
    obtain ⟨hpair, hlevel⟩ := s.logicalLevel_unpaired l hmode hsource
    rw [hlevel]
    exact ⟨hpair, s.floor.sourceLevel_iff _ hown⟩
  · have hself : evenLine l = l := Fin.ext (by change l.val - l.val % 2 = l.val; omega)
    have hother : evenLine odd = l := Fin.ext (by change odd.val - odd.val % 2 = l.val; omega)
    have hbank : lineBank odd = lineBank l := Fin.ext (by change odd.val / 6 = l.val / 6; omega)
    obtain ⟨hpair, hlevel⟩ := s.logicalLevel_paired l hmode ((congrArg (fun m => s.lines[m].source) hself).trans hsource)
    obtain ⟨hpair', hlevel'⟩ := s.logicalLevel_paired odd ((congrArg (fun m => s.banks[m].mode) hbank).trans hmode)
      ((congrArg (fun m => s.lines[m].source) hother).trans hsource)
    rw [if_pos heven] at hpair hlevel
    rw [if_neg (by omega)] at hpair' hlevel'
    have hstandby := s.floor.standbyLevel_iff i k
    have hspeak := s.floor.speakLevel_iff i k
    rw [hlevel, hlevel']
    exact ⟨hpair, hpair', fun ⟨h, h'⟩ => (hstandby.1 h).1.1 (hspeak.1 h'), hstandby, hspeak⟩

end Sys2Proof.Machine
end
